-- ==== Sys2Proof/Word.lean ====
section
/-! DEFINITION. The words and index types of the Dalbent HX-16: bytes and multi-byte fields of frames, and the
numbered things of 00_scope.md (Numbering and absent values; Quick reference of counts). -/

namespace Sys2Proof

/-- One byte of a frame or of the configuration image. -/
abbrev Byte := BitVec 8

/-- A station address, a sequence, an offer number, a detail: 16 bits (00_scope.md). -/
abbrev Word16 := BitVec 16

/-- A cycle number or a call stamp: 32 bits (R93, R1). -/
abbrev Word32 := BitVec 32

/-- Chairs are numbered 0-7. -/
abbrev Chair := Fin 8

/-- Loaders are numbered 0-15. -/
abbrev Loader := Fin 16

/-- Zones are numbered 0-7. An unknown zone is the absence of one. -/
abbrev Zone := Fin 8

/-- Interlock lines IL0-IL7. -/
abbrev Line := Fin 8

/-- Beacon lines BC0-BC3. -/
abbrev Beacon := Fin 4

/-- Slots 0-15 of a level port, and cycle positions 0-15 (R96, R98). -/
abbrev Slot := Fin 16

/-- The slot instants of a cycle: 0-15 are its slots; 16 is slot 0 of the next cycle, taken ahead of that cycle's start, which
falls at the same instant (R96). -/
abbrev SlotTime := Fin 17

/-- The chairs in ascending number. -/
def allChairs : List Chair := [0, 1, 2, 3, 4, 5, 6, 7]

/-- The loaders in ascending number. -/
def allLoaders : List Loader := [0, 1, 2, 3, 4, 5, 6, 7, 8, 9, 10, 11, 12, 13, 14, 15]

/-- The interlock lines in ascending number. -/
def allLines : List Line := [0, 1, 2, 3, 4, 5, 6, 7]

/-- A fixed family with one member replaced. -/
def putAt {α : Type} {n : Nat} (v : Vector α n) (i : Fin n) (x : α) : Vector α n := v.set i.val x i.isLt

/-- A fixed family with every member mapped. -/
def mapAll {α β : Type} {n : Nat} (f : α → β) (v : Vector α n) : Vector β n :=
  ⟨⟨v.toList.map f⟩, by simp⟩

/-- A fixed family given member by member. -/
def tabulate {α : Type} {n : Nat} (f : Fin n → α) : Vector α n :=
  ⟨⟨(List.finRange n).map f⟩, by simp⟩

end Sys2Proof
end

