-- ==== Sys2Proof/Syntax.lean ====
section
/-! DEFINITION. The commands of the Dalbent HX-16: one constructor of `Instr` for each row of
spec/opcode_table.json, with the operands the rules give it (the table itself names none). -/

namespace Sys2Proof

/-- The three frame ports (00_scope.md, External connections). -/
inductive Port where
  | surface
  | levelA
  | levelB
  deriving DecidableEq, Repr

/-- The two level ports. -/
inductive LevelPort where
  | a
  | b
  deriving DecidableEq, Repr

/-- A level port as one of the three ports. -/
def LevelPort.toPort : LevelPort → Port
  | .a => .levelA
  | .b => .levelB

/-- The level of an interlock loop (R125). -/
inductive Level where
  | opened
  | closed
  deriving DecidableEq, Repr

/-- A change of an interlock loop's level. `aheadOfStep` says that it falls at the instant of the next step of the millisecond
count and is taken ahead of that step (R126; log entry 36). -/
structure LevelChange where
  level : Level
  aheadOfStep : Bool
  deriving DecidableEq, Repr

/-- The slot event of a loader at a slot instant of the cycle (R96; log entry 24). -/
structure LoaderSlot where
  loader : Loader
  slot : SlotTime
  deriving DecidableEq, Repr

/-- A status deadline that falls. `aheadOf` is the loader's next slot, where the event of that slot brings the deadline forward to
its own instant and the deadline is taken ahead of it (R97; log entry 37). -/
structure DeadlineFall where
  loader : Loader
  aheadOf : Option SlotTime
  deriving DecidableEq, Repr

/-- The header fields of a received frame that its sender chooses freely (R139): flags, stations, loader, epoch and
sequence. The kind and the payload length follow from the command. -/
structure Header where
  flags : Byte
  source : Word16
  destination : Word16
  loader : Byte
  epoch : Byte
  sequence : Word16
  deriving DecidableEq, Repr

/-- A whole frame between start marker and check word (R137, R139): the payload length field is the payload's length. -/
structure Frame where
  kind : Byte
  header : Header
  payload : List Byte
  deriving DecidableEq, Repr

/-- The 12-byte COMMAND payload as sent by a chair (R141). -/
structure CommandPayload where
  throttle : Word16
  steer : Word16
  boom : Word16
  bucket : Word16
  gear : Byte
  switches : Byte
  deadman : Byte
  cause : Byte
  deriving DecidableEq, Repr

/-- The 20-byte STATUS payload as sent by a loader (R142). -/
structure StatusPayload where
  mode : Byte
  request : Byte
  zone : Byte
  farEnd : Byte
  words : Vector Word16 8
  deriving DecidableEq, Repr

/-- What the configuration memory gives when it is read (R171, R172): no answer, or the bytes it returned before the
read ended. -/
inductive MemoryRead where
  | noAnswer
  | bytes (read : List Byte)
  deriving DecidableEq, Repr

/-- One entry of one of the eight tables (R145, R147). -/
inductive EntryRef where
  | device
  | mgmtStation (i : Fin 2)
  | chair (c : Chair)
  | loader (l : Loader)
  | zone (z : Zone)
  | line (i : Line)
  | rule (i : Fin 16)
  | event (i : Fin 64)
  deriving DecidableEq, Repr

/-- The commands: one constructor for each row of the table, in the table's order.

Rows that carry a frame take the header and payload fields their sender writes. Such a frame is one that passes the
receive checks (R150): any other burst is `burstReceived`. In a chair request `extra` is what follows the request's
own argument bytes, empty in a request whose length fits (R143); in COUNTER_CONTROL rows it follows the action byte
(R145). A deadline and a level change say whether they come ahead of the slot or step of their instant. A slot event's slot 16
is the next cycle's slot 0, taken ahead of its cycle start (R96; log entry 4). -/
inductive Instr where
  | powerOn (cfgoff : Bool)
  | loadEnd (read : MemoryRead)
  | cycleStart (drawFirst : Bool)
  | tableApplied (order : List EntryRef) (raiseFirst : Bool)
  | slotEvent (port : LevelPort) (slot : SlotTime)
  | standStale (slot : LoaderSlot)
  | statusDeadline (loader : DeadlineFall)
  | linkDown (loader : Loader)
  | linkUp (loader : Loader)
  | loaderReady (loader : Loader)
  | offerExpiry (loader : Loader)
  | matchTimeout (loader : Loader)
  | releaseTimeout (loader : Loader)
  | presenceExpiry (chair : Chair)
  | millisecondStep
  | lineLevelChange (line : Line) (level : LevelChange)
  | lineSettle (line : Line)
  | portLinkUp (port : Port)
  | portLinkDown (port : Port) (cut : Option (List Byte))
  | burstReceived (port : Port) (burst : List Byte)
  | command (h : Header) (p : CommandPayload)
  | status (port : LevelPort) (h : Header) (p : StatusPayload)
  | present (h : Header) (tag : Word16) (availability : Byte) (extra : List Byte)
  | leave (h : Header) (tag : Word16) (extra : List Byte)
  | take (h : Header) (tag : Word16) (extra : List Byte)
  | offer (h : Header) (tag : Word16) (target : Byte) (extra : List Byte)
  | accept (h : Header) (tag : Word16) (number : Word16) (extra : List Byte)
  | decline (h : Header) (tag : Word16) (number : Word16) (extra : List Byte)
  | cancel (h : Header) (tag : Word16) (extra : List Byte)
  | releaseAuto (h : Header) (tag : Word16) (extra : List Byte)
  | releaseStand (h : Header) (tag : Word16) (extra : List Byte)
  | recover (h : Header) (tag : Word16) (extra : List Byte)
  | stopLoader (h : Header) (tag : Word16) (zone : Byte) (extra : List Byte)
  | stopZone (h : Header) (tag : Word16) (zone : Byte) (extra : List Byte)
  | viewOn (h : Header) (tag : Word16) (period : Byte) (pattern : Word16) (mode : Byte) (extra : List Byte)
  | viewOff (h : Header) (tag : Word16) (extra : List Byte)
  | lineAck (h : Header) (tag : Word16) (line : Byte) (extra : List Byte)
  | unknownChairRequest (h : Header) (code : Byte) (tag : Word16) (args : List Byte)
  | mgmtRequest (h : Header) (operation : Byte) (tag : Word16) (selector index : Byte) (data : List Byte)
  | ident (h : Header) (tag : Word16) (selector index : Byte) (data : List Byte)
  | readEntry (h : Header) (tag : Word16) (table index : Byte) (data : List Byte)
  | writeEntry (h : Header) (tag : Word16) (table index : Byte) (data : List Byte)
  | readState (h : Header) (tag : Word16) (selector index : Byte) (data : List Byte)
  | readCounters (h : Header) (tag : Word16) (group index : Byte) (data : List Byte)
  | freeze (h : Header) (tag : Word16) (selector index : Byte) (extra : List Byte)
  | unfreeze (h : Header) (tag : Word16) (selector index : Byte) (extra : List Byte)
  | clearAll (h : Header) (tag : Word16) (selector index : Byte) (extra : List Byte)
  | readLog (h : Header) (tag : Word16) (selector count : Byte) (data : List Byte)
  | attnClear (h : Header) (tag : Word16) (selector index : Byte) (data : List Byte)
  | mgmtLineAck (h : Header) (tag : Word16) (selector line : Byte) (data : List Byte)
  | resetAuthority (h : Header) (tag : Word16) (selector index : Byte) (data : List Byte)
  | authorityReset
  | saveConfig (h : Header) (tag : Word16) (selector index : Byte) (data : List Byte)
  | saveEnd (read : MemoryRead)
  | unknownOperation (h : Header) (operation : Byte) (tag : Word16) (selector index : Byte) (data : List Byte)
  | sPortTake
  | sPortTransmissionEnd
  deriving DecidableEq, Repr

end Sys2Proof
end

