-- ==== Sys2Proof/Config.lean ====
section
/-! DEFINITION. What an implementation fixes and the spec leaves open: the free values. None has a body, so nothing can
be proved of a value of one. `State.choices` selects a fresh one at each use (log entry 28). -/

namespace Sys2Proof

/-- Which of the events of one instant that the sender did not command is taken next, as an index into those that wait
(00_scope.md, Ordering: either may be taken first). -/
opaque Config.dueChoice : Nat → Nat

/-- In which order a boundary's table writes are applied when the sender did not command the application (R166: where two
reach the same state, either may be taken first). -/
opaque Config.applyOrder : Nat → List EntryRef

/-- Whether TABLE_APPLIED is raised before the writes of its boundary are applied when the sender did not command the
application (R173: the application and the raising may be taken in either order). -/
opaque Config.raiseFirst : Nat → Bool

end Sys2Proof
end

