-- ==== Sys2Proof/Machine/State.lean ====
section
/-! DEFINITION. The state of the Dalbent HX-16 as plain data: every register, record, list, queue, mode and line its
chapters name, the queue of waiting commands, and the state right after reset. INVENTORY.md, heading State, names for
each field the rule that gives it. -/

namespace Sys2Proof.Machine

open Sys2Proof

/-! ## Names of the spec -/

/-- Why a loader stands (R1). -/
inductive Cause where
  | start
  | disabled
  | stale
  | link
  | interlock
  | stop
  | operator
  | chairLost
  | releaseTimeout
  | reset
  deriving DecidableEq, Repr

/-- What becomes of the loader if the handover fails, with the call stamp kept for a call (R1, R2). -/
inductive Origin where
  | call (stamp : Word32)
  | direct
  deriving DecidableEq, Repr

/-- The authority state of a loader with exactly the optional fields R2 gives that state. Timers count cycles (R30). -/
inductive AuthState where
  | standing (retained : Option Chair) (cause : Cause)
  | free
  | calling (stamp : Word32)
  | offered (holder : Option Chair) (chair : Chair) (origin : Origin) (number : Word16) (offerer : Option Chair) (timer : Nat)
  | matching (holder : Option Chair) (candidate : Chair) (origin : Origin) (offerer : Option Chair) (timer : Nat)
  | held (holder : Chair)
  | releasing (timer : Nat)
  deriving DecidableEq, Repr

/-- One authority record (R1): the state with its fields, and the epoch, present in every state. -/
structure AuthRecord where
  state : AuthState
  epoch : Byte
  deriving DecidableEq, Repr

/-- A chair's presence and engagement (R33). -/
inductive ChairStatus where
  | absent
  | idle
  | offered
  | candidate
  | holding
  deriving DecidableEq, Repr

/-- The state part of a chair record (R33). -/
structure ChairState where
  status : ChairStatus
  available : Bool
  idleSince : Word32
  presence : Nat
  missed : Nat
  engaged : Option Loader
  lastEnded : Option Word16
  deriving DecidableEq, Repr

/-- One entry of the Call Queue (R46). -/
structure CallEntry where
  loader : Loader
  cls : Nat
  stamp : Word32
  deriving DecidableEq, Repr

/-- A gear (R71). -/
inductive Gear where
  | neutral
  | forward
  | reverse
  deriving DecidableEq, Repr

/-- The four axis values (R71). -/
structure Axes where
  throttle : Int
  steer : Int
  boom : Int
  bucket : Int
  deriving DecidableEq, Repr

/-- 0 on every axis (R86). -/
def Axes.zero : Axes := ⟨0, 0, 0, 0⟩

/-- One command of a mailbox (R71). `held` is the deadman. -/
structure Command where
  axes : Axes
  gear : Gear
  switches : Byte
  held : Bool
  sequence : Word16
  deriving DecidableEq, Repr

/-- What the Command Builder holds for one loader (R57, R71). -/
structure Builder where
  holder : Option Command
  fresh : Bool
  lastSeq : Option Word16
  stale : Nat
  lastOut : Axes
  lastGear : Gear
  outSeq : Word16
  cand : Option Command
  lastCand : Option Word16
  deriving DecidableEq, Repr

/-- The request a loader makes (R102). -/
inductive Request where
  | none
  | call
  | callUrgent
  | autoReady
  | fault
  deriving DecidableEq, Repr

/-- What the Status Unit holds for one loader (R102). In `linkWindow` true is HEARD. -/
structure LoaderStatus where
  heard : Bool
  linkWindow : List Bool
  upRun : Nat
  linkUp : Bool
  farEnd : List Nat
  degraded : Bool
  filter : List Request
  accepted : Request
  zone : Option Zone
  deriving DecidableEq, Repr

/-- One view entry (R119). `pattern` has bit i set for position i. -/
structure ViewEntry where
  active : Bool
  period : Nat
  pattern : Word16
  random : Bool
  phase : Nat
  deriving DecidableEq, Repr

/-- An interlock line's state (R125). -/
inductive LineStatus where
  | active
  | clear
  | latched
  deriving DecidableEq, Repr

/-- The state part of a line record (R125). -/
structure LineState where
  raw : Level
  changed : Word16
  settled : Level
  status : LineStatus
  startMark : Bool
  deriving DecidableEq, Repr

/-- The Cycle Timer's state (R93). The supercycle position is the cycle number modulo 16. Instants count sixteenths of a
millisecond from the end of the load, in which every slot instant is whole (R96): `origin` is the current cycle's start, and
`now`, the model's own, the instant last taken (log entry 4). -/
structure Timer where
  number : Word32
  position : Slot
  period : Nat
  millis : Word16
  origin : Nat
  now : Nat
  deriving DecidableEq, Repr

/-- A pending status deadline (R97): the port and the instant of its slot, and the instant at which it is due. -/
structure Deadline where
  port : LevelPort
  slot : Nat
  due : Nat
  deriving DecidableEq, Repr

/-! ## The eight tables (R147, R161) -/

/-- The DEVICE entry (R147). -/
structure DeviceEntry where
  station : Word16
  period : Nat
  offerTimeout : Nat
  matchTimeout : Nat
  releaseTimeout : Nat
  presenceTimeout : Nat
  holdLimit : Nat
  matchLength : Nat
  matchCount : Nat
  requestCount : Nat
  linkDown : Nat
  linkUp : Nat
  degrade : Nat
  unknownGovernor : Nat
  marker : Byte
  requestLength : Nat
  deriving DecidableEq, Repr

/-- A MGMT_STATIONS entry (R147). -/
structure MgmtEntry where
  listed : Bool
  station : Word16
  deriving DecidableEq, Repr

/-- A CHAIRS entry (R147): the configuration part of a chair record (R33). -/
structure ChairEntry where
  station : Word16
  supervisor : Bool
  enabled : Bool
  takesCalls : Bool
  permitted : Word16
  views : Word16
  deriving DecidableEq, Repr

/-- One axis record of a LOADERS entry (R147). -/
structure AxisLimits where
  lo : Int
  hi : Int
  step : Nat
  tol : Nat
  deriving DecidableEq, Repr

/-- A LOADERS entry (R147). -/
structure LoaderEntry where
  station : Word16
  port : LevelPort
  slot : Slot
  enabled : Bool
  priority : Nat
  throttle : AxisLimits
  steer : AxisLimits
  boom : AxisLimits
  bucket : AxisLimits
  deriving DecidableEq, Repr

/-- A ZONES entry (R134, R147). -/
structure ZoneEntry where
  governor : Nat
  beacon : Option Beacon
  deriving DecidableEq, Repr

/-- A LINES entry (R147): the configuration part of a line record (R125). -/
structure LineEntry where
  enabled : Bool
  openIsActive : Bool
  latching : Bool
  zones : Byte
  debounce : Nat
  deriving DecidableEq, Repr

/-- The action of a match rule (R155). -/
inductive RuleAction where
  | pass
  | drop
  | passLog
  deriving DecidableEq, Repr

/-- A RULES entry (R147, R154). -/
structure RuleEntry where
  inUse : Bool
  kind : Byte
  kindMask : Byte
  flags : Byte
  flagsMask : Byte
  source : Word16
  sourceMask : Word16
  loader : Byte
  loaderMask : Byte
  code : Byte
  codeMask : Byte
  action : RuleAction
  deriving DecidableEq, Repr

/-- An EVENT_MAP entry (R147, R173). -/
structure EventEntry where
  log : Bool
  attn : Bool
  notify : Bool
  deriving DecidableEq, Repr

/-- The applied tables (R161). -/
structure Tables where
  device : DeviceEntry
  mgmt : Vector MgmtEntry 2
  chairs : Vector ChairEntry 8
  loaders : Vector LoaderEntry 16
  zones : Vector ZoneEntry 8
  lines : Vector LineEntry 8
  rules : Vector RuleEntry 16
  events : Vector EventEntry 64
  deriving DecidableEq, Repr

/-- At most one pending write per entry (R165). -/
structure Writes where
  device : Option DeviceEntry
  mgmt : Vector (Option MgmtEntry) 2
  chairs : Vector (Option ChairEntry) 8
  loaders : Vector (Option LoaderEntry) 16
  zones : Vector (Option ZoneEntry) 8
  lines : Vector (Option LineEntry) 8
  rules : Vector (Option RuleEntry) 16
  events : Vector (Option EventEntry) 64
  deriving DecidableEq, Repr

/-! ## Events, counters and notices -/

/-- The events of R173. -/
inductive EventName where
  | callQueued
  | callWithdrawn
  | offerMade
  | offerEnded
  | granted
  | takeSupervisor
  | released
  | releaseDone
  | matchFailed
  | standStale
  | standLink
  | standInterlock
  | standStop
  | standOperator
  | standChairLost
  | standReleaseTimeout
  | standDisabled
  | loaderReady
  | recovered
  | chairPresent
  | chairAbsent
  | chairAvailable
  | chairUnavailable
  | linkDown
  | linkUp
  | linkDegraded
  | degradeCleared
  | loaderFault
  | zoneEntryBlocked
  | interlockActive
  | interlockCleared
  | interlockLatched
  | interlockAck
  | tableApplied
  | configBad
  | configSaved
  | configSaveFailed
  | authorityReset
  | noticeLost
  | forwardLost
  | ruleHit
  | counterWarning
  | portLinkUp
  | portLinkDown
  deriving DecidableEq, Repr

/-- An event as raised (R173). -/
structure Event where
  name : EventName
  loader : Option Loader
  chair : Option Chair
  detail : Word16
  deriving DecidableEq, Repr

/-- An entry of the Event Log (R174). -/
structure LogEntry where
  cycle : Word32
  position : Slot
  event : Event
  deriving DecidableEq, Repr

/-- A counter: its group, the loader or chair it counts for, and its position in the group (R146, 11.5). -/
inductive CounterId where
  | loader (l : Loader) (k : Fin 8)
  | chair (c : Chair) (k : Fin 6)
  | device (k : Fin 14)
  deriving DecidableEq, Repr

/-- What reporting writes: the Notice Queue and the notice sequences (R157, R140), the Event Log and ATTN (R174, R176)
and the Counter Bank (R178-R180). -/
structure Report where
  notices : List Frame
  noticeSeq : Vector Word16 8
  log : List LogEntry
  overflow : Bool
  attn : Bool
  loaderCounts : Vector (Vector Nat 8) 16
  chairCounts : Vector (Vector Nat 6) 8
  deviceCounts : Vector Nat 14
  frozen : Bool
  warning : Bool
  deriving DecidableEq, Repr

/-! ## Management and configuration -/

/-- A management request as the Management Agent holds it (R145, R168). -/
structure MgmtRequest where
  source : Word16
  sequence : Word16
  operation : Byte
  tag : Word16
  selector : Byte
  index : Byte
  data : List Byte
  deriving DecidableEq, Repr

/-- The Management Agent's state (R168). -/
structure Agent where
  inService : Option MgmtRequest
  waiting : List MgmtRequest
  response : Option Frame
  resetMark : Bool
  commissioning : Bool
  deriving DecidableEq, Repr

/-- The Configuration Loader's state (R171, R172). While SAVING it holds the snapshot of the applied tables. -/
inductive ConfigPhase where
  | loading
  | idle
  | saving (snapshot : Tables)
  deriving DecidableEq, Repr

/-- The Configuration Loader (R171): its state, and the strap as sampled at power-on. -/
structure ConfigLoader where
  phase : ConfigPhase
  cfgoff : Bool
  deriving DecidableEq, Repr

/-- A frame a port is sending, with the frame type marker in force when it left (R137). -/
structure Outgoing where
  marker : Byte
  frame : Frame
  deriving DecidableEq, Repr

/-- An event of the present instant that has not been taken (the model's own: log entry 1). Each is a row of the table,
but for the phase draw, which CYCLE_START holds. The actions of a cycle start are one event with it (`Due.ofCycleStart`), and
what follows from a status deadline or a millisecond step belongs to that (`Due.follows`). -/
inductive Due where
  | loadEnd
  | presenceExpiry (c : Chair)
  | authorityReset
  | tableApplied
  | phaseDraw
  | statusDeadline (l : Loader)
  | linkDown (l : Loader)
  | linkUp (l : Loader)
  | loaderReady (l : Loader)
  | offerExpiry (l : Loader)
  | matchTimeout (l : Loader)
  | releaseTimeout (l : Loader)
  | lineSettle (i : Line)
  deriving DecidableEq, Repr

/-- The state of the part. -/
structure State where
  timer : Timer
  deadlines : Vector (Option Deadline) 16
  auth : Vector AuthRecord 16
  offerCounter : Word16
  chairs : Vector ChairState 8
  freeList : List Chair
  callQueue : List CallEntry
  walkCalled : Bool
  windows : Vector (List Bool) 16
  builders : Vector Builder 16
  status : Vector LoaderStatus 16
  views : Vector (Vector ViewEntry 16) 8
  phaseGen : Word16
  lines : Vector LineState 8
  linePins : Vector Level 8
  beacons : Vector Bool 4
  tables : Tables
  writes : Writes
  agent : Agent
  config : ConfigLoader
  rep : Report
  portUp : Vector Bool 3
  portSignal : Vector Bool 3
  responses : List Frame
  forwards : List Frame
  sending : Option Outgoing
  lSending : Vector (Option Outgoing) 2
  due : List Due
  choices : Nat
  pending : List Instr
  deriving DecidableEq, Repr

/-- No command of the part ends in a fault: the spec gives it no state in which it stops. What the spec calls an error is
an effect (a count, a REFUSED notice, a response status). -/
inductive Fault where
  deriving DecidableEq, Repr

/-- Why a command has no meaning. -/
inductive Refusal where
  /-- Raised by an arm of `exec` for a command the model gives no meaning; no arm raises it. Safe. -/
  | notModelled (mnemonic : String)
  deriving DecidableEq, Repr

/-! ## Empty tables and defaults (R161) -/

/-- The DEVICE defaults (R161). -/
def DeviceEntry.default : DeviceEntry where
  station := 0xFFFE
  period := 20
  offerTimeout := 150
  matchTimeout := 100
  releaseTimeout := 100
  presenceTimeout := 25
  holdLimit := 3
  matchLength := 10
  matchCount := 7
  requestCount := 7
  linkDown := 24
  linkUp := 8
  degrade := 16
  unknownGovernor := 64
  marker := 0x4B
  requestLength := 10

/-- The empty axis record (R161). -/
def AxisLimits.empty : AxisLimits := ⟨0, 0, 1, 0⟩

/-- The empty LOADERS entry n (R161). -/
def LoaderEntry.empty (n : Loader) : LoaderEntry where
  station := BitVec.ofNat 16 (0xFFE0 + n.val)
  port := .a
  slot := n
  enabled := false
  priority := 3
  throttle := .empty
  steer := .empty
  boom := .empty
  bucket := .empty

/-- The empty CHAIRS entry n (R161). -/
def ChairEntry.empty (n : Chair) : ChairEntry where
  station := BitVec.ofNat 16 (0xFFF0 + n.val)
  supervisor := false
  enabled := false
  takesCalls := false
  permitted := 0
  views := 0

/-- The empty RULES entry (R161). -/
def RuleEntry.empty : RuleEntry := ⟨false, 0, 0, 0, 0, 0, 0, 0, 0, 0, 0, .pass⟩

/-- The event code of CONFIG_BAD (R173). -/
def configBadCode : Fin 64 := 35

/-- The empty EVENT_MAP entry n: LOG alone, and LOG and ATTN for the code of CONFIG_BAD (R161). -/
def EventEntry.empty (n : Fin 64) : EventEntry := ⟨true, decide (n = configBadCode), false⟩

/-- The empty tables and defaults (R161). -/
def Tables.empty : Tables where
  device := .default
  mgmt := Vector.replicate 2 ⟨false, 0xFFFD⟩
  chairs := tabulate ChairEntry.empty
  loaders := tabulate LoaderEntry.empty
  zones := Vector.replicate 8 ⟨64, none⟩
  lines := Vector.replicate 8 ⟨false, true, false, 0, 20⟩
  rules := Vector.replicate 16 .empty
  events := tabulate EventEntry.empty

/-- No pending write (R165). -/
def Writes.none : Writes where
  device := .none
  mgmt := Vector.replicate 2 .none
  chairs := Vector.replicate 8 .none
  loaders := Vector.replicate 16 .none
  zones := Vector.replicate 8 .none
  lines := Vector.replicate 8 .none
  rules := Vector.replicate 16 .none
  events := Vector.replicate 64 .none

/-! ## Power-on values -/

/-- A chair record's state part after power-on (R35). -/
def ChairState.initial : ChairState := ⟨.absent, false, 0, 0, 0, none, none⟩

/-- The Command Builder's state for a loader after power-on (R70, R92). -/
def Builder.initial : Builder := ⟨none, false, none, 0, .zero, .neutral, 0, none, none⟩

/-- The Status Unit's state for a loader after power-on and after a disable (R103). -/
def LoaderStatus.initial : LoaderStatus := ⟨false, [], 0, false, [], false, [], .none, none⟩

/-- A view entry after power-on: inactive with phase 0 (R119); its other fields have no meaning (log entry 10). -/
def ViewEntry.initial : ViewEntry := ⟨false, 1, 1, false, 0⟩

/-- The phase generator's power-on value (R124). -/
def phaseSeed : Word16 := 0xACE1

/-- The level at which an enabled line is asserted (R125). -/
def LineEntry.assertedLevel (e : LineEntry) : Level := if e.openIsActive then .opened else .closed

/-- A line's state part at the end of the load, from its applied entry and the sampled level (R132). -/
def LineState.initial (e : LineEntry) (sampled : Level) : LineState where
  raw := sampled
  changed := 0
  settled := if e.enabled then e.assertedLevel else sampled
  status := if e.enabled then .active else .clear
  startMark := e.enabled

/-- An authority record at the end of the load (R31). -/
def AuthRecord.initial (e : LoaderEntry) : AuthRecord := ⟨.standing none (if e.enabled then .start else .disabled), 0⟩

/-- The Event Log, the counters and the Notice Queue after power-on (R140, R160, R181). -/
def Report.initial : Report where
  notices := []
  noticeSeq := Vector.replicate 8 0
  log := []
  overflow := false
  attn := false
  loaderCounts := Vector.replicate 16 (Vector.replicate 8 0)
  chairCounts := Vector.replicate 8 (Vector.replicate 6 0)
  deviceCounts := Vector.replicate 14 0
  frozen := false
  warning := false

/-- The power-on values of every block over given applied tables (R171 lists the rules), with the Configuration Loader
as given. The input pins are those given; each port's link is as its line signal (R149). -/
def State.powerOnValues (t : Tables) (commissioning : Bool) (config : ConfigLoader) (pins : Vector Level 8)
    (signal : Vector Bool 3) : State where
  timer := ⟨0, 0, t.device.period, 0, 0, 0⟩
  deadlines := Vector.replicate 16 none
  auth := mapAll AuthRecord.initial t.loaders
  offerCounter := 0
  chairs := Vector.replicate 8 .initial
  freeList := []
  callQueue := []
  walkCalled := false
  windows := Vector.replicate 16 []
  builders := Vector.replicate 16 .initial
  status := Vector.replicate 16 .initial
  views := Vector.replicate 8 (Vector.replicate 16 .initial)
  phaseGen := phaseSeed
  lines := tabulate fun i => LineState.initial t.lines[i] pins[i]
  linePins := pins
  beacons := Vector.replicate 4 false
  tables := t
  writes := .none
  agent := ⟨none, [], none, false, commissioning⟩
  config := config
  rep := .initial
  portUp := signal
  portSignal := signal
  responses := []
  forwards := []
  sending := none
  lSending := Vector.replicate 2 none
  due := []
  choices := 0
  pending := []

/-- The part right after power-on with the CFGOFF strap clear: the Configuration Loader is LOADING (R171). The spec gives
the other values for the end of the load; holding them from here on, over empty tables, is log entry 2, and the input
pins' first levels are log entry 10. -/
def State.reset : State :=
  State.powerOnValues .empty false ⟨.loading, false⟩ (Vector.replicate 8 .opened) (Vector.replicate 3 false)

end Sys2Proof.Machine
end

