-- ==== Sys2Proof/WellFormed.lean ====
section
/-! DEFINITION. When the operands of a command spell something its row of the table stands for. The meanings of
Sys2Proof/Machine are total and do not rest on it. -/

namespace Sys2Proof

/-- The largest payload a frame carries (R137). -/
def maxPayload : Nat := 256

/-- The length of the configuration image (R148). -/
def imageLength : Nat := 1038

/-- The chair request codes of R143. -/
def chairRequestCodes : List Byte :=
  [0x01, 0x02, 0x10, 0x11, 0x12, 0x13, 0x14, 0x15, 0x16, 0x17, 0x20, 0x21, 0x30]

/-- The management operation codes of R145. -/
def operationCodes : List Byte :=
  [0x01, 0x02, 0x03, 0x04, 0x05, 0x06, 0x07, 0x08, 0x09, 0x0A, 0x0B]

/-- A read of the configuration memory gives at most the image's bytes (R171). -/
def MemoryRead.wf : MemoryRead → Bool
  | .noAnswer => true
  | .bytes read => read.length ≤ imageLength

/-- A chair request with its code, tag and this many argument bytes fits a frame (R143). -/
def chairRequestFits (args : Nat) : Bool := 3 + args ≤ maxPayload

/-- A management request with this many data bytes fits a frame (R145). -/
def mgmtRequestFits (data : Nat) : Bool := 5 + data ≤ maxPayload

/-- The well-formed commands: payloads fit a frame, an unknown code is not one of the table's, a memory read is no
longer than the image, and a boundary's order names no entry twice. -/
def Instr.wf : Instr → Bool
  | .powerOn _ => true
  | .loadEnd read => read.wf
  | .cycleStart _ => true
  | .tableApplied order _ => decide order.Nodup
  | .slotEvent _ _ => true
  | .standStale _ => true
  | .statusDeadline _ => true
  | .linkDown _ => true
  | .linkUp _ => true
  | .loaderReady _ => true
  | .offerExpiry _ => true
  | .matchTimeout _ => true
  | .releaseTimeout _ => true
  | .presenceExpiry _ => true
  | .millisecondStep => true
  | .lineLevelChange _ _ => true
  | .lineSettle _ => true
  | .portLinkUp _ => true
  | .portLinkDown _ _ => true
  | .burstReceived _ _ => true
  | .command _ _ => true
  | .status _ _ _ => true
  | .present _ _ _ extra => chairRequestFits (1 + extra.length)
  | .leave _ _ extra => chairRequestFits extra.length
  | .take _ _ extra => chairRequestFits extra.length
  | .offer _ _ _ extra => chairRequestFits (1 + extra.length)
  | .accept _ _ _ extra => chairRequestFits (2 + extra.length)
  | .decline _ _ _ extra => chairRequestFits (2 + extra.length)
  | .cancel _ _ extra => chairRequestFits extra.length
  | .releaseAuto _ _ extra => chairRequestFits (1 + extra.length)
  | .releaseStand _ _ extra => chairRequestFits (1 + extra.length)
  | .recover _ _ extra => chairRequestFits extra.length
  | .stopLoader _ _ _ extra => chairRequestFits (2 + extra.length)
  | .stopZone _ _ _ extra => chairRequestFits (2 + extra.length)
  | .viewOn _ _ _ _ _ extra => chairRequestFits (4 + extra.length)
  | .viewOff _ _ extra => chairRequestFits extra.length
  | .lineAck _ _ _ extra => chairRequestFits (1 + extra.length)
  | .unknownChairRequest _ code _ args => !chairRequestCodes.contains code && chairRequestFits args.length
  | .mgmtRequest _ _ _ _ _ data => mgmtRequestFits data.length
  | .ident _ _ _ _ data => mgmtRequestFits data.length
  | .readEntry _ _ _ _ data => mgmtRequestFits data.length
  | .writeEntry _ _ _ _ data => mgmtRequestFits data.length
  | .readState _ _ _ _ data => mgmtRequestFits data.length
  | .readCounters _ _ _ _ data => mgmtRequestFits data.length
  | .freeze _ _ _ _ extra => mgmtRequestFits (1 + extra.length)
  | .unfreeze _ _ _ _ extra => mgmtRequestFits (1 + extra.length)
  | .clearAll _ _ _ _ extra => mgmtRequestFits (1 + extra.length)
  | .readLog _ _ _ _ data => mgmtRequestFits data.length
  | .attnClear _ _ _ _ data => mgmtRequestFits data.length
  | .mgmtLineAck _ _ _ _ data => mgmtRequestFits data.length
  | .resetAuthority _ _ _ _ data => mgmtRequestFits data.length
  | .authorityReset => true
  | .saveConfig _ _ _ _ data => mgmtRequestFits data.length
  | .saveEnd read => read.wf
  | .unknownOperation _ operation _ _ _ data => !operationCodes.contains operation && mgmtRequestFits data.length
  | .sPortTake => true
  | .sPortTransmissionEnd => true

end Sys2Proof
end

