-- ==== Sys2Proof/Machine/Operands.lean ====
section
/-! DEFINITION. The encodings: byte order, the check word, frames, payload fields and codes, table entries and the
configuration image (Chapter 8), and the sequence arithmetic of 00_scope.md. -/

namespace Sys2Proof.Machine

open Sys2Proof

/-! ## Bytes -/

/-- The more significant byte of a 16-bit field. -/
def hiByte (w : Word16) : Byte := (w >>> 8).setWidth 8

/-- The less significant byte of a 16-bit field. -/
def loByte (w : Word16) : Byte := w.setWidth 8

/-- A 16-bit field, most significant byte first (Chapter 8). -/
def bytes16 (w : Word16) : List Byte := [hiByte w, loByte w]

/-- A 16-bit field read from its two bytes. -/
def word16 (hi lo : Byte) : Word16 := (hi.setWidth 16 <<< 8) ||| lo.setWidth 16

/-- A 32-bit field, most significant byte first. -/
def bytes32 (w : Word32) : List Byte :=
  [(w >>> 24).setWidth 8, (w >>> 16).setWidth 8, (w >>> 8).setWidth 8, w.setWidth 8]

/-- A number as one byte. -/
def byteOf (n : Nat) : Byte := BitVec.ofNat 8 n

/-- A number as a 16-bit field. -/
def wordOf (n : Nat) : Word16 := BitVec.ofNat 16 n

/-- A mark as a byte 0x01 or 0x00. -/
def byteOfBool (b : Bool) : Byte := if b then 0x01 else 0x00

/-- A flags byte from its three lowest bits. -/
def flagBits (b0 b1 b2 : Bool) : Byte :=
  (if b0 then 1 else 0) ||| (if b1 then 2 else 0) ||| (if b2 then 4 else 0)

/-- An optional loader or chair number, 255 for none (00_scope.md). -/
def byteOfIndex {n : Nat} (x : Option (Fin n)) : Byte :=
  match x with
  | none => 0xFF
  | some i => byteOf i.val

/-- A number read as a member of a numbered family, if it lies in its range. -/
def indexOfByte (n : Nat) (b : Byte) : Option (Fin n) := if h : b.toNat < n then some ⟨b.toNat, h⟩ else none

/-- Membership of a bit set: bit n stands for member n (Chapter 8). -/
def inSet {w : Nat} (set : BitVec w) (n : Nat) : Bool := set.getLsbD n

/-- A station address is 0x0001-0xFFFE (00_scope.md, Stations). -/
def stationValid (w : Word16) : Bool := w != 0 && w != 0xFFFF

/-! ## Sequences -/

/-- Sequence b is newer than a when (b - a) modulo 65536 lies in 1-32767 (00_scope.md; R140). -/
def newer (b a : Word16) : Bool := 1 ≤ (b - a).toNat && (b - a).toNat ≤ 32767

/-- Newer than the last accepted sequence, or the first one (R56, R73). -/
def newerThanLast (b : Word16) (last : Option Word16) : Bool :=
  match last with
  | none => true
  | some a => newer b a

/-! ## The check word (R138) -/

/-- One bit of the check word computation. -/
def crcBit (r : Word16) (bit : Bool) : Word16 :=
  let shifted := r <<< 1
  if bit != r.msb then shifted ^^^ 0x1021 else shifted

/-- One byte, most significant bit first. -/
def crcByte (r : Word16) (b : Byte) : Word16 :=
  [7, 6, 5, 4, 3, 2, 1, 0].foldl (fun r i => crcBit r (b.getLsbD i)) r

/-- The check word over bytes in the order they are sent (R138). -/
def checkWord (bytes : List Byte) : Word16 := bytes.foldl crcByte 0xFFFF

/-! ## Frames (R137, R139) -/

/-- Kind codes (R139). -/
def kindCommand : Byte := 0x31
def kindStatus : Byte := 0x32
def kindChairRequest : Byte := 0x41
def kindNotice : Byte := 0x42
def kindMgmtRequest : Byte := 0x51
def kindMgmtResponse : Byte := 0x52

/-- The header and payload bytes of a frame (R139). -/
def frameBody (f : Frame) : List Byte :=
  [f.kind, f.header.flags] ++ bytes16 f.header.source ++ bytes16 f.header.destination
    ++ [f.header.loader, f.header.epoch] ++ bytes16 f.header.sequence ++ bytes16 (wordOf f.payload.length)
    ++ f.payload

/-- The burst of a frame on a link: start marker, header, payload, fresh check word (R137, R138). -/
def frameBurst (marker : Byte) (f : Frame) : List Byte :=
  [0xD5, marker] ++ frameBody f ++ bytes16 (checkWord (frameBody f))

/-- The burst a port puts on its link (R137). -/
def Outgoing.burst (o : Outgoing) : List Byte := frameBurst o.marker o.frame

/-- A payload length fits the kind (R137). -/
def payloadFits (kind : Byte) (n : Nat) : Bool :=
  if kind = kindCommand then n = 12
  else if kind = kindStatus then n = 20
  else if kind = kindChairRequest then 3 ≤ n
  else if kind = kindMgmtRequest then 5 ≤ n
  else true

/-- What the receive checks make of a burst (R150). -/
inductive Judged where
  | framingError
  | checkError
  | good (f : Frame)
  deriving DecidableEq, Repr

/-- The receive checks over what follows the start marker: framing first, then the check word (R137, R150). -/
def judgeBody (bytes : List Byte) : Judged :=
  match bytes with
  | kind :: flags :: s1 :: s0 :: d1 :: d0 :: loader :: epoch :: q1 :: q0 :: n1 :: n0 :: rest =>
    let n := (word16 n1 n0).toNat
    if n ≤ maxPayload && rest.length = n + 2 && payloadFits kind n then
      if checkWord bytes = 0 then
        .good ⟨kind, ⟨flags, word16 s1 s0, word16 d1 d0, loader, epoch, word16 q1 q0⟩, rest.take n⟩
      else .checkError
    else .framingError
  | _ => .framingError

/-- The receive checks over a whole burst with the frame type marker in force (R137, R150). -/
def judgeBurst (marker : Byte) (burst : List Byte) : Judged :=
  match burst with
  | m1 :: m2 :: rest => if m1 = 0xD5 ∧ m2 = marker then judgeBody rest else .framingError
  | _ => .framingError

/-! ## Codes of payload fields -/

/-- Gear codes (R141). -/
def Gear.code : Gear → Byte
  | .neutral => 0x00
  | .forward => 0x01
  | .reverse => 0x02

/-- An unknown gear code is taken as NEUTRAL (R72). -/
def Gear.ofCode (b : Byte) : Gear :=
  if b = 0x01 then .forward else if b = 0x02 then .reverse else .neutral

/-- Deadman codes (R141). -/
def deadmanCode (held : Bool) : Byte := if held then 0xA5 else 0x00

/-- Stand cause codes (R141). -/
def Cause.code : Cause → Byte
  | .start => 0x01
  | .disabled => 0x02
  | .stale => 0x03
  | .link => 0x04
  | .interlock => 0x05
  | .stop => 0x06
  | .operator => 0x07
  | .chairLost => 0x08
  | .releaseTimeout => 0x09
  | .reset => 0x0A

/-- Request codes (R142). -/
def Request.code : Request → Byte
  | .none => 0x00
  | .call => 0x01
  | .callUrgent => 0x02
  | .autoReady => 0x03
  | .fault => 0x04

/-- A request code that is none of the five enters as NONE (R110). -/
def Request.ofCode (b : Byte) : Request :=
  if b = 0x01 then .call else if b = 0x02 then .callUrgent else if b = 0x03 then .autoReady
  else if b = 0x04 then .fault else .none

/-- The mode code of AUTO (R142). -/
def modeAuto : Byte := 0x02

/-- The zone a zone byte gives: 0-7, and unknown for every other value (R108). -/
def zoneOfByte (b : Byte) : Option Zone := indexOfByte 8 b

/-- The byte of a zone, 15 for unknown (R146). -/
def byteOfZone (z : Option Zone) : Byte :=
  match z with
  | none => 15
  | some z => byteOf z.val

/-- A far-end count above 3 enters as 3 (R106). -/
def farEndOfByte (b : Byte) : Nat := min b.toNat 3

/-- Authority state codes (R142). -/
def AuthState.code : AuthState → Byte
  | .standing _ _ => 0x01
  | .free => 0x02
  | .calling _ => 0x03
  | .offered _ _ _ _ _ _ => 0x04
  | .matching _ _ _ _ _ => 0x05
  | .held _ => 0x06
  | .releasing _ => 0x07

/-- Chair state codes (R146). -/
def ChairStatus.code : ChairStatus → Byte
  | .absent => 0x00
  | .idle => 0x01
  | .offered => 0x02
  | .candidate => 0x03
  | .holding => 0x04

/-- Line state codes (R146). -/
def LineStatus.code : LineStatus → Byte
  | .active => 0x01
  | .clear => 0x02
  | .latched => 0x03

/-- Refusal reasons of byte 6 (R144). -/
inductive Reason where
  | notPresent
  | notPermitted
  | notInService
  | wrongState
  | notHolder
  | notOffered
  | late
  | targetAbsent
  | targetBusy
  | busy
  | causeActive
  | badArgument
  deriving DecidableEq, Repr

/-- Refusal reason codes (R144). -/
def Reason.code : Reason → Byte
  | .notPresent => 0x01
  | .notPermitted => 0x02
  | .notInService => 0x03
  | .wrongState => 0x04
  | .notHolder => 0x05
  | .notOffered => 0x06
  | .late => 0x07
  | .targetAbsent => 0x08
  | .targetBusy => 0x09
  | .busy => 0x0A
  | .causeActive => 0x0B
  | .badArgument => 0x0C

/-- Handover reasons of byte 6 (R144). -/
inductive Handover where
  | cancelled
  | expired
  | preempted
  | stand
  | callEnded
  | permit
  | transferred
  | taken
  | mismatch
  deriving DecidableEq, Repr

/-- Handover reason codes (R144). -/
def Handover.code : Handover → Byte
  | .cancelled => 0x21
  | .expired => 0x22
  | .preempted => 0x23
  | .stand => 0x24
  | .callEnded => 0x25
  | .permit => 0x26
  | .transferred => 0x27
  | .taken => 0x28
  | .mismatch => 0x29

/-- Notices (R144). -/
inductive NoticeName where
  | done
  | refused
  | offer
  | grant
  | lost
  | withdrawn
  | aborted
  | failed
  | stand
  | fault
  | event
  deriving DecidableEq, Repr

/-- Notice codes (R144). -/
def NoticeName.code : NoticeName → Byte
  | .done => 0x01
  | .refused => 0x02
  | .offer => 0x03
  | .grant => 0x04
  | .lost => 0x05
  | .withdrawn => 0x06
  | .aborted => 0x07
  | .failed => 0x08
  | .stand => 0x09
  | .fault => 0x0A
  | .event => 0x0B

/-- Event codes (R173). -/
def EventName.code : EventName → Fin 64
  | .callQueued => 1
  | .callWithdrawn => 2
  | .offerMade => 3
  | .offerEnded => 4
  | .granted => 5
  | .takeSupervisor => 6
  | .released => 7
  | .releaseDone => 8
  | .matchFailed => 9
  | .standStale => 10
  | .standLink => 11
  | .standInterlock => 12
  | .standStop => 13
  | .standOperator => 14
  | .standChairLost => 15
  | .standReleaseTimeout => 16
  | .standDisabled => 17
  | .loaderReady => 18
  | .recovered => 19
  | .chairPresent => 20
  | .chairAbsent => 21
  | .chairAvailable => 22
  | .chairUnavailable => 23
  | .linkDown => 24
  | .linkUp => 25
  | .linkDegraded => 26
  | .degradeCleared => 27
  | .loaderFault => 28
  | .zoneEntryBlocked => 29
  | .interlockActive => 30
  | .interlockCleared => 31
  | .interlockLatched => 32
  | .interlockAck => 33
  | .tableApplied => 34
  | .configBad => 35
  | .configSaved => 36
  | .configSaveFailed => 37
  | .authorityReset => 38
  | .noticeLost => 39
  | .forwardLost => 40
  | .ruleHit => 41
  | .counterWarning => 42
  | .portLinkUp => 43
  | .portLinkDown => 44

/-- The code of a counter: the group base plus its position (11.5). -/
def CounterId.code : CounterId → Word16
  | .loader _ k => wordOf (0x10 + k.val)
  | .chair _ k => wordOf (0x20 + k.val)
  | .device k => wordOf (0x30 + k.val)

/-! ## Received payloads -/

/-- The payload of a chair's COMMAND frame as bytes (R141). -/
def commandBytes (p : CommandPayload) : List Byte :=
  bytes16 p.throttle ++ bytes16 p.steer ++ bytes16 p.boom ++ bytes16 p.bucket ++ [p.gear, p.switches, p.deadman, p.cause]

/-- The COMMAND payload read from its 12 bytes (R141). -/
def commandOfBytes : List Byte → Option CommandPayload
  | [t1, t0, s1, s0, b1, b0, k1, k0, gear, switches, deadman, cause] =>
    some ⟨word16 t1 t0, word16 s1 s0, word16 b1 b0, word16 k1 k0, gear, switches, deadman, cause⟩
  | _ => none

/-- An axis value clamped to -2047..+2047, to the nearest end (R56, R72). -/
def clampAxis (x : Int) : Int := if x > 2047 then 2047 else if x < -2047 then -2047 else x

/-- A COMMAND payload read into a command (R72): axes clamped, unknown gear NEUTRAL, a deadman other than HELD
NOT_HELD, the switch set as sent, and the stand cause byte not read. -/
def readCommand (p : CommandPayload) (sequence : Word16) : Command where
  axes := ⟨clampAxis p.throttle.toInt, clampAxis p.steer.toInt, clampAxis p.boom.toInt, clampAxis p.bucket.toInt⟩
  gear := Gear.ofCode p.gear
  switches := p.switches
  held := p.deadman = 0xA5
  sequence := sequence

/-- The payload of a loader's STATUS frame as bytes (R142). -/
def statusBytes (p : StatusPayload) : List Byte :=
  [p.mode, p.request, p.zone, p.farEnd] ++ p.words.toList.flatMap bytes16

/-- The STATUS payload read from its 20 bytes (R142). -/
def statusOfBytes : List Byte → Option StatusPayload
  | [mode, request, zone, farEnd, a1, a0, b1, b0, c1, c0, d1, d0, e1, e0, f1, f0, g1, g0, h1, h0] =>
    some ⟨mode, request, zone, farEnd,
      #v[word16 a1 a0, word16 b1 b0, word16 c1 c0, word16 d1 d0, word16 e1 e0, word16 f1 f0, word16 g1 g0, word16 h1 h0]⟩
  | _ => none

/-! ## Table entries (R147) -/

/-- A signed axis limit as a 16-bit field. -/
def signed16 (x : Int) : Word16 := BitVec.ofInt 16 x

/-- The 18-byte DEVICE form. -/
def DeviceEntry.encode (e : DeviceEntry) : List Byte :=
  bytes16 e.station ++ [byteOf e.period, byteOf e.offerTimeout, byteOf e.matchTimeout, byteOf e.releaseTimeout,
    byteOf e.presenceTimeout, byteOf e.holdLimit, byteOf e.matchLength, byteOf e.matchCount, byteOf e.requestCount,
    byteOf e.linkDown, byteOf e.linkUp, byteOf e.degrade] ++ bytes16 (wordOf e.unknownGovernor)
    ++ [e.marker, byteOf e.requestLength]

/-- A value lies in a range, both ends included (00_scope.md, Numbers). -/
def within (lo hi n : Nat) : Bool := lo ≤ n && n ≤ hi

/-- The DEVICE ranges (R147, R162 check 4). -/
def DeviceEntry.valid (e : DeviceEntry) : Bool :=
  stationValid e.station && within 10 40 e.period && within 1 255 e.offerTimeout && within 1 255 e.matchTimeout
    && within 1 255 e.releaseTimeout && within 1 255 e.presenceTimeout && within 0 15 e.holdLimit
    && within 1 16 e.matchLength && within 1 e.matchLength e.matchCount && within 1 16 e.requestLength
    && within 1 e.requestLength e.requestCount && within 1 32 e.linkDown && within 1 32 e.linkUp
    && within 1 96 e.degrade && within 0 256 e.unknownGovernor && within 0x01 0xFE e.marker.toNat

/-- The DEVICE entry of 18 bytes; none where a value is outside its range. -/
def DeviceEntry.decode : List Byte → Option DeviceEntry
  | [s1, s0, period, offer, mtch, release, presence, hold, m, k, kr, down, up, degrade, g1, g0, marker, mr] =>
    let e : DeviceEntry := ⟨word16 s1 s0, period.toNat, offer.toNat, mtch.toNat, release.toNat, presence.toNat,
      hold.toNat, m.toNat, k.toNat, kr.toNat, down.toNat, up.toNat, degrade.toNat, (word16 g1 g0).toNat, marker,
      mr.toNat⟩
    if e.valid then some e else none
  | _ => none

/-- The 3-byte MGMT_STATIONS form. -/
def MgmtEntry.encode (e : MgmtEntry) : List Byte := [byteOfBool e.listed] ++ bytes16 e.station

/-- Every station is 0x0001-0xFFFE, listed or not (R162 check 4; log entry 14). -/
def MgmtEntry.valid (e : MgmtEntry) : Bool := stationValid e.station

def MgmtEntry.decode : List Byte → Option MgmtEntry
  | [flags, s1, s0] =>
    let e : MgmtEntry := ⟨flags.getLsbD 0, word16 s1 s0⟩
    if e.valid then some e else none
  | _ => none

/-- The 8-byte CHAIRS form. -/
def ChairEntry.encode (e : ChairEntry) : List Byte :=
  bytes16 e.station ++ [if e.supervisor then 0x02 else 0x01, flagBits e.enabled e.takesCalls false]
    ++ bytes16 e.permitted ++ bytes16 e.views

def ChairEntry.valid (e : ChairEntry) : Bool := stationValid e.station

def ChairEntry.decode : List Byte → Option ChairEntry
  | [s1, s0, role, flags, p1, p0, v1, v0] =>
    let e : ChairEntry :=
      ⟨word16 s1 s0, role = 0x02, flags.getLsbD 0, flags.getLsbD 1, word16 p1 p0, word16 v1 v0⟩
    if e.valid && (role = 0x01 || role = 0x02) then some e else none
  | _ => none

/-- The 8-byte axis record. -/
def AxisLimits.encode (a : AxisLimits) : List Byte :=
  bytes16 (signed16 a.lo) ++ bytes16 (signed16 a.hi) ++ bytes16 (wordOf a.step) ++ bytes16 (wordOf a.tol)

/-- lo in -2047..0, hi in 0..2047, s in 1-4095, tol in 0-4094 (R147, R162 check 4). -/
def AxisLimits.valid (a : AxisLimits) : Bool :=
  -2047 ≤ a.lo && a.lo ≤ 0 && 0 ≤ a.hi && a.hi ≤ 2047 && within 1 4095 a.step && within 0 4094 a.tol

def AxisLimits.decode : List Byte → AxisLimits
  | [l1, l0, h1, h0, s1, s0, t1, t0] =>
    ⟨(word16 l1 l0).toInt, (word16 h1 h0).toInt, (word16 s1 s0).toNat, (word16 t1 t0).toNat⟩
  | _ => .empty

def portCode : LevelPort → Byte
  | .a => 0x00
  | .b => 0x01

/-- The 38-byte LOADERS form. -/
def LoaderEntry.encode (e : LoaderEntry) : List Byte :=
  bytes16 e.station ++ [portCode e.port, byteOf e.slot.val, byteOfBool e.enabled, byteOf e.priority]
    ++ e.throttle.encode ++ e.steer.encode ++ e.boom.encode ++ e.bucket.encode

def LoaderEntry.valid (e : LoaderEntry) : Bool :=
  stationValid e.station && within 0 3 e.priority && e.throttle.valid && e.steer.valid && e.boom.valid && e.bucket.valid

def LoaderEntry.decode : List Byte → Option LoaderEntry
  | s1 :: s0 :: port :: slot :: flags :: priority :: axes =>
    if axes.length = 32 && (port = 0x00 || port = 0x01) then
      match indexOfByte 16 slot with
      | none => none
      | some slot =>
        let e : LoaderEntry := ⟨word16 s1 s0, if port = 0x01 then .b else .a, slot, flags.getLsbD 0, priority.toNat,
          AxisLimits.decode (axes.take 8), AxisLimits.decode ((axes.drop 8).take 8),
          AxisLimits.decode ((axes.drop 16).take 8), AxisLimits.decode (axes.drop 24)⟩
        if e.valid then some e else none
    else none
  | _ => none

/-- The 3-byte ZONES form. -/
def ZoneEntry.encode (e : ZoneEntry) : List Byte := bytes16 (wordOf e.governor) ++ [byteOfIndex e.beacon]

def ZoneEntry.valid (e : ZoneEntry) : Bool := within 0 256 e.governor

def ZoneEntry.decode : List Byte → Option ZoneEntry
  | [g1, g0, beacon] =>
    let e : ZoneEntry := ⟨(word16 g1 g0).toNat, indexOfByte 4 beacon⟩
    if e.valid && (beacon.toNat < 4 || beacon = 0xFF) then some e else none
  | _ => none

/-- The 3-byte LINES form. -/
def LineEntry.encode (e : LineEntry) : List Byte :=
  [flagBits e.enabled e.openIsActive e.latching, e.zones, byteOf e.debounce]

def LineEntry.valid (e : LineEntry) : Bool := within 1 255 e.debounce

def LineEntry.decode : List Byte → Option LineEntry
  | [flags, zones, debounce] =>
    let e : LineEntry := ⟨flags.getLsbD 0, flags.getLsbD 1, flags.getLsbD 2, zones, debounce.toNat⟩
    if e.valid then some e else none
  | _ => none

def RuleAction.code : RuleAction → Byte
  | .pass => 0x00
  | .drop => 0x01
  | .passLog => 0x02

def RuleAction.ofCode (b : Byte) : Option RuleAction :=
  if b = 0x00 then some .pass else if b = 0x01 then some .drop else if b = 0x02 then some .passLog else none

/-- The 14-byte RULES form. -/
def RuleEntry.encode (e : RuleEntry) : List Byte :=
  [byteOfBool e.inUse, e.kind, e.kindMask, e.flags, e.flagsMask] ++ bytes16 e.source ++ bytes16 e.sourceMask
    ++ [e.loader, e.loaderMask, e.code, e.codeMask, e.action.code]

def RuleEntry.decode : List Byte → Option RuleEntry
  | [inUse, kind, kindMask, flags, flagsMask, s1, s0, m1, m0, loader, loaderMask, code, codeMask, action] =>
    match RuleAction.ofCode action with
    | none => none
    | some a => some ⟨inUse.getLsbD 0, kind, kindMask, flags, flagsMask, word16 s1 s0, word16 m1 m0, loader, loaderMask,
        code, codeMask, a⟩
  | _ => none

/-- The 1-byte EVENT_MAP form. -/
def EventEntry.encode (e : EventEntry) : List Byte := [flagBits e.log e.attn e.notify]

def EventEntry.decode : List Byte → Option EventEntry
  | [flags] => some ⟨flags.getLsbD 0, flags.getLsbD 1, flags.getLsbD 2⟩
  | _ => none

/-! ## The configuration image (R148) -/

/-- The image code and the body length. -/
def imageCode : Word16 := 0xD416
def imageBody : Word16 := 1032

/-- Bytes 4 to 1035 of the image: every entry in the order of R148. -/
def Tables.encode (t : Tables) : List Byte :=
  t.device.encode ++ t.mgmt.toList.flatMap MgmtEntry.encode ++ t.chairs.toList.flatMap ChairEntry.encode
    ++ t.loaders.toList.flatMap LoaderEntry.encode ++ t.zones.toList.flatMap ZoneEntry.encode
    ++ t.lines.toList.flatMap LineEntry.encode ++ t.rules.toList.flatMap RuleEntry.encode
    ++ t.events.toList.flatMap EventEntry.encode

/-- The configuration image of the tables, with a fresh check word (R148). -/
def Tables.image (t : Tables) : List Byte :=
  let covered := bytes16 imageCode ++ bytes16 imageBody ++ t.encode
  covered ++ bytes16 (checkWord covered)

/-- n entries of a given size, decoded one after another; none when one of them is not good. -/
def decodeEntries {α : Type} (size : Nat) (decode : List Byte → Option α) : Nat → List Byte → Option (List α)
  | 0, _ => some []
  | n + 1, bytes =>
    match decode (bytes.take size) with
    | none => none
    | some e =>
      match decodeEntries size decode n (bytes.drop size) with
      | none => none
      | some es => some (e :: es)

/-- A fixed family from a list of that length. -/
def familyOf {α : Type} (n : Nat) (xs : List α) : Option (Vector α n) :=
  if h : xs.length = n then some ⟨⟨xs⟩, by simpa using h⟩ else none

/-- The n entries of one table from the image, starting at a byte position. -/
def imageTable {α : Type} (image : List Byte) (at_ size n : Nat) (decode : List Byte → Option α) :
    Option (Vector α n) :=
  match decodeEntries size decode n (image.drop at_) with
  | none => none
  | some es => familyOf n es

/-- Two enabled loaders have one level port and slot (R148, R163). -/
def LoaderEntry.clashes (a b : LoaderEntry) : Bool := a.enabled && b.enabled && a.port = b.port && a.slot = b.slot

/-- No two entries of enabled loaders give the same port and slot (R148). -/
def loadersDistinct (loaders : Vector LoaderEntry 16) : Bool :=
  allLoaders.all fun i => allLoaders.all fun j => i = j || !(loaders[i].clashes loaders[j])

/-- The tables of an image whose entries all pass the value checks and do not clash (R148). -/
def Tables.ofImage (image : List Byte) : Option Tables :=
  match DeviceEntry.decode ((image.drop 4).take 18), imageTable image 22 3 2 MgmtEntry.decode,
    imageTable image 28 8 8 ChairEntry.decode, imageTable image 92 38 16 LoaderEntry.decode,
    imageTable image 700 3 8 ZoneEntry.decode, imageTable image 724 3 8 LineEntry.decode,
    imageTable image 748 14 16 RuleEntry.decode, imageTable image 972 1 64 EventEntry.decode with
  | some device, some mgmt, some chairs, some loaders, some zones, some lines, some rules, some events =>
    if loadersDistinct loaders then some ⟨device, mgmt, chairs, loaders, zones, lines, rules, events⟩ else none
  | _, _, _, _, _, _, _, _ => none

/-- What the Configuration Loader makes of what the memory answered: the tables of a good image, or the reason of
CONFIG_BAD, judged in the order of R171's list (log entry 15). -/
def judgeImage : MemoryRead → Tables ⊕ Nat
  | .noAnswer => .inr 1
  | .bytes read =>
    let image := read.take imageLength
    if image.length < imageLength then .inr 1
    else if image.take 4 ≠ bytes16 imageCode ++ bytes16 imageBody then .inr 2
    else if checkWord image ≠ 0 then .inr 3
    else
      match Tables.ofImage image with
      | some t => .inl t
      | none => .inr 4

/-- The position of the first byte of a read-back that differs from what was written; none when all are equal. A
read-back that ends early is `some 0xFFFF` there: the memory did not answer (R172; log entry 16). -/
def firstDifference : List Byte → List Byte → Nat → Option Nat
  | [], _, _ => none
  | _ :: _, [], _ => some 0xFFFF
  | w :: ws, r :: rs, at_ => if w = r then firstDifference ws rs (at_ + 1) else some at_

end Sys2Proof.Machine
end

