-- ==== Sys2Proof/Machine/Flags.lean ====
section
/-! DEFINITION. The flags and conditions other rules read: the five flags of a command frame (R84), the link byte of the
trailer (R142), the stand conditions and the interlocked test (R7, R109), the beacon conditions (R135), the warning flag
(R180), and the accessors of an authority record's optional fields (R1, R2). -/

namespace Sys2Proof.Machine

open Sys2Proof

/-! ## Optional fields of an authority record (R1, R2) -/

/-- The holder, present or retained. -/
def AuthState.holder : AuthState → Option Chair
  | .standing retained _ => retained
  | .offered holder _ _ _ _ _ => holder
  | .matching holder _ _ _ _ => holder
  | .held holder => some holder
  | .free => none
  | .calling _ => none
  | .releasing _ => none

/-- The offered chair. -/
def AuthState.offeredChair : AuthState → Option Chair
  | .offered _ chair _ _ _ _ => some chair
  | _ => none

/-- The candidate. -/
def AuthState.candidate : AuthState → Option Chair
  | .matching _ candidate _ _ _ => some candidate
  | _ => none

/-- The offerer. -/
def AuthState.offerer : AuthState → Option Chair
  | .offered _ _ _ _ offerer _ => offerer
  | .matching _ _ _ offerer _ => offerer
  | _ => none

/-- The origin of a handover. -/
def AuthState.origin : AuthState → Option Origin
  | .offered _ _ origin _ _ _ => some origin
  | .matching _ _ origin _ _ => some origin
  | _ => none

/-- The call stamp: of a CALLING loader, or kept with origin CALL. -/
def AuthState.stamp : AuthState → Option Word32
  | .calling stamp => some stamp
  | s =>
    match s.origin with
    | some (.call stamp) => some stamp
    | _ => none

/-- The offer number. -/
def AuthState.number : AuthState → Option Word16
  | .offered _ _ _ number _ _ => some number
  | _ => none

/-- The recorded stand cause. -/
def AuthState.cause : AuthState → Option Cause
  | .standing _ cause => some cause
  | _ => none

/-- The offer, match or release timer. -/
def AuthState.timer : AuthState → Option Nat
  | .offered _ _ _ _ _ timer => some timer
  | .matching _ _ _ _ timer => some timer
  | .releasing timer => some timer
  | _ => none

/-- The loader is STANDING. -/
def AuthState.isStanding : AuthState → Bool
  | .standing _ _ => true
  | _ => false

/-- A chair drives the loader: HELD, or OFFERED or MATCHING with a holder (R4, R135). -/
def AuthState.driven (s : AuthState) : Bool := !s.isStanding && s.holder.isSome

/-- The stand causes that keep a holder as retained holder (R8). -/
def Cause.retains : Cause → Bool
  | .stale => true
  | .link => true
  | .interlock => true
  | .stop => true
  | _ => false

/-! ## Requests -/

/-- A call is an accepted request of CALL or CALL_URGENT (2.5). -/
def Request.isCall (r : Request) : Bool := r = .call || r = .callUrgent

/-! ## Lines and stand conditions -/

/-- The settled level asserts the line (R125). -/
def LineEntry.asserts (e : LineEntry) (l : Level) : Bool := l = e.assertedLevel

/-- An enabled line that is ACTIVE or LATCHED counts as active (R125, R127). -/
def State.lineCounts (s : State) (i : Line) : Bool := s.tables.lines[i].enabled && s.lines[i].status ≠ .clear

/-- A zone, or the unknown zone, is interlocked (R7, R109). -/
def State.zoneInterlocked (s : State) (z : Option Zone) : Bool :=
  allLines.any fun i => s.lineCounts i &&
    match z with
    | some z => inSet s.tables.lines[i].zones z.val
    | none => true

/-- A stand condition holds for the loader (R7). -/
def State.standCondition (s : State) (l : Loader) : Bool :=
  !s.status[l].linkUp || s.zoneInterlocked s.status[l].zone

/-! ## Flags of a command frame (R84, R141) -/

/-- The five flags of a command frame: STAND, NO_OPERATOR, RETURN_AUTO, LINK_ALARM, HOLD in bits 0-4. -/
def commandFlags (stand noOperator returnAuto linkAlarm hold : Bool) : Byte :=
  flagBits stand noOperator returnAuto ||| (if linkAlarm then 8 else 0) ||| (if hold then 16 else 0)

/-- The link byte of the trailer and of READ_STATE (R142): bit 0 UP, bit 1 DEGRADED. -/
def LoaderStatus.linkByte (st : LoaderStatus) : Byte := flagBits st.linkUp st.degraded false

/-! ## Beacons (R135) -/

/-- Beacon line n is to be on: a driven loader's current zone names it. -/
def State.beaconOn (s : State) (n : Beacon) : Bool :=
  allLoaders.any fun l => s.auth[l].state.driven &&
    match s.status[l].zone with
    | some z => s.tables.zones[z].beacon = some n
    | none => false

/-! ## The warning flag (R180) -/

/-- The value from which a counter sets the warning flag. -/
def warningLevel : Nat := 32768

/-- Some counter holds 32768 or more. -/
def Report.anyHigh (r : Report) : Bool :=
  r.loaderCounts.toList.any (fun g => g.toList.any (warningLevel ≤ ·))
    || r.chairCounts.toList.any (fun g => g.toList.any (warningLevel ≤ ·))
    || r.deviceCounts.toList.any (warningLevel ≤ ·)

end Sys2Proof.Machine
end

