-- ==== Sys2Proof/Machine/Ops.lean ====
section
/-! DEFINITION. The shared operations: counting, raising events and sending notices (Chapters 8 and 11), the Chair Table's
and the Free Chair List's moves (Chapter 2), the Call Queue, the epoch, offers, returns and stands of the Authority Table
(Chapter 1), the Chair Arbiter's walk (R52-R54), and the end of every event (walk and beacons).

Reporting writes `State.rep` alone: a notice, an event or a count changes nothing else. -/

namespace Sys2Proof.Machine

open Sys2Proof

/-! ## Counters (R178-R180) -/

def cmdSent : Fin 8 := 0
def standSent : Fin 8 := 1
def holdSlots : Fin 8 := 2
def statusGood : Fin 8 := 3
def statusMissed : Fin 8 := 4
def farEndErrors : Fin 8 := 5
def grants : Fin 8 := 6
def staleEpoch : Fin 8 := 7
def framesAccepted : Fin 6 := 0
def notHolder : Fin 6 := 1
def oldSeq : Fin 6 := 2
def offersMissed : Fin 6 := 3
def matchFails : Fin 6 := 4
def requestsRefused : Fin 6 := 5
def framingErrors : Port → Fin 14
  | .surface => 0
  | .levelA => 2
  | .levelB => 4
def checkErrors : Port → Fin 14
  | .surface => 1
  | .levelA => 3
  | .levelB => 5
def wrongPort : Fin 14 := 6
def unknownSource : Fin 14 := 7
def mgmtDenied : Fin 14 := 8
def ruleDrops : Fin 14 := 9
def noticeLost : Fin 14 := 10
def fwdLost : Fin 14 := 11
def mgmtDrops : Fin 14 := 12
def logLost : Fin 14 := 13

/-- A counter's value. -/
def Report.counter (r : Report) : CounterId → Nat
  | .loader l k => r.loaderCounts[l][k]
  | .chair c k => r.chairCounts[c][k]
  | .device k => r.deviceCounts[k]

/-- A counter set to a value. -/
def Report.setCounter (r : Report) (id : CounterId) (v : Nat) : Report :=
  match id with
  | .loader l k => { r with loaderCounts := putAt r.loaderCounts l (putAt r.loaderCounts[l] k v) }
  | .chair c k => { r with chairCounts := putAt r.chairCounts c (putAt r.chairCounts[c] k v) }
  | .device k => { r with deviceCounts := putAt r.deviceCounts k v }

/-- A count recorded without looking at the warning flag: saturating, and not at all while FROZEN (R178, R179). -/
def Report.bump (r : Report) (id : CounterId) (n : Nat) : Report :=
  if r.frozen then r else r.setCounter id (min 65535 (r.counter id + n))

/-! ## Notices (R140, R144, R157) -/

/-- The fields of a notice (R144); a field a code does not name carries 0, or 255 for the loader and chair. -/
structure Notice where
  name : NoticeName
  tag : Word16 := 0
  loader : Option Loader := none
  chair : Option Chair := none
  epoch : Byte := 0
  byte6 : Byte := 0
  number : Word16 := 0
  cycles : Nat := 0
  detail : Word16 := 0
  deriving DecidableEq, Repr

/-- The NOTICE frame of a notice to a chair, with its notice sequence (R144). -/
def noticeFrame (s : State) (c : Chair) (n : Notice) (sequence : Word16) : Frame where
  kind := kindNotice
  header := ⟨0, s.tables.device.station, s.tables.chairs[c].station, byteOfIndex n.loader, n.epoch, sequence⟩
  payload := [n.name.code] ++ bytes16 n.tag ++ [byteOfIndex n.loader, byteOfIndex n.chair, n.epoch, n.byte6]
    ++ bytes16 n.number ++ [byteOf n.cycles] ++ bytes16 n.detail ++ bytes32 s.timer.number

/-- The Notice Queue's capacity (R157). -/
def noticeCapacity : Nat := 32

/-- The notice takes the next number of the chair's notice sequence whether or not the queue has room (R140, R157). -/
def Report.takeNumber (r : Report) (c : Chair) : Report :=
  { r with noticeSeq := putAt r.noticeSeq c (r.noticeSeq[c] + 1) }

/-- A notice placed on the Notice Queue, its number taken. -/
def Report.place (r : Report) (s : State) (c : Chair) (n : Notice) : Report :=
  { r with notices := r.notices ++ [noticeFrame s c n r.noticeSeq[c]] }

/-- An EVENT notice offered to the queue; one that finds it full is counted by `cnt` with no further event (R157, R177). -/
def Report.offerEventNotice (cnt : CounterId → Report → Report) (s : State) (c : Chair) (n : Notice) (r : Report) :
    Report :=
  let r := r.takeNumber c
  if r.notices.length < noticeCapacity then r.place s c n else cnt (.device noticeLost) r

/-! ## Events (R173-R177) -/

/-- The Event Log's capacity (R174). -/
def logCapacity : Nat := 128

/-- The event map's entry for an event, as it stands (R173). -/
def State.eventEntry (s : State) (e : Event) : EventEntry := s.tables.events[e.name.code]

/-- The event recorded in the log, or dropped with the overflow flag set and LOG_LOST counted (R174). -/
def Report.record (cnt : CounterId → Report → Report) (s : State) (e : Event) (r : Report) : Report :=
  if r.log.length < logCapacity then { r with log := r.log ++ [⟨s.timer.number, s.timer.position, e⟩] }
  else cnt (.device logLost) { r with overflow := true }

/-- The chair is present and its applied role is SUPERVISOR (R177). -/
def State.presentSupervisor (s : State) (c : Chair) : Bool :=
  s.chairs[c].status ≠ .absent && s.tables.chairs[c].supervisor

/-- The EVENT notice of an event (R144). -/
def eventNotice (e : Event) : Notice :=
  { name := .event, loader := e.loader, chair := e.chair, byte6 := byteOf e.name.code.val, detail := e.detail }

/-- One EVENT notice to each present supervisor chair, in ascending chair number (R177). -/
def Report.notifyAll (cnt : CounterId → Report → Report) (s : State) (e : Event) (r : Report) : Report :=
  allChairs.foldl (fun r c => if s.presentSupervisor c then r.offerEventNotice cnt s c (eventNotice e) else r) r

/-- An event acted on by its map entry's three flags (R173): ATTN, log, notices. `cnt` counts what is lost. -/
def Report.raiseWith (cnt : CounterId → Report → Report) (s : State) (e : Event) (r : Report) : Report :=
  let m := s.eventEntry e
  let r := if m.attn then { r with attn := true } else r
  let r := if m.log then r.record cnt s e else r
  if m.notify then r.notifyAll cnt s e else r

/-- The loader or chair a counter counts for (R180). -/
def CounterId.warning (id : CounterId) : Event :=
  match id with
  | .loader l _ => ⟨.counterWarning, some l, none, id.code⟩
  | .chair c _ => ⟨.counterWarning, none, some c, id.code⟩
  | .device _ => ⟨.counterWarning, none, none, id.code⟩

/-- A count (R178-R180). The first counter to reach 32768 while the flag is clear sets it and raises COUNTER_WARNING;
what that event loses is counted with the flag already set, so it raises no second one. -/
def Report.count (s : State) (id : CounterId) (n : Nat) (r : Report) : Report :=
  let r' := r.bump id n
  if !r.warning && !r.frozen && warningLevel ≤ r'.counter id then
    Report.raiseWith (fun id r => r.bump id 1) s id.warning { r' with warning := true }
  else r'

/-- An event raised (R173). -/
def Report.raise (s : State) (e : Event) (r : Report) : Report :=
  r.raiseWith (fun id r => r.count s id 1) s e

/-- A notice other than EVENT sent to a chair (R140, R157): one that finds the queue full is dropped and counted, and
NOTICE_LOST is raised. -/
def Report.notice (s : State) (c : Chair) (n : Notice) (r : Report) : Report :=
  let r := r.takeNumber c
  if r.notices.length < noticeCapacity then r.place s c n
  else (r.count s (.device noticeLost) 1).raise s ⟨.noticeLost, n.loader, some c, n.name.code.setWidth 16⟩

/-- One count. -/
def State.count (s : State) (id : CounterId) (n : Nat := 1) : State := { s with rep := s.rep.count s id n }

/-- One event. -/
def State.raise (s : State) (name : EventName) (loader : Option Loader := none) (chair : Option Chair := none)
    (detail : Word16 := 0) : State :=
  { s with rep := s.rep.raise s ⟨name, loader, chair, detail⟩ }

/-- One notice. -/
def State.notice (s : State) (c : Chair) (n : Notice) : State := { s with rep := s.rep.notice s c n }

/-- An optional notice: to a chair that is there and present. -/
def State.noticeIfPresent (s : State) (c : Option Chair) (n : Chair → Notice) : State :=
  match c with
  | none => s
  | some c => if s.chairs[c].status = .absent then s else s.notice c (n c)

/-! ## Records -/

/-- The authority state of a loader replaced, its epoch kept. -/
def State.setAuth (s : State) (l : Loader) (a : AuthState) : State :=
  { s with auth := putAt s.auth l { s.auth[l] with state := a } }

/-- A chair's record replaced. -/
def State.setChair (s : State) (c : Chair) (r : ChairState) : State := { s with chairs := putAt s.chairs c r }

/-- The Command Builder's state of a loader replaced. -/
def State.setBuilder (s : State) (l : Loader) (b : Builder) : State := { s with builders := putAt s.builders l b }

/-- The Status Unit's state of a loader replaced. -/
def State.setStatus (s : State) (l : Loader) (st : LoaderStatus) : State := { s with status := putAt s.status l st }

/-- The match window of a loader replaced. -/
def State.setWindow (s : State) (l : Loader) (w : List Bool) : State := { s with windows := putAt s.windows l w }

/-- A line's record replaced. -/
def State.setLine (s : State) (i : Line) (x : LineState) : State := { s with lines := putAt s.lines i x }

/-- The loader is enabled in the applied Loaders table. -/
def State.enabled (s : State) (l : Loader) : Bool := s.tables.loaders[l].enabled

/-- The loader is in the chair's permitted set. -/
def State.permits (s : State) (c : Chair) (l : Loader) : Bool := inSet s.tables.chairs[c].permitted l.val

/-! ## The Free Chair List (R44, R45) -/

/-- The arbiter will walk at the end of the event (R52). -/
def State.callWalk (s : State) : State := { s with walkCalled := true }

/-- The chair leaves the list, from whatever position it holds (R45). -/
def State.leaveList (s : State) (c : Chair) : State := { s with freeList := s.freeList.filter (· ≠ c) }

/-- The chair joins the tail of the list, its idle-since becomes the current cycle number, and the arbiter is called
(R45). -/
def State.joinList (s : State) (c : Chair) : State :=
  { s with
    freeList := s.freeList.filter (· ≠ c) ++ [c]
    chairs := putAt s.chairs c { s.chairs[c] with idleSince := s.timer.number }
    walkCalled := true }

/-- The chair takes a place in the loader's record and leaves the list (R3, R34, R45). -/
def State.engage (s : State) (c : Chair) (st : ChairStatus) (l : Loader) : State :=
  (s.setChair c { s.chairs[c] with status := st, engaged := some l }).leaveList c

/-- The chair leaves its place (R3): it becomes IDLE unless it has gone ABSENT, and joins the list if it is available. -/
def State.release (s : State) (c : Chair) : State :=
  if s.chairs[c].status = .absent then s.setChair c { s.chairs[c] with engaged := none }
  else
    let s := s.setChair c { s.chairs[c] with status := .idle, engaged := none }
    if s.chairs[c].available then s.joinList c else s

/-- An optional chair leaves its place. -/
def State.releaseOpt (s : State) (c : Option Chair) : State :=
  match c with
  | none => s
  | some c => s.release c

/-! ## The Call Queue (R46-R49) -/

/-- The class of a call: 0 for CALL_URGENT, else the loader's class in the applied Loaders table (R46). -/
def State.callClass (s : State) (l : Loader) : Nat :=
  if s.status[l].accepted = .callUrgent then 0 else s.tables.loaders[l].priority

/-- The age of a stamp: the current cycle number minus it, modulo 2^32 (R46). -/
def callAge (now stamp : Word32) : Nat := (now - stamp).toNat

/-- Entry a is ahead of entry b: class lowest first, then age greatest first, then loader number (R46). -/
def CallEntry.before (now : Word32) (a b : CallEntry) : Bool :=
  a.cls < b.cls || a.cls = b.cls &&
    (callAge now b.stamp < callAge now a.stamp || callAge now a.stamp = callAge now b.stamp && a.loader.val < b.loader.val)

/-- An entry put in the position its class, stamp and number give (R46, R47). -/
def insertCall (now : Word32) (e : CallEntry) : List CallEntry → List CallEntry
  | [] => [e]
  | f :: q => if e.before now f then e :: f :: q else f :: insertCall now e q

/-- The loader's entry removed, the entries behind it moving up (R49). -/
def State.dequeue (s : State) (l : Loader) : State := { s with callQueue := s.callQueue.filter (·.loader ≠ l) }

/-- The loader's entry put where its class and stamp give, its class worked out afresh (R47, R48). -/
def State.enqueue (s : State) (l : Loader) (stamp : Word32) : State :=
  { s with callQueue := insertCall s.timer.number ⟨l, s.callClass l, stamp⟩ (s.callQueue.filter (·.loader ≠ l)) }

/-- Details of CALL_QUEUED (R173). -/
def callNew : Word16 := 1
def callRequeued : Word16 := 2

/-- The loader enters CALLING and the queue, and the arbiter is called (R47). -/
def State.enterCalling (s : State) (l : Loader) (stamp : Word32) (detail : Word16) : State :=
  (((s.setAuth l (.calling stamp)).enqueue l stamp).callWalk).raise .callQueued (some l) none detail

/-- Entry into FREE: a loader whose accepted request is a call goes on to CALLING with a new stamp (R11). -/
def State.enterFree (s : State) (l : Loader) : State :=
  let s := s.setAuth l .free
  if s.status[l].accepted.isCall then s.enterCalling l s.timer.number callNew else s

/-- The class of a queued loader is worked out again and its entry moves, the stamp kept; no walk (R48). -/
def State.resort (s : State) (l : Loader) : State :=
  match s.auth[l].state with
  | .calling stamp => s.enqueue l stamp
  | _ => s

/-! ## The epoch (R5) -/

/-- Both mailboxes emptied, the stale count set to 0 (R5, R57, R75). -/
def Builder.emptied (b : Builder) : Builder :=
  { b with holder := none, fresh := false, lastSeq := none, stale := 0, cand := none, lastCand := none }

/-- The candidate mailbox emptied and the last candidate sequence made absent (R57). -/
def Builder.candEmptied (b : Builder) : Builder := { b with cand := none, lastCand := none }

/-- The epoch advances by one modulo 256, and both mailboxes are emptied (R5). -/
def State.advanceEpoch (s : State) (l : Loader) : State :=
  { s with
    auth := putAt s.auth l { s.auth[l] with epoch := s.auth[l].epoch + 1 }
    builders := putAt s.builders l s.builders[l].emptied }

/-- What the Match Unit and the Command Builder hold of a candidate is cleared (R57, R61, R68). -/
def State.clearMatch (s : State) (l : Loader) : State :=
  (s.setWindow l []).setBuilder l s.builders[l].candEmptied

/-! ## Offers (R14, R19, R20) -/

/-- The ways an offer ends (R173, OFFER_ENDED). -/
inductive OfferEnd where
  | declined
  | expired
  | cancelled
  | chairAbsent
  | stand
  | preempted
  | callEnded
  | permit
  deriving DecidableEq, Repr

/-- Details of OFFER_ENDED (R173). -/
def OfferEnd.detail : OfferEnd → Word16
  | .declined => 1
  | .expired => 2
  | .cancelled => 3
  | .chairAbsent => 4
  | .stand => 5
  | .preempted => 6
  | .callEnded => 7
  | .permit => 8

/-- The origin an offer gives the record: the stamp of a CALLING loader is kept (R14). -/
def AuthState.offerOrigin : AuthState → Origin
  | .calling stamp => .call stamp
  | _ => .direct

/-- Making an offer of loader l to chair c (R14). -/
def State.makeOffer (s : State) (l : Loader) (c : Chair) (offerer : Option Chair) : State :=
  let a := s.auth[l].state
  let number := s.offerCounter + 1
  let timer := s.tables.device.offerTimeout
  let s := { s with offerCounter := number }
  let s := (s.dequeue l).setAuth l (.offered a.holder c a.offerOrigin number offerer timer)
  let s := s.engage c .offered l
  let s := s.notice c { name := .offer, loader := some l, chair := a.holder, epoch := s.auth[l].epoch + 1,
                        number := number, cycles := timer }
  s.raise .offerMade (some l) (some c) number

/-- The chair's part of an offer's end: its last ended offer is recorded and it leaves its place (R19). -/
def State.offerGone (s : State) (c : Chair) (number : Word16) : State :=
  (s.setChair c { s.chairs[c] with lastEnded := some number }).release c

/-- An offer ends (R19): the chair's part, then the loader goes where the ending rule sends it (`go`), OFFER_ENDED is raised and
the arbiter is called. -/
def State.endOffer (s : State) (l : Loader) (c : Chair) (number : Word16) (way : OfferEnd) (go : State → State) : State :=
  ((go (s.offerGone c number)).raise .offerEnded (some l) (some c) way.detail).callWalk

/-- WITHDRAWN to an offered chair (R144). -/
def State.withdrawn (s : State) (l : Loader) (c : Chair) (number : Word16) (why : Handover) : State :=
  s.notice c { name := .withdrawn, loader := some l, chair := some c, epoch := s.auth[l].epoch, byte6 := why.code,
               number := number }

/-- ABORTED to a candidate (R144). -/
def State.aborted (s : State) (l : Loader) (c : Chair) (why : Handover) : State :=
  s.notice c { name := .aborted, loader := some l, chair := some c, epoch := s.auth[l].epoch, byte6 := why.code }

/-- A matching ends without a grant: window, candidate mailbox and last candidate sequence cleared, the candidate leaves
its place (R68). -/
def State.endMatching (s : State) (l : Loader) (c : Chair) : State := (s.clearMatch l).release c

/-- The loader returns after a handover without a grant (R20): to its holder, to the Call Queue with its kept stamp, or
to FREE. -/
def State.returnLoader (s : State) (l : Loader) : State :=
  let a := s.auth[l].state
  match a.holder with
  | some h => s.setAuth l (.held h)
  | none =>
    match a.origin with
    | some (.call stamp) =>
      if s.status[l].accepted.isCall then s.enterCalling l stamp callRequeued else s.enterFree l
    | _ => s.enterFree l

/-- The loader enters MATCHING with the given candidate: match timer loaded, window, candidate mailbox and last candidate
sequence emptied (R16, R22, R24, R27). -/
def State.beginMatching (s : State) (l : Loader) (holder : Option Chair) (c : Chair) (origin : Origin)
    (offerer : Option Chair) : State :=
  let s := s.setAuth l (.matching holder c origin offerer s.tables.device.matchTimeout)
  (s.clearMatch l).engage c .candidate l

/-! ## Standing (R8, R9) -/

/-- The event of a stand cause (R8); START and RESET raise none. -/
def Cause.event : Cause → Option EventName
  | .start => none
  | .disabled => some .standDisabled
  | .stale => some .standStale
  | .link => some .standLink
  | .interlock => some .standInterlock
  | .stop => some .standStop
  | .operator => some .standOperator
  | .chairLost => some .standChairLost
  | .releaseTimeout => some .standReleaseTimeout
  | .reset => none

/-- The STAND notice to a holder (R144). -/
def standNotice (l : Loader) (cause : Cause) (epoch : Byte) (c : Chair) : Notice :=
  { name := .stand, loader := some l, chair := some c, epoch := epoch, byte6 := cause.code }

/-- The STAND notice to the holder, if it is there and present, and the event for the cause with the epoch now current
(R8 part 6, R9). -/
def State.reportStand (s : State) (l : Loader) (holder : Option Chair) (cause : Cause) : State :=
  let epoch := s.auth[l].epoch
  let s := s.noticeIfPresent holder (standNotice l cause epoch)
  match cause.event with
  | none => s
  | some name => s.raise name (some l) holder (epoch.setWidth 16)

/-- R8 part 1: a cause that does not retain the holder removes it, with the epoch advanced and the chair IDLE. -/
def State.standHolder (s : State) (l : Loader) (cause : Cause) : State :=
  match s.auth[l].state.holder with
  | none => s
  | some h => if cause.retains then s else (s.advanceEpoch l).release h

/-- R8 parts 2 to 4: an offered chair and a candidate are released, a CALLING loader leaves the Call Queue. An offer ends
whole in part 2, so OFFER_ENDED comes ahead of the event of part 6 (log entry 7). -/
def State.standParties (s : State) (l : Loader) : State :=
  match s.auth[l].state with
  | .offered _ c _ number _ _ => (s.withdrawn l c number .stand).endOffer l c number .stand id
  | .matching _ c _ _ _ => (s.aborted l c .stand).endMatching l c
  | .calling _ => s.dequeue l
  | _ => s

/-- Entry into STANDING, from any other state (R8). -/
def State.standEntry (s : State) (l : Loader) (cause : Cause) : State :=
  let holder := s.auth[l].state.holder
  let s := (s.standHolder l cause).standParties l
  let s := s.setAuth l (.standing (if cause.retains then holder else none) cause)
  s.reportStand l holder cause

/-- Whether a cause that reaches a STANDING loader becomes its cause (R9). -/
def Cause.replaces (new recorded : Cause) : Bool :=
  match recorded with
  | .disabled => false
  | .start => new = .stop
  | .reset => new = .stop
  | _ => (new = .link || new = .interlock || new = .stop) && new ≠ recorded

/-- A stand cause reaches a loader: R8 outside STANDING, R9 in it. -/
def State.stand (s : State) (l : Loader) (cause : Cause) : State :=
  match s.auth[l].state with
  | .standing retained recorded =>
    if cause.replaces recorded then (s.setAuth l (.standing retained cause)).reportStand l retained cause else s
  | _ => s.standEntry l cause

/-- A retained holder is dropped: the epoch advances, the stand cause stays, the chair leaves its place (R5, R9). -/
def State.dropRetained (s : State) (l : Loader) : State :=
  match s.auth[l].state with
  | .standing (some h) cause => ((s.advanceEpoch l).setAuth l (.standing none cause)).release h
  | _ => s

/-! ## The Chair Arbiter (R52-R54) -/

/-- The chair may be offered the loader by the arbiter (R53). -/
def State.eligible (s : State) (l : Loader) (c : Chair) : Bool := s.tables.chairs[c].takesCalls && s.permits c l

/-- One entry of the walk: the loader is offered to the first listed chair that may take it, or passed over (R53). -/
def State.walkOne (s : State) (e : CallEntry) : State :=
  match s.freeList.find? (s.eligible e.loader) with
  | some c => s.makeOffer e.loader c none
  | none => s

/-- The walk: the queue's entries in queue order (R53). -/
def State.walk (s : State) : State := s.callQueue.foldl State.walkOne s

/-- The walk an event calls for, made once, after its other changes (R52). -/
def State.walkIfCalled (s : State) : State :=
  if s.walkCalled then { s.walk with walkCalled := false } else s

/-! ## The end of an event -/

/-- The beacon lines' levels set again (R135). -/
def State.setBeacons (s : State) : State := { s with beacons := tabulate s.beaconOn }

/-- The actions of a cycle start, a supercycle boundary's among them (R94): one event with it, and with one another (R166; log
entry 39). -/
def Due.ofCycleStart : Due → Bool
  | .loadEnd => false
  | .presenceExpiry _ => true
  | .authorityReset => true
  | .tableApplied => true
  | .phaseDraw => true
  | .statusDeadline _ => false
  | .linkDown _ => false
  | .linkUp _ => false
  | .loaderReady _ => false
  | .offerExpiry _ => false
  | .matchTimeout _ => false
  | .releaseTimeout _ => false
  | .lineSettle _ => false

/-- The cycle start has begun, and an action of it is still to come. -/
def State.cycleStarting (s : State) : Bool := s.due.any Due.ofCycleStart

/-- The end of a row of the table: the walk that its event called for (R52), and the beacon lines. A cycle start's event goes on
while an action of it is still to come, and so ends with one walk for all of them (R166; what counts as one event is log entry
39). -/
def State.finish (s : State) : State := (if s.cycleStarting then s else s.walkIfCalled).setBeacons

end Sys2Proof.Machine
end

