-- ==== Sys2Proof/Machine/Authority.lean ====
section
/-! DEFINITION. The chair requests the Authority Table owns (Chapter 1): the common checks of R13, and OFFER, ACCEPT,
DECLINE, CANCEL, TAKE, RELEASE, RECOVER and STOP. A request here is the sending chair, the header's loader byte, the tag
and the argument bytes after it (R143). -/

namespace Sys2Proof.Machine

open Sys2Proof

/-! ## Answers (R13, R144) -/

/-- REFUSED with the reason, and one more of the requester's REQUESTS_REFUSED (R13). The notice names the request's loader
if it has one, with that loader's current epoch (R144). -/
def State.refuse (s : State) (c : Chair) (tag : Word16) (loader : Option Loader) (why : Reason) : State :=
  let epoch : Byte := match loader with
    | none => 0
    | some l => s.auth[l].epoch
  (s.notice c { name := .refused, tag := tag, loader := loader, chair := some c, epoch := epoch,
                byte6 := why.code }).count (.chair c requestsRefused)

/-- DONE to a request that names a loader, with the epoch, offer number and cycles R144 gives for it. -/
def State.done (s : State) (c : Chair) (tag : Word16) (l : Loader) (epoch : Byte) (number : Word16 := 0)
    (cycles : Nat := 0) : State :=
  s.notice c { name := .done, tag := tag, loader := some l, chair := some c, epoch := epoch, number := number,
               cycles := cycles }

/-- DONE to a request that names no loader (R144). -/
def State.doneNone (s : State) (c : Chair) (tag : Word16) : State :=
  s.notice c { name := .done, tag := tag, chair := some c }

/-! ## Common checks (R13) -/

/-- The common checks of a request that names a loader, in order: presence, form, service, permission. `fits` says that
the arguments are well formed. -/
def State.authorityRequest (s : State) (c : Chair) (loader : Byte) (tag : Word16) (fits : Bool)
    (k : State → Loader → State) : State :=
  let named := indexOfByte 16 loader
  if s.chairs[c].status = .absent then s.refuse c tag named .notPresent
  else
    match named with
    | none => s.refuse c tag none .badArgument
    | some l =>
      if !fits then s.refuse c tag (some l) .badArgument
      else if !s.enabled l then s.refuse c tag (some l) .notInService
      else if !s.permits c l then s.refuse c tag (some l) .notPermitted
      else k s l

/-! ## OFFER (R15) -/

/-- The checks of R15 after the common checks, in order; none when all pass. -/
def State.offerChecks (s : State) (c : Chair) (l : Loader) (target : Chair) : Option Reason :=
  let supervisor := s.tables.chairs[c].supervisor
  let standing : Option Reason :=
    match s.auth[l].state with
    | .offered _ _ _ _ _ _ => some .busy
    | .matching _ _ _ _ _ => some .busy
    | .standing _ _ => some .wrongState
    | .releasing _ => some .wrongState
    | .held h => if h = c || supervisor then none else some .notHolder
    | .free => if supervisor then none else some .notPermitted
    | .calling _ => if supervisor then none else some .notPermitted
  match standing with
  | some why => some why
  | none =>
    if s.chairs[target].status = .absent || !s.tables.chairs[target].enabled then some .targetAbsent
    else if s.chairs[target].status ≠ .idle then some .targetBusy
    else if !s.permits target l then some .notPermitted
    else none

/-- OFFER(loader, target chair) (R15). A target outside 0-7 is malformed (R13 check 2). -/
def State.offerRequest (s : State) (c : Chair) (loader : Byte) (tag : Word16) (args : List Byte) : State :=
  let target : Option Chair := match args with
    | [t] => indexOfByte 8 t
    | _ => none
  s.authorityRequest c loader tag target.isSome fun s l =>
    match target with
    | none => s
    | some t =>
      match s.offerChecks c l t with
      | some why => s.refuse c tag (some l) why
      | none =>
        (s.done c tag l s.auth[l].epoch (s.offerCounter + 1) s.tables.device.offerTimeout).makeOffer l t (some c)

/-! ## ACCEPT and DECLINE (R16, R17) -/

/-- The offer number of an ACCEPT or DECLINE (R143). -/
def offerNumberArg : List Byte → Option Word16
  | [n1, n0] => some (word16 n1 n0)
  | _ => none

/-- An answer that finds no offer to this chair with this number is LATE for its last ended offer, NOT_OFFERED otherwise
(R16). -/
def State.answerMissed (s : State) (c : Chair) (tag : Word16) (l : Loader) (number : Word16) : State :=
  s.refuse c tag (some l) (if s.chairs[c].lastEnded = some number then .late else .notOffered)

/-- ACCEPT(loader, offer number) (R16). -/
def State.acceptRequest (s : State) (c : Chair) (loader : Byte) (tag : Word16) (args : List Byte) : State :=
  s.authorityRequest c loader tag (offerNumberArg args).isSome fun s l =>
    let number := (offerNumberArg args).getD 0
    match s.auth[l].state with
    | .offered holder chair origin n offerer _ =>
      if chair = c ∧ n = number then
        let s := s.done c tag l (s.auth[l].epoch + 1) number s.tables.device.matchTimeout
        let s := s.beginMatching l holder c origin offerer
        s.setChair c { s.chairs[c] with lastEnded := some number, missed := 0 }
      else s.answerMissed c tag l number
    | _ => s.answerMissed c tag l number

/-- DECLINE(loader, offer number) (R17). -/
def State.declineRequest (s : State) (c : Chair) (loader : Byte) (tag : Word16) (args : List Byte) : State :=
  s.authorityRequest c loader tag (offerNumberArg args).isSome fun s l =>
    let number := (offerNumberArg args).getD 0
    match s.auth[l].state with
    | .offered _ chair _ n _ _ =>
      if chair = c ∧ n = number then
        (s.done c tag l s.auth[l].epoch number).endOffer l c number .declined (·.returnLoader l)
      else s.answerMissed c tag l number
    | _ => s.answerMissed c tag l number

/-! ## CANCEL (R21) -/

/-- CANCEL(loader) (R21). -/
def State.cancelRequest (s : State) (c : Chair) (loader : Byte) (tag : Word16) (args : List Byte) : State :=
  s.authorityRequest c loader tag args.isEmpty fun s l =>
    let supervisor := s.tables.chairs[c].supervisor
    match s.auth[l].state with
    | .offered _ chair _ number offerer _ =>
      if offerer = some c || supervisor then
        let s := s.done c tag l s.auth[l].epoch
        let s := s.withdrawn l chair number .cancelled
        s.endOffer l chair number .cancelled (·.returnLoader l)
      else s.refuse c tag (some l) .notHolder
    | .matching _ cand _ offerer _ =>
      if offerer = some c || supervisor || cand = c then
        let s := s.done c tag l s.auth[l].epoch
        let s := if cand = c then s else s.aborted l cand .cancelled
        (s.endMatching l cand).returnLoader l
      else s.refuse c tag (some l) .notHolder
    | _ => s.refuse c tag (some l) .wrongState

/-! ## TAKE (R22-R24) -/

/-- The checks of an operator's TAKE after the common checks (R22). -/
def State.takeOperatorChecks (s : State) (c : Chair) (l : Loader) : Option Reason :=
  if s.chairs[c].status ≠ .idle then some .busy
  else
    match s.auth[l].state with
    | .free => none
    | .calling _ => none
    | _ => some .wrongState

/-- An operator's TAKE carried out (R22). -/
def State.takeOperator (s : State) (c : Chair) (tag : Word16) (l : Loader) : State :=
  let s := s.done c tag l (s.auth[l].epoch + 1) 0 s.tables.device.matchTimeout
  (s.dequeue l).beginMatching l none c .direct none

/-- The checks of a supervisor's TAKE after the common checks (R23). -/
def State.takeSupervisorChecks (s : State) (c : Chair) (l : Loader) : Option Reason :=
  if s.chairs[c].status ≠ .idle then some .busy
  else
    match s.auth[l].state with
    | .releasing _ => some .wrongState
    | .matching _ cand _ _ _ => if s.tables.chairs[cand].supervisor then some .busy else none
    | .standing _ cause =>
      if cause = .start || cause = .reset || cause = .disabled then some .wrongState
      else if s.standCondition l then some .causeActive
      else none
    | _ => none

/-- LOST to a chair that lost the loader, with the new epoch (R144). -/
def State.lost (s : State) (l : Loader) (recipient taker : Chair) (epoch : Byte) (why : Handover) : State :=
  s.notice recipient { name := .lost, loader := some l, chair := some taker, epoch := epoch, byte6 := why.code }

/-- What a supervisor's TAKE or RECOVER makes of a retained holder: dropped with the epoch advanced, and sent
LOST(TAKEN) (R24, R27). -/
def State.dropTaken (s : State) (c : Chair) (l : Loader) (h : Chair) : State :=
  let s := s.lost l h c (s.auth[l].epoch + 1) .taken
  s.dropRetained l

/-- A supervisor's TAKE carried out (R24): what becomes of the other parties, then the matching. -/
def State.takeSupervisor (s : State) (c : Chair) (tag : Word16) (l : Loader) : State :=
  let cycles := s.tables.device.matchTimeout
  let s :=
    match s.auth[l].state with
    | .calling _ => ((s.done c tag l (s.auth[l].epoch + 1) 0 cycles).dequeue l).beginMatching l none c .direct none
    | .offered holder chair _ number _ _ =>
      let s := (s.done c tag l (s.auth[l].epoch + 1) 0 cycles).withdrawn l chair number .preempted
      s.endOffer l chair number .preempted (·.beginMatching l holder c .direct none)
    | .matching holder cand _ _ _ =>
      let s := (s.done c tag l (s.auth[l].epoch + 1) 0 cycles).aborted l cand .preempted
      (s.endMatching l cand).beginMatching l holder c .direct none
    | .held holder =>
      (s.done c tag l (s.auth[l].epoch + 1) 0 cycles).beginMatching l (some holder) c .direct none
    | .standing (some h) _ =>
      let s := s.done c tag l (s.auth[l].epoch + 2) 0 cycles
      (s.dropTaken c l h).beginMatching l none c .direct none
    | _ => (s.done c tag l (s.auth[l].epoch + 1) 0 cycles).beginMatching l none c .direct none
  s.raise .takeSupervisor (some l) (some c)

/-- TAKE(loader) (R22-R24). -/
def State.takeRequest (s : State) (c : Chair) (loader : Byte) (tag : Word16) (args : List Byte) : State :=
  s.authorityRequest c loader tag args.isEmpty fun s l =>
    if s.tables.chairs[c].supervisor then
      match s.takeSupervisorChecks c l with
      | some why => s.refuse c tag (some l) why
      | none => s.takeSupervisor c tag l
    else
      match s.takeOperatorChecks c l with
      | some why => s.refuse c tag (some l) why
      | none => s.takeOperator c tag l

/-! ## RELEASE (R25) -/

/-- The modes of RELEASE (R143). -/
inductive ReleaseMode where
  | auto
  | stand
  deriving DecidableEq, Repr

def ReleaseMode.ofArgs : List Byte → Option ReleaseMode
  | [m] => if m = 0x01 then some .auto else if m = 0x02 then some .stand else none
  | _ => none

/-- RELEASE(AUTO) carried out: RELEASING, the holder removed, the epoch advanced (R25). -/
def State.releaseToAuto (s : State) (c : Chair) (tag : Word16) (l : Loader) : State :=
  let timer := s.tables.device.releaseTimeout
  let s := s.done c tag l (s.auth[l].epoch + 1) 0 timer
  let s := ((s.advanceEpoch l).setAuth l (.releasing timer)).release c
  s.raise .released (some l) (some c)

/-- RELEASE(loader, mode) (R25). -/
def State.releaseRequest (s : State) (c : Chair) (loader : Byte) (tag : Word16) (args : List Byte) : State :=
  s.authorityRequest c loader tag (ReleaseMode.ofArgs args).isSome fun s l =>
    if s.auth[l].state.holder ≠ some c then s.refuse c tag (some l) .notHolder
    else
      match s.auth[l].state with
      | .held _ =>
        match ReleaseMode.ofArgs args with
        | some .auto => s.releaseToAuto c tag l
        | _ => (s.done c tag l (s.auth[l].epoch + 1)).standEntry l .operator
      | .standing _ _ => s.refuse c tag (some l) .wrongState
      | _ => s.refuse c tag (some l) .busy

/-! ## RECOVER (R27) -/

/-- Details of RECOVERED (R173). -/
def recoveredToMatching : Word16 := 1
def recoveredToFree : Word16 := 2

/-- RECOVER(loader) (R27): a loader that enters FREE follows R11, and then RECOVERED is raised. -/
def State.recoverRequest (s : State) (c : Chair) (loader : Byte) (tag : Word16) (args : List Byte) : State :=
  s.authorityRequest c loader tag args.isEmpty fun s l =>
    match s.auth[l].state with
    | .standing retained cause =>
      if cause = .start || cause = .reset then s.refuse c tag (some l) .wrongState
      else if s.standCondition l then s.refuse c tag (some l) .causeActive
      else
        match retained with
        | none =>
          let s := s.done c tag l s.auth[l].epoch
          (s.enterFree l).raise .recovered (some l) (some c) recoveredToFree
        | some h =>
          if h = c then
            let s := s.done c tag l (s.auth[l].epoch + 1) 0 s.tables.device.matchTimeout
            (s.beginMatching l none c .direct none).raise .recovered (some l) (some c) recoveredToMatching
          else if s.tables.chairs[c].supervisor then
            let s := s.done c tag l (s.auth[l].epoch + 1)
            ((s.dropTaken c l h).enterFree l).raise .recovered (some l) (some c) recoveredToFree
          else s.refuse c tag (some l) .notHolder
    | _ => s.refuse c tag (some l) .wrongState

/-! ## STOP (R28, R29) -/

/-- STOP(loader) (R28). The zone byte is not read (R143). -/
def State.stopLoaderRequest (s : State) (c : Chair) (loader : Byte) (tag : Word16) (fits : Bool) : State :=
  s.authorityRequest c loader tag fits fun s l => (s.done c tag l s.auth[l].epoch).stand l .stop

/-- The loaders a STOP(zone) names: enabled, in the zone, and for an operator permitted (R29). -/
def State.stopZoneNames (s : State) (c : Chair) (z : Zone) (l : Loader) : Bool :=
  s.enabled l && s.status[l].zone = some z && (s.tables.chairs[c].supervisor || s.permits c l)

/-- STOP(zone) (R29): the loaders named are those of the moment the request is taken, stood in ascending number. -/
def State.stopZoneRequest (s : State) (c : Chair) (tag : Word16) (zone : Byte) (fits : Bool) : State :=
  if s.chairs[c].status = .absent then s.refuse c tag none .notPresent
  else
    match indexOfByte 8 zone with
    | none => s.refuse c tag none .badArgument
    | some z =>
      if !fits then s.refuse c tag none .badArgument
      else (allLoaders.filter (s.stopZoneNames c z)).foldl (fun s l => s.stand l .stop) (s.doneNone c tag)

/-- STOP by its scope byte: 0x01 LOADER, 0x02 ZONE, any other malformed (R143). A scope that is neither reads the header's
loader as the request's (log entry 12). -/
def State.stopRequest (s : State) (c : Chair) (loader : Byte) (tag : Word16) (args : List Byte) : State :=
  match args with
  | [scope, zone] =>
    if scope = 0x01 then s.stopLoaderRequest c loader tag true
    else if scope = 0x02 then s.stopZoneRequest c tag zone true
    else s.stopLoaderRequest c loader tag false
  | scope :: zone :: _ =>
    if scope = 0x02 then s.stopZoneRequest c tag zone false else s.stopLoaderRequest c loader tag false
  | [scope] => if scope = 0x02 then s.stopZoneRequest c tag 0 false else s.stopLoaderRequest c loader tag false
  | [] => s.stopLoaderRequest c loader tag false

/-! ## Unknown codes (R143) -/

/-- A request with an unknown code is answered NOT_PRESENT or BAD_ARGUMENT (R143). -/
def State.unknownRequest (s : State) (c : Chair) (loader : Byte) (tag : Word16) : State :=
  s.refuse c tag (indexOfByte 16 loader) (if s.chairs[c].status = .absent then .notPresent else .badArgument)

end Sys2Proof.Machine
end

