-- ==== Sys2Proof/Machine/Chairs.lean ====
section
/-! DEFINITION. The Chair Table's own requests and moves (Chapter 2): PRESENT, LEAVE, presence and its expiry, a chair
becoming ABSENT (R40), and the end of an engagement by a narrowed permitted set (R167). -/

namespace Sys2Proof.Machine

open Sys2Proof

/-! ## Becoming ABSENT (R40) -/

/-- Details of CHAIR_ABSENT (R173). -/
def absentExpired : Word16 := 1
def absentLeave : Word16 := 2
def absentDisabled : Word16 := 3
def absentChanged : Word16 := 4

/-- The chair's view entries are inactive (R119). -/
def State.clearViews (s : State) (c : Chair) : State :=
  { s with views := putAt s.views c (mapAll (fun e => { e with active := false }) s.views[c]) }

/-- The chair's record when it becomes ABSENT: state, available, presence and missed-offer count (R40); idle-since and
last ended offer stay. That the missed-offer count becomes 0 follows R40 against R43, which says that an absence leaves it
as it is (DESIGN CHOICE, log entry 32). -/
def ChairState.gone (r : ChairState) : ChairState :=
  { r with status := .absent, available := false, presence := 0, missed := 0, engaged := none }

/-- The end of the place an absent chair held in a loader's record (R40). -/
def State.absentPlace (s : State) (c : Chair) (l : Loader) : State :=
  match s.auth[l].state with
  | .standing retained _ => if retained = some c then s.dropRetained l else s
  | .held h => if h = c then s.standEntry l .chairLost else s
  | .offered holder chair _ number _ _ =>
    if holder = some c then s.standEntry l .chairLost
    else if chair = c then s.endOffer l c number .chairAbsent (·.returnLoader l)
    else s
  | .matching holder cand _ _ _ =>
    if holder = some c then s.standEntry l .chairLost
    else if cand = c then (s.endMatching l c).returnLoader l
    else s
  | _ => s

/-- The chair becomes ABSENT (R40): first its state, list place, counts, availability and views, with CHAIR_ABSENT raised
(log entry 8); then the place it held ends. -/
def State.becomeAbsent (s : State) (c : Chair) (detail : Word16) : State :=
  let engaged := s.chairs[c].engaged
  let s := ((s.setChair c s.chairs[c].gone).leaveList c).clearViews c
  let s := s.raise .chairAbsent none (some c) detail
  match engaged with
  | none => s
  | some l => s.absentPlace c l

/-- The presence count of a present chair is reloaded (R37). -/
def State.refreshPresence (s : State) (c : Chair) : State :=
  if s.chairs[c].status = .absent then s
  else s.setChair c { s.chairs[c] with presence := s.tables.device.presenceTimeout }

/-! ## PRESENT (R36, R42) -/

/-- AVAILABLE or UNAVAILABLE (R143). -/
def availabilityOfArgs : List Byte → Option Bool
  | [a] => if a = 0x01 then some true else if a = 0x02 then some false else none
  | _ => none

/-- Details of CHAIR_UNAVAILABLE (R173). -/
def unavailableRequest : Word16 := 1
def unavailableMissed : Word16 := 2

/-- A present chair's PRESENT changes its available flag (R42). -/
def State.setAvailable (s : State) (c : Chair) (available : Bool) : State :=
  if available = s.chairs[c].available then s
  else if available then
    let s := s.setChair c { s.chairs[c] with available := true, missed := 0 }
    let s := s.raise .chairAvailable none (some c)
    if s.chairs[c].status = .idle then s.joinList c else s
  else
    let s := s.setChair c { s.chairs[c] with available := false }
    (s.raise .chairUnavailable none (some c) unavailableRequest).leaveList c

/-- An ABSENT chair becomes IDLE by PRESENT (R36). -/
def State.becomePresent (s : State) (c : Chair) (available : Bool) : State :=
  let s := s.setChair c { s.chairs[c] with
    status := .idle, available := available, presence := s.tables.device.presenceTimeout, missed := 0, engaged := none }
  let s := s.raise .chairPresent none (some c)
  if available then s.joinList c else s

/-- PRESENT(availability) (R36). -/
def State.presentRequest (s : State) (c : Chair) (tag : Word16) (args : List Byte) : State :=
  match availabilityOfArgs args with
  | none => s.refuse c tag none .badArgument
  | some available =>
    let absent := s.chairs[c].status = .absent
    let s := s.doneNone c tag
    if absent then s.becomePresent c available else (s.refreshPresence c).setAvailable c available

/-! ## LEAVE (R39) -/

/-- LEAVE (R39). -/
def State.leaveRequest (s : State) (c : Chair) (tag : Word16) (args : List Byte) : State :=
  if s.chairs[c].status = .absent then s.refuse c tag none .notPresent
  else if !args.isEmpty then s.refuse c tag none .badArgument
  else (s.doneNone c tag).becomeAbsent c absentLeave

/-! ## Presence (R38) -/

/-- The presence counts stepped at a cycle start (R38); the chairs whose count reaches 0 are those whose expiry is due. -/
def State.stepPresence (s : State) : State :=
  { s with
    chairs := mapAll (fun r => if r.status = .absent then r else { r with presence := r.presence - 1 }) s.chairs }

/-- The chair's presence has run out: present, with a count of 0 (R38). -/
def State.presenceOut (s : State) (c : Chair) : Bool := s.chairs[c].status ≠ .absent && s.chairs[c].presence = 0

/-- Presence expiry (R38); a chair already ABSENT has nothing to expire (R100). -/
def State.presenceExpiry (s : State) (c : Chair) : State :=
  if s.presenceOut c then s.becomeAbsent c absentExpired else s

/-! ## Missed offers (R18, R43) -/

/-- The missed-offer count of an expired offer: one more, up to 3; the third clears the available flag (R43). -/
def State.missOffer (s : State) (c : Chair) : State :=
  let r := s.chairs[c]
  let s := s.setChair c { r with missed := min 3 (r.missed + 1) }
  let s := s.count (.chair c offersMissed)
  if r.missed = 2 then
    let s := s.setChair c { s.chairs[c] with available := false }
    s.raise .chairUnavailable none (some c) unavailableMissed
  else s

/-- The offer timer has reached 0: the offer expires (R18). -/
def State.offerExpiry (s : State) (l : Loader) : State :=
  match s.auth[l].state with
  | .offered _ c _ number _ timer =>
    if timer = 0 then
      ((s.withdrawn l c number .expired).missOffer c).endOffer l c number .expired (·.returnLoader l)
    else s
  | _ => s

/-! ## A permitted set that lacks the engaged loader (R167) -/

/-- The engagement ends by the chair's place in the loader's record (R167). -/
def State.permitEnds (s : State) (c : Chair) (l : Loader) : State :=
  match s.auth[l].state with
  | .standing retained cause =>
    if retained = some c then
      let s := s.dropRetained l
      s.noticeIfPresent (some c) (standNotice l cause s.auth[l].epoch)
    else s
  | .held h => if h = c then s.standEntry l .chairLost else s
  | .offered holder chair _ number _ _ =>
    if holder = some c then s.standEntry l .chairLost
    else if chair = c then
      (s.withdrawn l c number .permit).endOffer l c number .permit (·.returnLoader l)
    else s
  | .matching holder cand _ _ _ =>
    if holder = some c then s.standEntry l .chairLost
    else if cand = c then ((s.aborted l c .permit).endMatching l c).returnLoader l
    else s
  | _ => s

end Sys2Proof.Machine
end

