-- ==== Sys2Proof/Machine/Synthesis.lean ====
section
/-! DEFINITION. Command Synthesis (Chapter 4): the arithmetic of governor, clamp and slew, the frame of a slot, and the
slot event. -/

namespace Sys2Proof.Machine

open Sys2Proof

/-! ## Arithmetic (R79-R82) -/

/-- THROTTLE scaled by the governor, the fraction dropped toward zero (R79, R59). -/
def govern (g : Nat) (a : Int) : Int := (a * g).tdiv 256

/-- A value limited to the axis limits (R80, R59). -/
def AxisLimits.clamp (x : AxisLimits) (v : Int) : Int := if v < x.lo then x.lo else if v > x.hi then x.hi else v

/-- The output moved toward the target by at most the step limit (R81). -/
def slew (step : Nat) (y t : Int) : Int := if t - y > step then y + step else if t - y < -(step : Int) then y - step else t

/-- The governor of a loader: its current zone's, or the unknown-zone governor (R79, R134). -/
def State.governor (s : State) (l : Loader) : Nat :=
  match s.status[l].zone with
  | some z => s.tables.zones[z].governor
  | none => s.tables.device.unknownGovernor

/-- The targets of a command: governor on THROTTLE, then the clamp on each axis (R79, R80). -/
def targets (e : LoaderEntry) (g : Nat) (a : Axes) : Axes where
  throttle := e.throttle.clamp (govern g a.throttle)
  steer := e.steer.clamp a.steer
  boom := e.boom.clamp a.boom
  bucket := e.bucket.clamp a.bucket

/-- The slewed outputs (R81). -/
def slewAxes (e : LoaderEntry) (last target : Axes) : Axes where
  throttle := slew e.throttle.step last.throttle target.throttle
  steer := slew e.steer.step last.steer target.steer
  boom := slew e.boom.step last.boom target.boom
  bucket := slew e.bucket.step last.bucket target.bucket

/-- BRAKE_RELEASE, bit 2 of the switch set (R141). -/
def brakeRelease : Byte := 4

/-- What a frame to a loader says besides flags, epoch and sequence. -/
structure Output where
  axes : Axes
  gear : Gear
  switches : Byte
  held : Bool
  deriving DecidableEq, Repr

/-- The content of a neutral or stand frame (R86). -/
def Output.neutral : Output := ⟨.zero, .neutral, 0, false⟩

/-- The synthesized output of a command (R79-R83): a NOT_HELD deadman brings THROTTLE to 0 and clears BRAKE_RELEASE. -/
def synthesize (e : LoaderEntry) (g : Nat) (last : Axes) (c : Command) : Output :=
  let out := slewAxes e last (targets e g c.axes)
  if c.held then ⟨out, c.gear, c.switches, true⟩
  else ⟨{ out with throttle := 0 }, c.gear, c.switches &&& ~~~brakeRelease, false⟩

/-! ## The frame (R84, R85, R141) -/

/-- The kinds of frame a slot builds (R4). -/
inductive FrameKind where
  | synthesized (hold : Bool)
  | neutral (returnAuto : Bool)
  | stand (cause : Cause)
  deriving DecidableEq, Repr

/-- The flags of a frame (R84). -/
def FrameKind.flags (k : FrameKind) (linkAlarm : Bool) : Byte :=
  match k with
  | .synthesized hold => commandFlags false false false linkAlarm hold
  | .neutral returnAuto => commandFlags false true returnAuto linkAlarm false
  | .stand _ => commandFlags true false false linkAlarm false

/-- The stand cause byte of a frame (R85). -/
def FrameKind.causeByte : FrameKind → Byte
  | .stand cause => cause.code
  | _ => 0x00

/-- The payload of a frame to a loader (R141). -/
def outputPayload (k : FrameKind) (o : Output) : List Byte :=
  bytes16 (signed16 o.axes.throttle) ++ bytes16 (signed16 o.axes.steer) ++ bytes16 (signed16 o.axes.boom)
    ++ bytes16 (signed16 o.axes.bucket) ++ [o.gear.code, o.switches, deadmanCode o.held, k.causeByte]

/-- The command frame to a loader, with the output sequence it carries (R85, R141). -/
def State.commandFrame (s : State) (l : Loader) (k : FrameKind) (o : Output) (sequence : Word16) : Frame where
  kind := kindCommand
  header := ⟨k.flags (!s.status[l].linkUp), s.tables.device.station, s.tables.loaders[l].station, byteOf l.val,
    s.auth[l].epoch, sequence⟩
  payload := outputPayload k o

/-- The index of a port among the three. -/
def Port.index : Port → Fin 3
  | .surface => 0
  | .levelA => 1
  | .levelB => 2

/-- The link of a port is UP (R149). -/
def State.linkIsUp (s : State) (p : Port) : Bool := s.portUp[Port.index p]

/-- The index of a level port. -/
def levelIndex : LevelPort → Fin 2
  | .a => 0
  | .b => 1

/-- A frame handed to an L-port: sent at once, or discarded while the link is DOWN (R159). -/
def State.levelSend (s : State) (p : LevelPort) (f : Frame) : State :=
  let out := if s.linkIsUp p.toPort then some ⟨s.tables.device.marker, f⟩ else none
  { s with lSending := putAt s.lSending (levelIndex p) out }

/-- The frame counters of a built frame (R91). -/
def State.countFrame (s : State) (l : Loader) : FrameKind → State
  | .stand _ => s.count (.loader l standSent)
  | .neutral _ => s.count (.loader l cmdSent)
  | .synthesized hold =>
    let s := s.count (.loader l cmdSent)
    if hold then s.count (.loader l holdSlots) else s

/-- The end of a slot that builds a frame: the output sequence advances, last output and last gear are recorded, the frame
is counted and handed to the L-port (R76, R85, R91). -/
def State.sendFrame (s : State) (l : Loader) (k : FrameKind) (o : Output) : State :=
  let b := s.builders[l]
  let sequence := b.outSeq + 1
  let frame := s.commandFrame l k o sequence
  let s := s.setBuilder l { b with lastOut := o.axes, lastGear := o.gear, outSeq := sequence }
  (s.countFrame l k).levelSend s.tables.loaders[l].port frame

/-- A neutral or stand frame: last output 0, last gear NEUTRAL, stale count 0; the mailbox and its mark are left (R86). -/
def State.sendIdle (s : State) (l : Loader) (k : FrameKind) : State :=
  (s.setBuilder l { s.builders[l] with stale := 0 }).sendFrame l k .neutral

/-- The command a slot builds from. A loader with a holder outside STANDING always has one in its mailbox (R75); the
neutral command stands in otherwise (log entry 11). -/
def Builder.command (b : Builder) : Command := b.holder.getD ⟨.zero, .neutral, 0, false, 0⟩

/-- The stale count after step 1 of R76: 0 when the mailbox is fresh, one more otherwise. -/
def Builder.staleNext (b : Builder) : Nat := if b.fresh then 0 else b.stale + 1

/-- The slot brings the stale count above the hold limit (R76 step 2, R77). -/
def State.slotStale (s : State) (l : Loader) : Bool := s.tables.device.holdLimit < s.builders[l].staleNext

/-- The frame of a driven loader (R76, R77, R78): the stand frame of a stale mailbox, or a synthesized frame. -/
def State.slotDriven (s : State) (l : Loader) : State :=
  if s.slotStale l then (s.standEntry l .stale).sendIdle l (.stand .stale)
  else
    let b := s.builders[l]
    let o := synthesize s.tables.loaders[l] (s.governor l) b.lastOut b.command
    let hold := !b.fresh
    (s.setBuilder l { b with stale := b.staleNext, fresh := false }).sendFrame l (.synthesized hold) o

/-- The frame of an enabled loader's slot, chosen from its authority record (R4, R76). -/
def State.slotFrame (s : State) (l : Loader) : State :=
  match s.auth[l].state with
  | .standing _ .disabled => s
  | .standing _ cause => s.sendIdle l (.stand cause)
  | .free => s.sendIdle l (.neutral false)
  | .calling _ => s.sendIdle l (.neutral false)
  | .releasing _ => s.sendIdle l (.neutral true)
  | .held _ => s.slotDriven l
  | .offered (some _) _ _ _ _ _ => s.slotDriven l
  | .matching (some _) _ _ _ _ => s.slotDriven l
  | .offered none _ _ _ _ _ => s.sendIdle l (.neutral false)
  | .matching none _ _ _ _ => s.sendIdle l (.neutral false)

/-! ## The slot event (R96, R97) -/

/-- The loader enabled at a port and slot in the applied Loaders table, if one is (R96). -/
def State.loaderAt (s : State) (p : LevelPort) (k : Slot) : Option Loader :=
  allLoaders.find? fun l => s.enabled l && s.tables.loaders[l].port = p && s.tables.loaders[l].slot = k

/-- The slot that falls at a slot instant. -/
def SlotTime.slot (k : SlotTime) : Slot := ⟨k.val % 16, Nat.mod_lt _ (by decide)⟩

/-- The instant of slot k (R96): k slots after the cycle start. -/
def Timer.slotInstant (t : Timer) (k : SlotTime) : Nat := t.origin + k.val * t.period

/-- The cycle position at an instant (R98); at the next cycle start's instant, with that start not yet taken, it is 15. -/
def Timer.positionAt (t : Timer) (instant : Nat) : Slot :=
  let k := (instant - t.origin) / t.period
  if instant < t.origin then t.position else if h : k < 16 then ⟨k, h⟩ else 15

/-- The timer at an instant: the cycle position steps to it (R98). -/
def Timer.seek (t : Timer) (instant : Nat) : Timer := { t with position := t.positionAt instant, now := instant }

/-- The state at an instant. -/
def State.seek (s : State) (instant : Nat) : State := { s with timer := s.timer.seek instant }

/-- The status deadline of a slot at an instant: T / 2 after it, T being the length in force (R97). A slot 0 ahead of its cycle
start is reckoned again if that start's applications bring a new period (`Deadline.underPeriod`). -/
def Timer.deadlineFor (t : Timer) (port : LevelPort) (instant : Nat) : Deadline := ⟨port, instant, instant + 8 * t.period⟩

/-- The slot event of a loader: its frame, then its status deadline; a deadline still pending falls at this instant
(R76, R97). -/
def State.slotOf (s : State) (l : Loader) (instant : Nat) : State :=
  let s := s.slotFrame l
  let s := if s.deadlines[l].isSome then { s with due := s.due ++ [.statusDeadline l] } else s
  { s with deadlines := putAt s.deadlines l (some (s.timer.deadlineFor s.tables.loaders[l].port instant)) }

/-- The slot instant of a port: the cycle position steps, and the loader there has its slot event (R96, R98). -/
def State.slotAt (s : State) (p : LevelPort) (k : SlotTime) : State :=
  let instant := s.timer.slotInstant k
  let s := s.seek instant
  match s.loaderAt p (SlotTime.slot k) with
  | some l => s.slotOf l instant
  | none => s

/-- The slot time is one of the loader's slot in the applied Loaders table (R96). -/
def State.atSlot (s : State) (l : Loader) (k : SlotTime) : Bool := SlotTime.slot k = s.tables.loaders[l].slot

/-- The slot event of a loader at which its mailbox goes stale (R77); no effect where the slot is not the loader's or would not
find the mailbox stale (log entry 24). -/
def State.staleSlot (s : State) (x : LoaderSlot) : State :=
  let l := x.loader
  if s.enabled l && s.atSlot l x.slot && s.auth[l].state.driven && s.slotStale l then
    let instant := s.timer.slotInstant x.slot
    (s.seek instant).slotOf l instant
  else s

end Sys2Proof.Machine
end

