-- ==== Sys2Proof/Machine/Matching.lean ====
section
/-! DEFINITION. COMMAND frames of chairs and the Match Unit (Chapter 3, and R72, R73 of Chapter 4): the sort by place and
epoch, the two mailboxes, the match test, the window, the grant, and the match timeout. -/

namespace Sys2Proof.Machine

open Sys2Proof

/-! ## The window (R61) -/

/-- The newest n results of a list (R61, R102). -/
def newest {α : Type} (n : Nat) (xs : List α) : List α := xs.drop (xs.length - n)

/-- A result added at the end, the oldest removed beyond the length (R61, R102). -/
def pushWindow {α : Type} (n : Nat) (x : α) (xs : List α) : List α := newest n (xs ++ [x])

/-- The MATCH results of a window. -/
def matchesIn (w : List Bool) : Nat := w.count true

/-! ## The match test (R58-R60) -/

/-- The reference of a judgement: the last output and gear with a holder, neutral without (R58). -/
def State.reference (s : State) (l : Loader) : Axes × Gear :=
  match s.auth[l].state.holder with
  | some _ => (s.builders[l].lastOut, s.builders[l].lastGear)
  | none => (.zero, .neutral)

/-- Two values differ by at most the tolerance (R60). -/
def near (tol : Nat) (c y : Int) : Bool := (c - y).natAbs ≤ tol

/-- A candidate command matches (R59, R60): governed and clamped axes within tolerance of the reference, equal gear,
deadman HELD. -/
def State.judge (s : State) (l : Loader) (m : Command) : Bool :=
  let e := s.tables.loaders[l]
  let c := targets e (s.governor l) m.axes
  let (y, gear) := s.reference l
  near e.throttle.tol c.throttle y.throttle && near e.steer.tol c.steer y.steer && near e.boom.tol c.boom y.boom
    && near e.bucket.tol c.bucket y.bucket && m.gear = gear && m.held

/-! ## The grant (R63, R64) -/

/-- The grant of a MATCHING loader to its candidate, whose mailbox holds the granting command (R63, R64). -/
def State.grant (s : State) (l : Loader) (previous : Option Chair) (c : Chair) (offerer : Option Chair) (m : Command) :
    State :=
  let s := s.advanceEpoch l
  let s := s.setBuilder l { s.builders[l] with holder := some m, fresh := true, lastSeq := some m.sequence }
  let s := (s.setAuth l (.held c)).setWindow l []
  let s := (s.engage c .holding l).releaseOpt previous
  let epoch := s.auth[l].epoch
  let s := s.notice c { name := .grant, loader := some l, chair := some c, epoch := epoch }
  let why : Handover := if offerer.isSome then .transferred else .taken
  let s := match previous with
    | none => s
    | some p => s.notice p { name := .lost, loader := some l, chair := some c, epoch := epoch, byte6 := why.code }
  let s := s.raise .granted (some l) (some c) ((byteOfIndex previous).setWidth 16)
  s.count (.loader l grants)

/-! ## COMMAND frames (R55, R56, R72, R73) -/

/-- A holder frame that carries the loader's epoch (R73). -/
def State.holderFrame (s : State) (c : Chair) (l : Loader) (m : Command) : State :=
  let b := s.builders[l]
  if newerThanLast m.sequence b.lastSeq then
    (s.setBuilder l { b with holder := some m, fresh := true, lastSeq := some m.sequence }).count
      (.chair c framesAccepted)
  else s.count (.chair c oldSeq)

/-- A candidate frame that carries the epoch plus one (R56): accepted if newer, judged, and granted when the window then
holds K matches (R61, R63). -/
def State.candidateFrame (s : State) (c : Chair) (l : Loader) (holder offerer : Option Chair) (m : Command) : State :=
  let b := s.builders[l]
  if newerThanLast m.sequence b.lastCand then
    let s := (s.setBuilder l { b with cand := some m, lastCand := some m.sequence }).count (.chair c framesAccepted)
    let w := pushWindow s.tables.device.matchLength (s.judge l m) s.windows[l]
    let s := s.setWindow l w
    if s.tables.device.matchCount ≤ matchesIn w then s.grant l holder c offerer m else s
  else s.count (.chair c oldSeq)

/-- A frame of a chair with no place in the record that admits command frames (R55 check 4). -/
def State.strangerFrame (s : State) (c : Chair) (l : Loader) (epoch : Byte) : State :=
  if epoch = s.auth[l].epoch || epoch = s.auth[l].epoch + 1 then s.count (.chair c notHolder)
  else s.count (.loader l staleEpoch)

/-- A dispatched COMMAND frame of a chair (R55). -/
def State.commandFrameFrom (s : State) (c : Chair) (h : Header) (p : CommandPayload) : State :=
  match indexOfByte 16 h.loader with
  | none => s.count (.chair c notHolder)
  | some l =>
    if !s.enabled l then s.count (.chair c notHolder)
    else
      let a := s.auth[l].state
      let m := readCommand p h.sequence
      if a.holder = some c then
        if h.epoch = s.auth[l].epoch then s.holderFrame c l m else s.count (.loader l staleEpoch)
      else if a.candidate = some c then
        if h.epoch = s.auth[l].epoch + 1 then s.candidateFrame c l a.holder a.offerer m
        else s.count (.loader l staleEpoch)
      else s.strangerFrame c l h.epoch

/-! ## The match timeout (R66) -/

/-- MATCH results × 256 + window results, of FAILED and MATCH_FAILED (R144, R173). -/
def matchDetail (w : List Bool) : Word16 := wordOf (matchesIn w * 256 + w.length)

/-- The match timer has reached 0: the matching has timed out (R66). -/
def State.matchTimeout (s : State) (l : Loader) : State :=
  match s.auth[l].state with
  | .matching _ c _ _ timer =>
    if timer = 0 then
      let detail := matchDetail s.windows[l]
      let s := s.notice c { name := .failed, loader := some l, chair := some c, epoch := s.auth[l].epoch,
                            byte6 := Handover.mismatch.code, detail := detail }
      let s := (s.count (.chair c matchFails)).raise .matchFailed (some l) (some c) detail
      (s.endMatching l c).returnLoader l
    else s
  | _ => s

end Sys2Proof.Machine
end

