-- ==== Sys2Proof/Machine/StatusUnit.lean ====
section
/-! DEFINITION. The Status Unit and the View Forwarder (Chapter 6): a good status frame in its six steps, the status
deadline, the link going DOWN and UP, the exit from START and RESET, the release timeout, the copies, VIEW_ON, VIEW_OFF
and the phase generator. -/

namespace Sys2Proof.Machine

open Sys2Proof

/-! ## Steps 1 to 5 of a status frame (R104) -/

/-- Step 1: the heard mark and STATUS_GOOD (R105). -/
def State.heardStep (s : State) (l : Loader) : State :=
  (s.setStatus l { s.status[l] with heard := true }).count (.loader l statusGood)

/-- The far-end sum (R102). -/
def LoaderStatus.farEndSum (st : LoaderStatus) : Nat := st.farEnd.sum

/-- The windows of the Status Unit hold 32 entries (R102). -/
def statusWindow : Nat := 32

/-- The test of DEGRADED after an entry into the far-end window (R107). -/
def State.degradeTest (s : State) (l : Loader) : State :=
  let st := s.status[l]
  let sum := st.farEndSum
  let threshold := s.tables.device.degrade
  if !st.degraded && threshold ≤ sum then
    (s.setStatus l { st with degraded := true }).raise .linkDegraded (some l) none (wordOf sum)
  else if st.degraded && sum ≤ threshold / 2 then
    (s.setStatus l { st with degraded := false }).raise .degradeCleared (some l) none (wordOf sum)
  else s

/-- Step 2: the far-end count (R106, R107). -/
def State.farEndStep (s : State) (l : Loader) (b : Byte) : State :=
  let n := farEndOfByte b
  let s := s.setStatus l { s.status[l] with farEnd := pushWindow statusWindow n s.status[l].farEnd }
  (s.count (.loader l farEndErrors) n).degradeTest l

/-- Step 3: the zone, and the zone-entry test at a change (R108, R109). -/
def State.zoneStep (s : State) (l : Loader) (b : Byte) : State :=
  let z := zoneOfByte b
  if z = s.status[l].zone then s
  else
    let s := s.setStatus l { s.status[l] with zone := z }
    if s.zoneInterlocked z then
      (s.raise .zoneEntryBlocked (some l) none ((byteOfZone z).setWidth 16)).stand l .interlock
    else s

/-- The Authority Table's act on a change of the accepted request (R111; R47, R48, R50, R51). An offer of origin CALL has no
holder (R14). -/
def State.requestChanged (s : State) (l : Loader) : State :=
  let isCall := s.status[l].accepted.isCall
  match s.auth[l].state with
  | .free => if isCall then s.enterCalling l s.timer.number callNew else s
  | .calling _ =>
    if isCall then s.resort l
    else (((s.dequeue l).setAuth l .free).raise .callWithdrawn (some l)).enterFree l
  | .offered none c (.call _) number _ _ =>
    if isCall then s
    else
      (s.withdrawn l c number .callEnded).endOffer l c number .callEnded fun s =>
        ((s.setAuth l .free).raise .callWithdrawn (some l)).enterFree l
  | _ => s

/-- The FAULT notice and LOADER_FAULT when the accepted request changes to FAULT (R112). -/
def State.faultReport (s : State) (l : Loader) (replaced : Request) : State :=
  let holder := s.auth[l].state.holder
  let detail := replaced.code.setWidth 16
  let s := match holder with
    | none => s
    | some h => s.notice h { name := .fault, loader := some l, chair := some h, epoch := s.auth[l].epoch,
                             detail := detail }
  s.raise .loaderFault (some l) holder detail

/-- Step 4: the request filter; a code that fills Kr entries becomes the accepted request (R110-R112). -/
def State.requestStep (s : State) (l : Loader) (b : Byte) : State :=
  let r := Request.ofCode b
  let filter := pushWindow s.tables.device.requestLength r s.status[l].filter
  let replaced := s.status[l].accepted
  let s := s.setStatus l { s.status[l] with filter := filter }
  if s.tables.device.requestCount ≤ filter.count r && r ≠ replaced then
    let s := (s.setStatus l { s.status[l] with accepted := r }).requestChanged l
    if r = .fault then s.faultReport l replaced else s
  else s

/-- Step 5: a report of mode AUTO takes a RELEASING loader to FREE (R26, R114): RELEASE_DONE is raised, and R11 then
applies. -/
def State.modeStep (s : State) (l : Loader) (b : Byte) : State :=
  match s.auth[l].state with
  | .releasing _ =>
    if b = modeAuto then ((s.setAuth l .free).raise .releaseDone (some l)).enterFree l else s
  | _ => s

/-! ## Forwarding (R122, R123) -/

/-- The view entry's pattern contains the position of cycle n (R122). -/
def ViewEntry.shows (e : ViewEntry) (n : Word32) : Bool := e.active && inSet e.pattern ((n.toNat + e.phase) % e.period)

/-- The chairs a good status frame is forwarded to, in order: the holder, the candidate, then every other present chair
whose view shows the cycle (R122). -/
def State.receivers (s : State) (l : Loader) : List Chair :=
  let parties := s.auth[l].state.holder.toList ++ s.auth[l].state.candidate.toList
  parties ++ allChairs.filter fun c =>
    !parties.contains c && s.chairs[c].status ≠ .absent && s.views[c][l].shows s.timer.number

/-- The authority trailer (R123, R142). -/
def State.trailer (s : State) (l : Loader) : List Byte :=
  let a := s.auth[l]
  let second := match a.state.candidate with
    | some c => some c
    | none => a.state.offeredChair
  let cause : Byte := match a.state.cause with
    | some cause => cause.code
    | none => 0
  [a.state.code, byteOfIndex a.state.holder, byteOfIndex second, a.epoch, s.status[l].linkByte,
    s.status[l].accepted.code, cause, s.timer.number.setWidth 8]

/-- The Forward Queue's capacity (R157). -/
def forwardCapacity : Nat := 64

/-- The copy of a status frame for one chair (R123). -/
def State.copyFrame (s : State) (h : Header) (p : StatusPayload) (trailer : List Byte) (c : Chair) : Frame where
  kind := kindStatus
  header := { h with destination := s.tables.chairs[c].station }
  payload := statusBytes p ++ trailer

/-- One copy placed on the Forward Queue, or dropped with FWD_LOST and FORWARD_LOST (R123). -/
def State.forwardOne (l : Loader) (h : Header) (p : StatusPayload) (trailer : List Byte) (s : State) (c : Chair) :
    State :=
  if s.forwards.length < forwardCapacity then
    { s with forwards := s.forwards ++ [s.copyFrame h p trailer c] }
  else (s.count (.device fwdLost)).raise .forwardLost (some l) (some c)

/-- Step 6: the copies, all with the trailer read when they are made (R122, R123). -/
def State.forwardStep (s : State) (l : Loader) (h : Header) (p : StatusPayload) : State :=
  (s.receivers l).foldl (State.forwardOne l h p (s.trailer l)) s

/-- A STATUS frame dispatched for the loader the source test named (R104). The walk that steps 1 to 5 call for comes before
the copies, which show what it did (log entry 9). -/
def State.statusFrame (s : State) (l : Loader) (h : Header) (p : StatusPayload) : State :=
  if !s.enabled l then s
  else
    let s := (s.heardStep l).farEndStep l p.farEnd
    let s := ((s.zoneStep l p.zone).requestStep l p.request).modeStep l p.mode
    s.walkIfCalled.forwardStep l h p

/-! ## The status deadline (R30, R115) -/

/-- The missed count of a link window (R102). -/
def missedCount (w : List Bool) : Nat := w.count false

/-- The Status Unit's entry at a deadline (R115). -/
def State.enterOutcome (s : State) (l : Loader) : State :=
  let st := s.status[l]
  let st' := { st with
    heard := false
    linkWindow := pushWindow statusWindow st.heard st.linkWindow
    upRun := if st.heard then min 32 (st.upRun + 1) else 0 }
  let s := s.setStatus l st'
  if st.heard then s else s.count (.loader l statusMissed)

/-- The timer of OFFERED, MATCHING or RELEASING decreased by one (R30). -/
def AuthState.stepTimer : AuthState → AuthState
  | .offered holder chair origin number offerer timer => .offered holder chair origin number offerer (timer - 1)
  | .matching holder cand origin offerer timer => .matching holder cand origin offerer (timer - 1)
  | .releasing timer => .releasing (timer - 1)
  | a => a

/-- The Authority Table's events of a deadline: a timer that has run out, or the test of R10. -/
def AuthState.dueAt (l : Loader) : AuthState → List Due
  | .offered _ _ _ _ _ 0 => [.offerExpiry l]
  | .matching _ _ _ _ 0 => [.matchTimeout l]
  | .releasing 0 => [.releaseTimeout l]
  | .standing _ .start => [.loaderReady l]
  | .standing _ .reset => [.loaderReady l]
  | _ => []

/-- The missed count has reached the link down threshold while UP (R116). -/
def State.linkFails (s : State) (l : Loader) : Bool :=
  s.status[l].linkUp && s.tables.device.linkDown ≤ missedCount s.status[l].linkWindow

/-- The up run has reached the link up run while DOWN (R117). -/
def State.linkReturns (s : State) (l : Loader) : Bool :=
  !s.status[l].linkUp && s.tables.device.linkUp ≤ s.status[l].upRun

/-- A status deadline of an enabled loader (R97, R115, R30): the outcome is entered and the timer stepped; the link test's and
the Authority Table's events of the deadline are due, in either order (R116, R117), ahead of any other event (`Due.follows`). -/
def State.deadlineFalls (s : State) (l : Loader) : State :=
  let s := s.enterOutcome l
  let s := s.setAuth l s.auth[l].state.stepTimer
  let link := (if s.linkFails l then [Due.linkDown l] else []) ++ (if s.linkReturns l then [Due.linkUp l] else [])
  { s with due := s.due ++ link ++ s.auth[l].state.dueAt l }

/-- A status deadline: that of a loader disabled before it falls does not fall (R97). -/
def State.deadline (s : State) (l : Loader) : State := if s.enabled l then s.deadlineFalls l else s

/-- The link goes DOWN (R116). -/
def State.linkGoesDown (s : State) (l : Loader) : State :=
  let missed := missedCount s.status[l].linkWindow
  let s := s.setStatus l { s.status[l] with linkUp := false }
  (s.raise .linkDown (some l) none (wordOf missed)).stand l .link

/-- The link comes UP, the window emptied, the up run kept (R117). -/
def State.linkGoesUp (s : State) (l : Loader) : State :=
  (s.setStatus l { s.status[l] with linkUp := true, linkWindow := [] }).raise .linkUp (some l)

/-- LINK_DOWN of a waiting link test; a disabled loader's link stays as the disable left it (R103). -/
def State.linkDownTest (s : State) (l : Loader) : State := if s.enabled l then s.linkGoesDown l else s

/-- LINK_UP of a waiting link test, which a disabled loader has none of (R103). -/
def State.linkUpTest (s : State) (l : Loader) : State := if s.enabled l then s.linkGoesUp l else s

/-- The test of R10: a STANDING(START) or STANDING(RESET) loader, which has no retained holder, with its link UP and no stand
condition enters FREE. LOADER_READY comes ahead of the CALL_QUEUED of R11, an order the spec leaves open (DESIGN CHOICE, log
entry 7). A deadline kept over an authority reset may take the loader out of RESET ahead of its next slot (DESIGN CHOICE, log
entry 33). -/
def State.readyTest (s : State) (l : Loader) : State :=
  match s.auth[l].state with
  | .standing none cause =>
    if (cause = .start || cause = .reset) && !s.standCondition l then
      ((s.setAuth l .free).raise .loaderReady (some l)).enterFree l
    else s
  | _ => s

/-- The release timer has reached 0: STANDING(RELEASE_TIMEOUT) (R26). -/
def State.releaseTimeout (s : State) (l : Loader) : State :=
  match s.auth[l].state with
  | .releasing 0 => s.standEntry l .releaseTimeout
  | _ => s

/-! ## VIEW_ON and VIEW_OFF (R120, R121) -/

/-- A view entry replaced. -/
def State.setView (s : State) (c : Chair) (l : Loader) (e : ViewEntry) : State :=
  { s with views := putAt s.views c (putAt s.views[c] l e) }

/-- The arguments of VIEW_ON: P in 1-16, a pattern with a bit set and none at P or more, a phase mode (R120, R143). -/
def viewArgs : List Byte → Option ViewEntry
  | [p, b1, b0, mode] =>
    let period := p.toNat
    let pattern := word16 b1 b0
    if within 1 16 period && pattern ≠ 0 && pattern.toNat < 2 ^ period && (mode = 0x01 || mode = 0x02) then
      some ⟨true, period, pattern, mode = 0x02, 0⟩
    else none
  | _ => none

/-- VIEW_ON(loader, P, pattern, phase mode) (R120). -/
def State.viewOnRequest (s : State) (c : Chair) (loader : Byte) (tag : Word16) (args : List Byte) : State :=
  let named := indexOfByte 16 loader
  if s.chairs[c].status = .absent then s.refuse c tag named .notPresent
  else
    match named, viewArgs args with
    | some l, some e =>
      if inSet s.tables.chairs[c].views l.val then (s.setView c l e).done c tag l s.auth[l].epoch
      else s.refuse c tag named .notPermitted
    | _, _ => s.refuse c tag named .badArgument

/-- VIEW_OFF(loader) (R121). -/
def State.viewOffRequest (s : State) (c : Chair) (loader : Byte) (tag : Word16) (args : List Byte) : State :=
  let named := indexOfByte 16 loader
  if s.chairs[c].status = .absent then s.refuse c tag named .notPresent
  else
    match named with
    | none => s.refuse c tag none .badArgument
    | some l =>
      if args.isEmpty then (s.setView c l { s.views[c][l] with active := false }).done c tag l s.auth[l].epoch
      else s.refuse c tag named .badArgument

/-! ## The phase generator (R124) -/

/-- One step of the shift register: the new digit, the exclusive-or of digits 0, 2, 3 and 5, enters at digit 15. -/
def phaseStep (r : Word16) : Word16 :=
  let digit := r.getLsbD 0 ^^ r.getLsbD 2 ^^ r.getLsbD 3 ^^ r.getLsbD 5
  (r >>> 1) ||| (if digit then 0x8000 else 0)

/-- One entry of the draw: an active RANDOM entry steps the generator and takes its phase (R124). -/
def State.drawOne (s : State) (c : Chair) (l : Loader) : State :=
  let e := s.views[c][l]
  if e.active && e.random then
    let r := phaseStep s.phaseGen
    { s.setView c l { e with phase := r.toNat % e.period } with phaseGen := r }
  else s

/-- The draw at a supercycle boundary, in order of chair and then of loader (R124). -/
def State.drawPhases (s : State) : State :=
  allChairs.foldl (fun s c => allLoaders.foldl (fun s l => s.drawOne c l) s) s

end Sys2Proof.Machine
end

