-- ==== Sys2Proof/Machine/Lines.lean ====
section
/-! DEFINITION. The Interlock Unit (Chapter 7): sampling and debounce, the line states, activation, acknowledgement, and
what a write to a line's entry does (R133). -/

namespace Sys2Proof.Machine

open Sys2Proof

/-- A line event's detail (R173). -/
def lineDetail (i : Line) : Word16 := wordOf i.val

/-! ## Activation (R128) -/

/-- The loaders a line's activation stands: enabled, with the current zone in the zone set or unknown (R128). -/
def State.lineReaches (s : State) (i : Line) (l : Loader) : Bool :=
  s.enabled l &&
    match s.status[l].zone with
    | some z => inSet s.tables.lines[i].zones z.val
    | none => true

/-- The line enters ACTIVE: INTERLOCK_ACTIVE, then the cause INTERLOCK to each loader in ascending number (R128). -/
def State.activate (s : State) (i : Line) : State :=
  let s := (s.setLine i { s.lines[i] with status := .active }).raise .interlockActive none none (lineDetail i)
  (allLoaders.filter (s.lineReaches i)).foldl (fun s l => s.stand l .interlock) s

/-- An ACTIVE line reaches its safe level (R127, R129). -/
def State.becomeSafe (s : State) (i : Line) : State :=
  let x := s.lines[i]
  if !x.startMark && s.tables.lines[i].latching then
    (s.setLine i { x with status := .latched }).raise .interlockLatched none none (lineDetail i)
  else
    (s.setLine i { x with status := .clear, startMark := false }).raise .interlockCleared none none (lineDetail i)

/-- The line's state moved by its settled level (R127). -/
def State.moveLine (s : State) (i : Line) : State :=
  if s.tables.lines[i].asserts s.lines[i].settled then
    if s.lines[i].status = .active then s else s.activate i
  else if s.lines[i].status = .active then s.becomeSafe i
  else s

/-! ## Sampling and debounce (R126) -/

/-- At a step of the millisecond count, the line's raw level has held for the debounce (R126). -/
def State.lineHeld (s : State) (i : Line) : Bool :=
  s.tables.lines[i].enabled && s.lines[i].raw ≠ s.lines[i].settled
    && s.tables.lines[i].debounce ≤ (s.timer.millis - s.lines[i].changed).toNat

/-- The settled level of an enabled line takes the raw level, and the line's state moves; a disabled line keeps
its settled level and moves in no way (R126, R127). -/
def State.settleLine (s : State) (i : Line) : State :=
  if s.tables.lines[i].enabled then (s.setLine i { s.lines[i] with settled := s.lines[i].raw }).moveLine i else s

/-- The instant of the next step of the millisecond count, where it is the instant last taken or the next millisecond after
it (R99); none where the sender has let the count and the cycles drift apart (log entry 4). -/
def Timer.millisInstant (t : Timer) : Option Nat :=
  let step := t.millis + 1
  if t.now % 16 = 0 ∧ step = wordOf (t.now / 16) then some t.now
  else if step = wordOf (t.now / 16 + 1) then some (16 * (t.now / 16 + 1))
  else none

/-- The timer at the instant of the next step of the millisecond count, the step not yet taken. -/
def Timer.toStep (t : Timer) : Timer :=
  match t.millisInstant with
  | some instant => t.seek instant
  | none => t

/-- The timer after a step of the millisecond count (R98, R99). -/
def Timer.stepMillis (t : Timer) : Timer := { t.toStep with millis := t.millis + 1 }

/-- The change time of a level sampled now (R126): the millisecond count, or the count of the step that falls at this very
instant and has not been taken. -/
def Timer.changeTime (t : Timer) : Word16 := if t.millisInstant = some t.now then t.millis + 1 else t.millis

/-- The sampled level of a line (R126): a level that differs from the raw level becomes it, with the change time. -/
def State.sampleLine (s : State) (i : Line) (level : Level) (changed : Word16) : State :=
  if s.lines[i].raw = level then s else s.setLine i { s.lines[i] with raw := level, changed := changed }

/-- A level sampled at the instant of the next millisecond step, ahead of it: its change time is the count of that step, which
then measures no time at all (R126). -/
def State.sampleAhead (s : State) (i : Line) (level : Level) : State :=
  { s with timer := s.timer.toStep }.sampleLine i level (s.timer.millis + 1)

/-- A step of the millisecond count (R99, R126): each enabled line with a pending level change is tested; those that have
held settle. -/
def State.stepMillis (s : State) : State :=
  let s := { s with timer := s.timer.stepMillis }
  { s with due := s.due ++ (allLines.filter s.lineHeld).map Due.lineSettle }

/-! ## Acknowledgement (R130, R131) -/

/-- A LATCHED line becomes CLEAR, and INTERLOCK_ACK is raised (R130, R131). -/
def State.acknowledge (s : State) (i : Line) (by_ : Option Chair) : State :=
  (s.setLine i { s.lines[i] with status := .clear }).raise .interlockAck none by_ (lineDetail i)

/-- LINE_ACK(line) from a chair (R130). -/
def State.lineAckRequest (s : State) (c : Chair) (tag : Word16) (args : List Byte) : State :=
  if s.chairs[c].status = .absent then s.refuse c tag none .notPresent
  else
    let line : Option Line := match args with
      | [b] => indexOfByte 8 b
      | _ => none
    match line with
    | none => s.refuse c tag none .badArgument
    | some i =>
      if !s.tables.chairs[c].supervisor then s.refuse c tag none .notPermitted
      else if s.lines[i].status ≠ .latched then s.refuse c tag none .wrongState
      else (s.doneNone c tag).acknowledge i (some c)

/-! ## Writes to a line's entry (R133) -/

/-- An enable begins the line as at power-on and enters ACTIVE (R133 part 2). Its change time is the millisecond count as it
stands when the boundary is taken: ahead of a millisecond step of the same instant that is the count before the step, where
R126 gives a sampled change the count of the step (DESIGN CHOICE, log entry 38). -/
def State.beginLine (s : State) (i : Line) : State :=
  let s := s.setLine i { s.lines[i] with
    settled := s.tables.lines[i].assertedLevel, changed := s.timer.millis, startMark := true }
  s.activate i

/-- A disable makes the line CLEAR and its start mark clear, the settled level left (R133 part 1). -/
def State.endLine (s : State) (i : Line) : State :=
  s.setLine i { s.lines[i] with status := .clear, startMark := false }

/-- The loaders that a changed zone set brings under the line: enabled, zone in the new set and not in the old (R133
part 4). -/
def State.broughtUnder (s : State) (old : LineEntry) (i : Line) (l : Loader) : Bool :=
  s.enabled l &&
    match s.status[l].zone with
    | some z => inSet s.tables.lines[i].zones z.val && !inSet old.zones z.val
    | none => false

/-- A changed zone set on a line that is ACTIVE or LATCHED (R133 part 4). -/
def State.widenLine (s : State) (old : LineEntry) (i : Line) : State :=
  if s.lines[i].status = .clear then s
  else (allLoaders.filter (s.broughtUnder old i)).foldl (fun s l => s.stand l .interlock) s

/-- A write to a line's entry is applied: the Interlock Unit acts on each change in the order of R133. Every part reads the new
entry: the move of part 3 reaches the loaders of the new zone set and latches by the new value, where the same write changes
those too (DESIGN CHOICE, log entry 34). -/
def State.applyLine (s : State) (i : Line) (e : LineEntry) : State :=
  let old := s.tables.lines[i]
  let s := { s with tables := { s.tables with lines := putAt s.tables.lines i e } }
  if !e.enabled then (if old.enabled then s.endLine i else s)
  else if !old.enabled then s.beginLine i
  else (s.moveLine i).widenLine old i

end Sys2Proof.Machine
end

