-- ==== Sys2Proof/Machine/Tables.lean ====
section
/-! DEFINITION. The Table Store (Chapter 10): what the blocks do when an entry is applied (R166, R167), the application of
a boundary, the end of commissioning (R164), and the judging of a write (R162, R163, R164, R165). -/

namespace Sys2Proof.Machine

open Sys2Proof

/-! ## One entry applied (R166) -/

/-- A deadline under a period that comes into force at the cycle start at an instant: one whose slot is slot 0 of that cycle
is due half the new period after it; every other keeps its instant (R95, R97; log entry 5). -/
def Deadline.underPeriod (d : Deadline) (origin period : Nat) : Deadline :=
  if d.slot = origin then { d with due := d.slot + 8 * period } else d

/-- A DEVICE write applied: the new period is in force (R95), windows and filters keep their newest results (R62, R113). -/
def State.applyDevice (s : State) (e : DeviceEntry) : State :=
  { s with
    tables := { s.tables with device := e }
    timer := { s.timer with period := e.period }
    deadlines := mapAll (Option.map (·.underPeriod s.timer.origin e.period)) s.deadlines
    windows := mapAll (newest e.matchLength) s.windows
    status := mapAll (fun st => { st with filter := newest e.requestLength st.filter }) s.status }

/-- A MGMT_STATIONS write applied (R164). -/
def State.applyMgmt (s : State) (i : Fin 2) (e : MgmtEntry) : State :=
  { s with tables := { s.tables with mgmt := putAt s.tables.mgmt i e } }

/-- The chair's view entries of loaders outside the set become inactive (R119). -/
def State.trimViews (s : State) (c : Chair) (set : Word16) : State :=
  let trimmed := tabulate fun l : Loader => { s.views[c][l] with active := s.views[c][l].active && inSet set l.val }
  { s with views := putAt s.views c trimmed }

/-- The engagement a narrowed permitted set ends (R167). -/
def State.narrowPermits (s : State) (c : Chair) : State :=
  match s.chairs[c].engaged with
  | none => s
  | some l => if s.permits c l then s else s.permitEnds c l

/-- A CHAIRS write applied (R41, R119, R167). A chair both disabled and changed is disabled (log entry 26). A chair that the
write makes ABSENT ends its place by R40 alone: R167 finds no engagement left, where the same write also lacks the engaged
loader (DESIGN CHOICE, log entry 35). -/
def State.applyChair (s : State) (c : Chair) (e : ChairEntry) : State :=
  let old := s.tables.chairs[c]
  let present := s.chairs[c].status ≠ .absent
  let s := { s with tables := { s.tables with chairs := putAt s.tables.chairs c e } }
  let s :=
    if present ∧ !e.enabled then s.becomeAbsent c absentDisabled
    else if present ∧ (e.station ≠ old.station ∨ e.supervisor ≠ old.supervisor) then s.becomeAbsent c absentChanged
    else s.narrowPermits c
  (s.trimViews c e.views).callWalk

/-- A disable of a STANDING loader: a retained holder is dropped with the epoch advanced, the cause becomes DISABLED, and
STAND and STAND_DISABLED follow (R12). -/
def State.disableStanding (s : State) (l : Loader) (retained : Option Chair) : State :=
  let s := match retained with
    | none => s
    | some _ => s.dropRetained l
  (s.setAuth l (.standing none .disabled)).reportStand l retained .disabled

/-- An applied disable (R12, R97, R103). -/
def State.disableLoader (s : State) (l : Loader) : State :=
  let s := match s.auth[l].state with
    | .standing retained _ => s.disableStanding l retained
    | _ => s.standEntry l .disabled
  { s.setStatus l .initial with deadlines := putAt s.deadlines l none }

/-- An applied enable: STANDING(DISABLED) becomes STANDING(START), the epoch unchanged (R12). -/
def State.enableLoader (s : State) (l : Loader) : State :=
  match s.auth[l].state with
  | .standing _ .disabled => s.setAuth l (.standing none .start)
  | _ => s

/-- A LOADERS write applied (R12, R48, R103). -/
def State.applyLoader (s : State) (l : Loader) (e : LoaderEntry) : State :=
  let old := s.tables.loaders[l]
  let s := { s with tables := { s.tables with loaders := putAt s.tables.loaders l e } }
  let s :=
    if old.enabled ∧ !e.enabled then s.disableLoader l
    else if !old.enabled ∧ e.enabled then s.enableLoader l
    else s
  (if e.priority = old.priority then s else s.resort l).callWalk

/-- A ZONES write applied: governors and beacon choices are read as they stand (R88, R134, R135). -/
def State.applyZone (s : State) (z : Zone) (e : ZoneEntry) : State :=
  { s with tables := { s.tables with zones := putAt s.tables.zones z e } }

/-- A RULES write applied (R154). -/
def State.applyRule (s : State) (i : Fin 16) (e : RuleEntry) : State :=
  { s with tables := { s.tables with rules := putAt s.tables.rules i e } }

/-- An EVENT_MAP write applied (R173). -/
def State.applyEvent (s : State) (i : Fin 64) (e : EventEntry) : State :=
  { s with tables := { s.tables with events := putAt s.tables.events i e } }

/-! ## The boundary (R166) -/

/-- Every entry of the tables. -/
def allRefs : List EntryRef :=
  [.device] ++ (List.finRange 2).map .mgmtStation ++ allChairs.map .chair ++ allLoaders.map .loader
    ++ (List.finRange 8).map .zone ++ allLines.map .line ++ (List.finRange 16).map .rule ++ (List.finRange 64).map .event

/-- The entry holds a pending write (R165). -/
def Writes.marked (w : Writes) : EntryRef → Bool
  | .device => w.device.isSome
  | .mgmtStation i => w.mgmt[i].isSome
  | .chair c => w.chairs[c].isSome
  | .loader l => w.loaders[l].isSome
  | .zone z => w.zones[z].isSome
  | .line i => w.lines[i].isSome
  | .rule i => w.rules[i].isSome
  | .event i => w.events[i].isSome

/-- How many entries hold a pending write. -/
def Writes.count (w : Writes) : Nat := (allRefs.filter w.marked).length

/-- The entry's pending write removed. -/
def Writes.clear (w : Writes) : EntryRef → Writes
  | .device => { w with device := .none }
  | .mgmtStation i => { w with mgmt := putAt w.mgmt i .none }
  | .chair c => { w with chairs := putAt w.chairs c .none }
  | .loader l => { w with loaders := putAt w.loaders l .none }
  | .zone z => { w with zones := putAt w.zones z .none }
  | .line i => { w with lines := putAt w.lines i .none }
  | .rule i => { w with rules := putAt w.rules i .none }
  | .event i => { w with events := putAt w.events i .none }

/-- The entry's pending write, if it holds one, becomes its applied value and is removed, and the owning block acts
(R166). -/
def State.applyEntry (s : State) (r : EntryRef) : State :=
  let cleared := { s with writes := s.writes.clear r }
  match r with
  | .device => match s.writes.device with
    | none => s
    | some e => cleared.applyDevice e
  | .mgmtStation i => match s.writes.mgmt[i] with
    | none => s
    | some e => cleared.applyMgmt i e
  | .chair c => match s.writes.chairs[c] with
    | none => s
    | some e => cleared.applyChair c e
  | .loader l => match s.writes.loaders[l] with
    | none => s
    | some e => cleared.applyLoader l e
  | .zone z => match s.writes.zones[z] with
    | none => s
    | some e => cleared.applyZone z e
  | .line i => match s.writes.lines[i] with
    | none => s
    | some e => cleared.applyLine i e
  | .rule i => match s.writes.rules[i] with
    | none => s
    | some e => cleared.applyRule i e
  | .event i => match s.writes.events[i] with
    | none => s
    | some e => cleared.applyEvent i e

/-- Some applied MGMT_STATIONS entry is listed (R164). -/
def Tables.someListed (t : Tables) : Bool := t.mgmt.toList.any (·.listed)

/-- Commissioning ends when a management station is listed after the applications (R164). -/
def State.endCommissioning (s : State) : State :=
  if s.tables.someListed then { s with agent := { s.agent with commissioning := false } } else s

/-- Every pending write applied: those of `order` first, in its order (R166; log entry 6). -/
def State.applyWrites (s : State) (order : List EntryRef) : State :=
  ((order ++ allRefs).foldl State.applyEntry s).endCommissioning

/-- The applications of a boundary, with TABLE_APPLIED raised once before or after them (R166, R173; log entry 6). -/
def State.tableApplied (s : State) (order : List EntryRef) (raiseFirst : Bool) : State :=
  let n := s.writes.count
  let tell (s : State) : State := if n = 0 then s else s.raise .tableApplied none none (wordOf n)
  if raiseFirst then (tell s).applyWrites order else tell (s.applyWrites order)

/-! ## Judging a write (R162) -/

/-- Response status codes (R145). -/
inductive MgmtStatus where
  | ok
  | badTable
  | badIndex
  | badValue
  | inUse
  | clash
  | busy
  | denied
  deriving DecidableEq, Repr

def MgmtStatus.code : MgmtStatus → Byte
  | .ok => 0x00
  | .badTable => 0x01
  | .badIndex => 0x02
  | .badValue => 0x03
  | .inUse => 0x04
  | .clash => 0x05
  | .busy => 0x06
  | .denied => 0x07

/-- The entry a table code and an index name, or the status of R162 checks 1 and 2. -/
def entryRef (table index : Byte) : Except MgmtStatus EntryRef :=
  let pick {n : Nat} (f : Fin n → EntryRef) : Except MgmtStatus EntryRef :=
    match indexOfByte n index with
    | none => .error .badIndex
    | some i => .ok (f i)
  if table = 0x01 then pick (n := 1) fun _ => .device
  else if table = 0x02 then pick .mgmtStation
  else if table = 0x03 then pick .chair
  else if table = 0x04 then pick .loader
  else if table = 0x05 then pick .zone
  else if table = 0x06 then pick .line
  else if table = 0x07 then pick .rule
  else if table = 0x08 then pick .event
  else .error .badTable

/-- A write in entry form that has passed the length and value checks, with the entry it is for. -/
inductive EntryWrite where
  | device (e : DeviceEntry)
  | mgmtStation (i : Fin 2) (e : MgmtEntry)
  | chair (c : Chair) (e : ChairEntry)
  | loader (l : Loader) (e : LoaderEntry)
  | zone (z : Zone) (e : ZoneEntry)
  | line (i : Line) (e : LineEntry)
  | rule (i : Fin 16) (e : RuleEntry)
  | event (i : Fin 64) (e : EventEntry)
  deriving DecidableEq, Repr

/-- The data read in the entry's form: none for a length or a value that fails checks 3 and 4 of R162. -/
def readWrite (r : EntryRef) (data : List Byte) : Option EntryWrite :=
  match r with
  | .device => (DeviceEntry.decode data).map .device
  | .mgmtStation i => (MgmtEntry.decode data).map (.mgmtStation i)
  | .chair c => (ChairEntry.decode data).map (.chair c)
  | .loader l => (LoaderEntry.decode data).map (.loader l)
  | .zone z => (ZoneEntry.decode data).map (.zone z)
  | .line i => (LineEntry.decode data).map (.line i)
  | .rule i => (RuleEntry.decode data).map (.rule i)
  | .event i => (EventEntry.decode data).map (.event i)

/-- The loader's record lets its station, port, slot and enabled flag change (R163). -/
def AuthState.unengaged : AuthState → Bool
  | .standing none _ => true
  | .standing _ .disabled => true
  | .free => true
  | _ => false

/-- Check 5: the write changes a field of an engaged loader or chair that may not change (R163). -/
def State.writeInUse (s : State) : EntryWrite → Bool
  | .loader l e =>
    let old := s.tables.loaders[l]
    (e.station ≠ old.station || e.port ≠ old.port || e.slot ≠ old.slot || e.enabled ≠ old.enabled)
      && !s.auth[l].state.unengaged
  | .chair c e =>
    let old := s.tables.chairs[c]
    (e.station ≠ old.station || e.supervisor ≠ old.supervisor) && s.chairs[c].status ≠ .absent
  | _ => false

/-- Check 6: the write gives two enabled loaders one port and slot, applied or pending (R163). -/
def State.writeClash (s : State) : EntryWrite → Bool
  | .loader l e => allLoaders.any fun j => j ≠ l &&
      (e.clashes s.tables.loaders[j] ||
        match s.writes.loaders[j] with
        | none => false
        | some w => e.clashes w)
  | _ => false

/-- The MGMT_STATIONS entry as it will be: its pending write where there is one (R164). -/
def State.mgmtToBe (s : State) (i : Fin 2) : MgmtEntry := s.writes.mgmt[i].getD s.tables.mgmt[i]

/-- Check 7: outside commissioning, no management station would be listed (R164). -/
def State.writeDenied (s : State) : EntryWrite → Bool
  | .mgmtStation i e => !s.agent.commissioning && !e.listed && !(s.mgmtToBe (if i = 0 then 1 else 0)).listed
  | _ => false

/-- The checks of R162 in order: the status that fails first, or the write. -/
def State.judgeWrite (s : State) (table index : Byte) (data : List Byte) : Except MgmtStatus EntryWrite :=
  match entryRef table index with
  | .error st => .error st
  | .ok r =>
    match readWrite r data with
    | none => .error .badValue
    | some w =>
      if s.writeInUse w then .error .inUse
      else if s.writeClash w then .error .clash
      else if s.writeDenied w then .error .denied
      else .ok w

/-- The entry's pending write, replacing any it held (R165). -/
def Writes.put (w : Writes) : EntryWrite → Writes
  | .device e => { w with device := some e }
  | .mgmtStation i e => { w with mgmt := putAt w.mgmt i (some e) }
  | .chair c e => { w with chairs := putAt w.chairs c (some e) }
  | .loader l e => { w with loaders := putAt w.loaders l (some e) }
  | .zone z e => { w with zones := putAt w.zones z (some e) }
  | .line i e => { w with lines := putAt w.lines i (some e) }
  | .rule i e => { w with rules := putAt w.rules i (some e) }
  | .event i e => { w with events := putAt w.events i (some e) }

/-- The applied entry in its form (R165). -/
def Tables.entryBytes (t : Tables) : EntryRef → List Byte
  | .device => t.device.encode
  | .mgmtStation i => t.mgmt[i].encode
  | .chair c => t.chairs[c].encode
  | .loader l => t.loaders[l].encode
  | .zone z => t.zones[z].encode
  | .line i => t.lines[i].encode
  | .rule i => t.rules[i].encode
  | .event i => t.events[i].encode

end Sys2Proof.Machine
end

