-- ==== Sys2Proof/Machine/Management.lean ====
section
/-! DEFINITION. The Management Agent (Chapter 10): the operations with their checks (R169), the data they return (R146),
the response and its place in the Response Queue (R157, R168), and the arrival of a request (R168). -/

namespace Sys2Proof.Machine

open Sys2Proof

/-- What an operation answers: the state after it, the status, and the data of an OK response (R169). -/
structure Served where
  state : State
  status : MgmtStatus
  data : List Byte
  deriving DecidableEq, Repr

/-- A response with a status other than OK carries no data, and its request changes no state (R169). -/
def State.answer (s : State) (status : MgmtStatus) : Served := ⟨s, status, []⟩

/-! ## The records (R146) -/

/-- The save state of IDENT. -/
def ConfigPhase.saving? : ConfigPhase → Bool
  | .saving _ => true
  | _ => false

/-- IDENT. -/
def State.identity (s : State) : List Byte :=
  bytes16 0x4816 ++ bytes16 s.tables.device.station ++ [byteOfBool s.agent.commissioning, byteOfBool s.config.phase.saving?]
    ++ bytes32 s.timer.number

/-- The origin code. -/
def originCode : Option Origin → Byte
  | none => 0x00
  | some (.call _) => 0x01
  | some .direct => 0x02

/-- The authority record (16 bytes). -/
def State.authorityBytes (s : State) (l : Loader) : List Byte :=
  let a := s.auth[l].state
  let cause : Byte := match a.cause with
    | none => 0
    | some cause => cause.code
  [a.code, byteOfIndex a.holder, byteOfIndex a.offeredChair, byteOfIndex a.candidate, originCode a.origin]
    ++ bytes32 (a.stamp.getD 0) ++ bytes16 (a.number.getD 0)
    ++ [byteOfIndex a.offerer, s.auth[l].epoch, cause, byteOf (a.timer.getD 0),
      flagBits a.stamp.isSome a.number.isSome false]

/-- The chair record (14 bytes). -/
def State.chairBytes (s : State) (c : Chair) : List Byte :=
  let r := s.chairs[c]
  [r.status.code, byteOfBool r.available] ++ bytes32 r.idleSince
    ++ [byteOf r.presence, byteOf r.missed, byteOfIndex r.engaged] ++ bytes16 (r.lastEnded.getD 0)
    ++ [byteOfBool r.lastEnded.isSome] ++ bytes16 s.rep.noticeSeq[c]

/-- The queue snapshot. -/
def State.queueBytes (s : State) : List Byte :=
  [byteOf s.callQueue.length] ++ s.callQueue.flatMap (fun e => [byteOf e.loader.val, byteOf e.cls] ++ bytes32 e.stamp)
    ++ [byteOf s.freeList.length] ++ s.freeList.flatMap (fun c => [byteOf c.val] ++ bytes32 s.chairs[c].idleSince)

/-- The line states and beacon levels. -/
def State.lineBytes (s : State) : List Byte :=
  allLines.flatMap (fun i =>
    let x := s.lines[i]
    [x.status.code, flagBits (x.raw = .opened) (x.settled = .opened) x.startMark])
    ++ [flagBits s.beacons[0] s.beacons[1] s.beacons[2] ||| (if s.beacons[3] then 8 else 0)]

/-- The link states. -/
def State.linkBytes (s : State) : List Byte :=
  allLoaders.flatMap fun l =>
    let st := s.status[l]
    [st.linkByte, byteOf (missedCount st.linkWindow), byteOf st.upRun, byteOf st.farEndSum, st.accepted.code,
      byteOfZone st.zone]

/-- An entry of the log (10 bytes). -/
def LogEntry.encode (e : LogEntry) : List Byte :=
  bytes32 e.cycle ++ [byteOf e.position.val, byteOf e.event.name.code.val, byteOfIndex e.event.loader,
    byteOfIndex e.event.chair] ++ bytes16 e.event.detail

/-! ## The operations (R169) -/

/-- IDENT. -/
def State.identService (s : State) (data : List Byte) : Served :=
  if data.isEmpty then ⟨s, .ok, s.identity⟩ else s.answer .badValue

/-- READ_ENTRY (R165). -/
def State.readEntryService (s : State) (table index : Byte) (data : List Byte) : Served :=
  match entryRef table index with
  | .error st => s.answer st
  | .ok r =>
    if data.isEmpty then ⟨s, .ok, [byteOfBool (s.writes.marked r)] ++ s.tables.entryBytes r⟩ else s.answer .badValue

/-- WRITE_ENTRY (R162). -/
def State.writeEntryService (s : State) (table index : Byte) (data : List Byte) : Served :=
  match s.judgeWrite table index data with
  | .error st => s.answer st
  | .ok w => ⟨{ s with writes := s.writes.put w }, .ok, []⟩

/-- READ_STATE. -/
def State.readStateService (s : State) (selector index : Byte) (data : List Byte) : Served :=
  if !data.isEmpty then s.answer .badValue
  else if selector = 0x01 then
    match indexOfByte 16 index with
    | none => s.answer .badIndex
    | some l => ⟨s, .ok, s.authorityBytes l⟩
  else if selector = 0x02 then
    match indexOfByte 8 index with
    | none => s.answer .badIndex
    | some c => ⟨s, .ok, s.chairBytes c⟩
  else if selector = 0x03 then ⟨s, .ok, s.queueBytes⟩
  else if selector = 0x04 then ⟨s, .ok, s.lineBytes⟩
  else if selector = 0x05 then ⟨s, .ok, s.linkBytes⟩
  else s.answer .badTable

/-- A counter group (R146). -/
inductive CounterGroup where
  | loader (l : Loader)
  | chair (c : Chair)
  | device
  deriving DecidableEq, Repr

/-- The group a selector and an index name, or the status of R169. -/
def counterGroup (selector index : Byte) : Except MgmtStatus CounterGroup :=
  if selector = 0x01 then
    match indexOfByte 16 index with
    | none => .error .badIndex
    | some l => .ok (.loader l)
  else if selector = 0x02 then
    match indexOfByte 8 index with
    | none => .error .badIndex
    | some c => .ok (.chair c)
  else if selector = 0x03 then .ok .device
  else .error .badTable

/-- The group's values in the order of READ_COUNTERS. -/
def Report.groupValues (r : Report) : CounterGroup → List Nat
  | .loader l => r.loaderCounts[l].toList
  | .chair c => r.chairCounts[c].toList
  | .device => r.deviceCounts.toList

/-- The warning flag judged again after a change of counters (R180). -/
def Report.judgeWarning (r : Report) : Report := { r with warning := r.anyHigh }

/-- Every counter of the group, and no other, becomes 0; the warning flag is judged again (R179, R180). -/
def Report.clearGroup (r : Report) (g : CounterGroup) : Report :=
  let r := match g with
    | .loader l => { r with loaderCounts := putAt r.loaderCounts l (Vector.replicate 8 0) }
    | .chair c => { r with chairCounts := putAt r.chairCounts c (Vector.replicate 6 0) }
    | .device => { r with deviceCounts := Vector.replicate 14 0 }
  r.judgeWarning

/-- Every counter becomes 0; the warning flag is judged again (R179, R180). -/
def Report.clearAllCounters (r : Report) : Report :=
  { r with
    loaderCounts := Vector.replicate 16 (Vector.replicate 8 0)
    chairCounts := Vector.replicate 8 (Vector.replicate 6 0)
    deviceCounts := Vector.replicate 14 0 }.judgeWarning

/-- The byte after the counter values: bit 0 FROZEN, bit 1 the warning flag (R146). -/
def Report.bankByte (r : Report) : Byte := flagBits r.frozen r.warning false

/-- READ_COUNTERS (R179). -/
def State.readCountersService (s : State) (selector index : Byte) (data : List Byte) : Served :=
  match data with
  | [flag] =>
    match counterGroup selector index with
    | .error st => s.answer st
    | .ok g =>
      if flag = 0x00 ∨ flag = 0x01 then
        let values := (s.rep.groupValues g).flatMap fun n => bytes16 (wordOf n)
        let s := if flag = 0x01 then { s with rep := s.rep.clearGroup g } else s
        ⟨s, .ok, values ++ [s.rep.bankByte]⟩
      else s.answer .badValue
  | _ => s.answer .badValue

/-- COUNTER_CONTROL (R179): 0x01 FREEZE, 0x02 UNFREEZE, 0x03 CLEAR_ALL. -/
def State.counterControlService (s : State) (data : List Byte) : Served :=
  match data with
  | [action] =>
    if action = 0x01 then ⟨{ s with rep := { s.rep with frozen := true } }, .ok, []⟩
    else if action = 0x02 then ⟨{ s with rep := { s.rep with frozen := false } }, .ok, []⟩
    else if action = 0x03 then ⟨{ s with rep := s.rep.clearAllCounters }, .ok, []⟩
    else s.answer .badValue
  | _ => s.answer .badValue

/-- READ_LOG(n) (R175). -/
def State.readLogService (s : State) (n : Byte) (data : List Byte) : Served :=
  if !data.isEmpty then s.answer .badValue
  else if within 1 8 n.toNat then
    let read := s.rep.log.take n.toNat
    let s' := { s with rep := { s.rep with log := s.rep.log.drop n.toNat, overflow := false } }
    ⟨s', .ok, [byteOf read.length, byteOfBool s.rep.overflow] ++ read.flatMap LogEntry.encode⟩
  else s.answer .badIndex

/-- ATTN_CLEAR (R176). -/
def State.attnClearService (s : State) (data : List Byte) : Served :=
  if data.isEmpty then ⟨{ s with rep := { s.rep with attn := false } }, .ok, []⟩ else s.answer .badValue

/-- LINE_ACK of a management station (R131). -/
def State.mgmtLineAckService (s : State) (line : Byte) (data : List Byte) : Served :=
  if !data.isEmpty then s.answer .badValue
  else
    match indexOfByte 8 line with
    | none => s.answer .badIndex
    | some i => if s.lines[i].status = .latched then ⟨s.acknowledge i none, .ok, []⟩ else s.answer .badValue

/-- RESET_AUTHORITY (R170): the reset mark is set. -/
def State.resetAuthorityService (s : State) (data : List Byte) : Served :=
  if data.isEmpty then ⟨{ s with agent := { s.agent with resetMark := true } }, .ok, []⟩ else s.answer .badValue

/-- SAVE_CONFIG (R172): a snapshot of the applied tables is taken. -/
def State.saveConfigService (s : State) (data : List Byte) : Served :=
  if !data.isEmpty then s.answer .badValue
  else
    match s.config.phase with
    | .idle => ⟨{ s with config := { s.config with phase := .saving s.tables } }, .ok, []⟩
    | _ => s.answer .busy

/-- A request carried out by its operation code (R145, R169). -/
def State.carryOut (s : State) (r : MgmtRequest) : Served :=
  if r.operation = 0x01 then s.identService r.data
  else if r.operation = 0x02 then s.readEntryService r.selector r.index r.data
  else if r.operation = 0x03 then s.writeEntryService r.selector r.index r.data
  else if r.operation = 0x04 then s.readStateService r.selector r.index r.data
  else if r.operation = 0x05 then s.readCountersService r.selector r.index r.data
  else if r.operation = 0x06 then s.counterControlService r.data
  else if r.operation = 0x07 then s.readLogService r.index r.data
  else if r.operation = 0x08 then s.attnClearService r.data
  else if r.operation = 0x09 then s.mgmtLineAckService r.index r.data
  else if r.operation = 0x0A then s.resetAuthorityService r.data
  else if r.operation = 0x0B then s.saveConfigService r.data
  else s.answer .badValue

/-! ## The response (R145, R168) -/

/-- The MGMT_RESPONSE frame. -/
def responseFrame (station : Word16) (r : MgmtRequest) (status : MgmtStatus) (data : List Byte) : Frame where
  kind := kindMgmtResponse
  header := ⟨0, station, r.source, 0xFF, 0, r.sequence⟩
  payload := [r.operation] ++ bytes16 r.tag ++ [r.selector, r.index, status.code] ++ data

/-- The Response Queue's capacity (R157). -/
def responseCapacity : Nat := 4

/-- A finished response is placed on the Response Queue, or waits with the Agent while it is full (R157). -/
def State.placeResponse (s : State) (f : Frame) : State :=
  if s.responses.length < responseCapacity then { s with responses := s.responses ++ [f] }
  else { s with agent := { s.agent with response := some f } }

/-- The request the Agent has in service replaced. -/
def State.setInService (s : State) (r : Option MgmtRequest) : State := { s with agent := { s.agent with inService := r } }

/-- A request taken into service, carried out and answered, all in one event (R168). -/
def State.serve (s : State) (r : MgmtRequest) : State :=
  let served := (s.setInService (some r)).carryOut r
  let frame := responseFrame served.state.tables.device.station r served.status served.data
  (served.state.setInService none).placeResponse frame

/-- Waiting requests are taken into service, oldest first, until a response waits (R168). -/
def State.serveWaiting : List MgmtRequest → State → State
  | [], s => { s with agent := { s.agent with waiting := [] } }
  | r :: rest, s =>
    if s.agent.response.isSome then { s with agent := { s.agent with waiting := r :: rest } }
    else State.serveWaiting rest (s.serve r)

/-- The list's capacity (R168). -/
def waitingCapacity : Nat := 4

/-- The Agent is idle (R168). -/
def Agent.idle (a : Agent) : Bool := a.inService.isNone && a.waiting.isEmpty && a.response.isNone

/-- A dispatched MGMT_REQUEST (R168): served at once, put in the list, or dropped and counted. -/
def State.mgmtArrival (s : State) (r : MgmtRequest) : State :=
  if s.agent.idle then s.serve r
  else if s.agent.waiting.length < waitingCapacity then
    { s with agent := { s.agent with waiting := s.agent.waiting ++ [r] } }
  else s.count (.device mgmtDrops)

/-- The transmitter has taken a response: the waiting one is placed, and the Agent goes on (R157). -/
def State.responseTaken (s : State) : State :=
  match s.agent.response with
  | none => s
  | some f =>
    let s := { s with responses := s.responses ++ [f], agent := { s.agent with response := none } }
    State.serveWaiting s.agent.waiting s

end Sys2Proof.Machine
end

