-- ==== Sys2Proof/Machine/Classifier.lean ====
section
/-! DEFINITION. The ports' receive checks and the Frame Classifier (Chapter 9): the kind test, the source test, the match
rules and dispatch. -/

namespace Sys2Proof.Machine

open Sys2Proof

/-! ## Frames of the structured rows -/

/-- A CHAIR_REQUEST frame (R143). -/
def requestFrame (h : Header) (code : Byte) (tag : Word16) (args : List Byte) : Frame :=
  ⟨kindChairRequest, h, code :: bytes16 tag ++ args⟩

/-- A MGMT_REQUEST frame (R145). -/
def mgmtFrame (h : Header) (operation : Byte) (tag : Word16) (selector index : Byte) (data : List Byte) : Frame :=
  ⟨kindMgmtRequest, h, operation :: bytes16 tag ++ [selector, index] ++ data⟩

/-- The management request of a MGMT_REQUEST frame's header and payload fields (R145). -/
def mgmtRequestOf (h : Header) (operation : Byte) (tag : Word16) (selector index : Byte) (data : List Byte) :
    MgmtRequest :=
  ⟨h.source, h.sequence, operation, tag, selector, index, data⟩

/-! ## Receive checks (R150) -/

/-- The load has ended (R171). -/
def State.running (s : State) : Bool := s.config.phase ≠ .loading

/-- A port's FRAMING_ERRORS. -/
def State.framingError (s : State) (p : Port) : State := s.count (.device (framingErrors p))

/-- A port's CHECK_ERRORS. -/
def State.checkError (s : State) (p : Port) : State := s.count (.device (checkErrors p))

/-- A frame that passes the check word arrives on a port whose link is UP: one whose payload is longer than a frame
carries is a framing error, any other goes to the Frame Classifier (R137, R149, R150; log entry 17). -/
def State.arrival (s : State) (p : Port) (f : Frame) (classify : State → State) : State :=
  if !s.linkIsUp p then s
  else if maxPayload < f.payload.length then s.framingError p
  else classify s

/-! ## Source test (R152, R153) -/

/-- The enabled chair with this station, the lowest-numbered where two share it (R152). -/
def State.chairOf (s : State) (station : Word16) : Option Chair :=
  if stationValid station then
    allChairs.find? fun c => s.tables.chairs[c].enabled && s.tables.chairs[c].station = station
  else none

/-- The loader a STATUS frame is from: named in the header, with this station, on this port (R152). -/
def State.loaderOf (s : State) (p : Port) (h : Header) : Option Loader :=
  match indexOfByte 16 h.loader with
  | none => none
  | some l =>
    if stationValid h.source && s.tables.loaders[l].station = h.source && s.tables.loaders[l].port.toPort = p then some l
    else none

/-- A MGMT_REQUEST from this station is admitted (R153). -/
def State.mgmtAdmitted (s : State) (station : Word16) : Bool :=
  stationValid station &&
    (s.agent.commissioning || s.tables.mgmt.toList.any fun e => e.listed && e.station = station)

/-! ## Match rules (R154, R155) -/

/-- A key matches: equal on every bit set in the mask (R154). -/
def keyMatches {w : Nat} (frame value mask : BitVec w) : Bool := frame &&& mask = value &&& mask

/-- The request code key of a frame (R154). -/
def requestCodeOf (f : Frame) : Byte :=
  if f.kind = kindChairRequest ∨ f.kind = kindMgmtRequest then f.payload.headD 0 else 0

/-- A rule in use matches a frame on all five keys (R154). -/
def RuleEntry.covers (r : RuleEntry) (f : Frame) : Bool :=
  r.inUse && keyMatches f.kind r.kind r.kindMask && keyMatches f.header.flags r.flags r.flagsMask
    && keyMatches f.header.source r.source r.sourceMask && keyMatches f.header.loader r.loader r.loaderMask
    && keyMatches (requestCodeOf f) r.code r.codeMask

/-- STOP, of either scope, is not compared (R155). -/
def ruleExempt (f : Frame) : Bool := f.kind = kindChairRequest && requestCodeOf f = 0x17

/-- The deciding rule: the first in use that matches (R154). -/
def State.decidingRule (s : State) (f : Frame) : Option (Fin 16) :=
  if ruleExempt f then none else (List.finRange 16).find? fun i => s.tables.rules[i].covers f

/-- The Match Rule Table, for a frame from a chair or from none: PASS dispatches, PASS_LOG raises RULE_HIT and dispatches,
DROP discards and counts (R155). -/
def State.throughRules (s : State) (f : Frame) (chair : Option Chair) (dispatch : State → State) : State :=
  match s.decidingRule f with
  | none => dispatch s
  | some i =>
    match s.tables.rules[i].action with
    | .pass => dispatch s
    | .drop => s.count (.device ruleDrops)
    | .passLog => dispatch (s.raise .ruleHit (indexOfByte 16 f.header.loader) chair (wordOf i.val))

/-! ## Dispatch (R156) -/

/-- A COMMAND or CHAIR_REQUEST: source test, match rules, presence refreshed, then the owner (R37, R152, R156). -/
def State.fromChair (s : State) (f : Frame) (owner : State → Chair → State) : State :=
  match s.chairOf f.header.source with
  | none => s.count (.device unknownSource)
  | some c => s.throughRules f (some c) fun s => owner (s.refreshPresence c) c

/-- A STATUS: source test, match rules, then the Status Unit (R104, R152, R156). -/
def State.fromLoader (s : State) (p : Port) (f : Frame) (owner : State → Loader → State) : State :=
  match s.loaderOf p f.header with
  | none => s.count (.device unknownSource)
  | some l => s.throughRules f none fun s => owner s l

/-- A MGMT_REQUEST: source test, match rules, then the Management Agent (R153, R156, R168). -/
def State.fromStation (s : State) (f : Frame) (r : MgmtRequest) : State :=
  if s.mgmtAdmitted f.header.source then s.throughRules f none fun s => s.mgmtArrival r
  else s.count (.device mgmtDenied)

/-- The owner of a CHAIR_REQUEST code (R143, R156). -/
def State.chairRequest (s : State) (c : Chair) (loader code : Byte) (tag : Word16) (args : List Byte) : State :=
  if code = 0x01 then s.presentRequest c tag args
  else if code = 0x02 then s.leaveRequest c tag args
  else if code = 0x10 then s.takeRequest c loader tag args
  else if code = 0x11 then s.offerRequest c loader tag args
  else if code = 0x12 then s.acceptRequest c loader tag args
  else if code = 0x13 then s.declineRequest c loader tag args
  else if code = 0x14 then s.cancelRequest c loader tag args
  else if code = 0x15 then s.releaseRequest c loader tag args
  else if code = 0x16 then s.recoverRequest c loader tag args
  else if code = 0x17 then s.stopRequest c loader tag args
  else if code = 0x20 then s.viewOnRequest c loader tag args
  else if code = 0x21 then s.viewOffRequest c loader tag args
  else if code = 0x30 then s.lineAckRequest c tag args
  else s.unknownRequest c loader tag

/-- A kind is admitted on a port (R151). -/
def kindAdmitted (p : Port) (kind : Byte) : Bool :=
  match p with
  | .surface => kind = kindCommand || kind = kindChairRequest || kind = kindMgmtRequest
  | .levelA => kind = kindStatus
  | .levelB => kind = kindStatus

/-- The Frame Classifier (R151-R156). A well-formed frame has the payload bytes its kind needs (R137). -/
def State.classify (s : State) (p : Port) (f : Frame) : State :=
  if !kindAdmitted p f.kind then s.count (.device wrongPort)
  else if f.kind = kindStatus then
    s.fromLoader p f fun s l =>
      match statusOfBytes f.payload with
      | some payload => s.statusFrame l f.header payload
      | none => s
  else if f.kind = kindCommand then
    s.fromChair f fun s c =>
      match commandOfBytes f.payload with
      | some payload => s.commandFrameFrom c f.header payload
      | none => s
  else if f.kind = kindChairRequest then
    s.fromChair f fun s c =>
      match f.payload with
      | code :: t1 :: t0 :: args => s.chairRequest c f.header.loader code (word16 t1 t0) args
      | _ => s
  else
    match f.payload with
    | operation :: t1 :: t0 :: selector :: index :: data =>
      s.fromStation f (mgmtRequestOf f.header operation (word16 t1 t0) selector index data)
    | _ => s

/-- A burst judged at its last byte (R149, R150). -/
def State.receiveBurst (s : State) (p : Port) (burst : List Byte) : State :=
  if !s.linkIsUp p then s
  else
    match judgeBurst s.tables.device.marker burst with
    | .framingError => s.framingError p
    | .checkError => s.checkError p
    | .good f => s.classify p f

end Sys2Proof.Machine
end

