-- ==== Sys2Proof/Machine/Startup.lean ====
section
/-! DEFINITION. Power-on, the end of the load and of a save (R171, R172), the authority reset (R32, R170), the cycle start
(R94), and the S-port transmitter (R158). -/

namespace Sys2Proof.Machine

open Sys2Proof

/-! ## Power-on and the configuration memory (R171, R172) -/

/-- Power-on (R171): the strap is sampled and the load begins; with CFGOFF set it ends at once. The inputs keep their
levels, the sender its queue. -/
def State.powerOn (s : State) (cfgoff : Bool) : State :=
  { State.powerOnValues .empty false ⟨.loading, cfgoff⟩ s.linePins s.portSignal with
    due := if cfgoff then [.loadEnd] else []
    choices := s.choices
    pending := s.pending }

/-- Every block takes its power-on values over the tables the load applied (R171). -/
def State.startFrom (s : State) (t : Tables) (commissioning : Bool) : State :=
  { State.powerOnValues t commissioning ⟨.idle, s.config.cfgoff⟩ s.linePins s.portSignal with
    choices := s.choices
    pending := s.pending }

/-- The end of the load (R171, R164). With CFGOFF set what the memory would answer is not read. -/
def State.loadEnd (s : State) (read : MemoryRead) : State :=
  if s.config.cfgoff then s.startFrom .empty true
  else
    match judgeImage read with
    | .inl t => s.startFrom t (!t.someListed)
    | .inr reason => (s.startFrom .empty true).raise .configBad none none (wordOf reason)

/-- The end of a save (R172): the read-back is compared with the image of the snapshot. -/
def State.saveEnd (s : State) (read : MemoryRead) : State :=
  match s.config.phase with
  | .saving snapshot =>
    let s := { s with config := { s.config with phase := .idle } }
    match read with
    | .noAnswer => s.raise .configSaveFailed none none 0xFFFF
    | .bytes back =>
      match firstDifference snapshot.image back 0 with
      | none => s.raise .configSaved
      | some position => s.raise .configSaveFailed none none (wordOf position)
  | _ => s

/-! ## The authority reset (R32, R35, R70, R92, R119, R170) -/

/-- The record of a loader at the reset (R32). -/
def AuthRecord.afterReset (enabled : Bool) (a : AuthRecord) : AuthRecord :=
  if enabled then ⟨.standing none .reset, a.epoch + 1⟩ else a

/-- The authority reset carried out (R170). Pending deadlines stay (R93), so a loader of slots 8-15 may leave RESET by R10 at
one that falls before its next slot, whose frame is then neutral, where R92 speaks of a stand frame (DESIGN CHOICE, log entry
33). -/
def State.authorityReset (s : State) : State :=
  let s := { s with
    auth := tabulate fun l => s.auth[l].afterReset (s.enabled l)
    builders := mapAll Builder.emptied s.builders
    windows := Vector.replicate 16 []
    chairs := mapAll ChairState.gone s.chairs
    views := mapAll (mapAll fun e : ViewEntry => { e with active := false }) s.views
    callQueue := []
    freeList := []
    agent := { s.agent with resetMark := false } }
  s.raise .authorityReset

/-! ## The cycle start (R94) -/

/-- The new cycle is a supercycle boundary (R94). -/
def Timer.boundary (t : Timer) : Bool := t.number.toNat % 16 = 0

/-- The instant of the next cycle start (R94). -/
def Timer.nextStart (t : Timer) : Nat := t.origin + 16 * t.period

/-- The timer at a cycle start (R94, R95). -/
def Timer.nextCycle (t : Timer) : Timer :=
  { t with number := t.number + 1, position := 0, origin := t.nextStart, now := t.nextStart }

/-- The actions of a cycle start that are rows of their own, to be taken in any order (R94, R100, R101, R124). -/
def State.cycleDue (s : State) (drawFirst : Bool) : List Due :=
  (allChairs.filter s.presenceOut).map .presenceExpiry
    ++ (if s.agent.resetMark then [.authorityReset] else [])
    ++ (if s.timer.boundary then [.tableApplied] ++ (if drawFirst then [] else [.phaseDraw]) else [])

/-- A cycle start: the timer, the presence counts (R38, R94), and the phase draw of a boundary where it is taken before the
boundary's applications (R124). -/
def State.cycleStart (s : State) (drawFirst : Bool) : State :=
  let s := { s with timer := s.timer.nextCycle }.stepPresence
  let s := if s.timer.boundary && drawFirst then s.drawPhases else s
  { s with due := s.due ++ s.cycleDue drawFirst }

/-! ## S-port transmission (R157, R158) -/

/-- The transmitter is idle, a queue holds a frame, and the event that placed it is over, a cycle start's with the last of its
actions (R158; log entry 39). -/
def State.canTake (s : State) : Bool :=
  s.sending.isNone && !(s.rep.notices.isEmpty && s.responses.isEmpty && s.forwards.isEmpty) && !s.cycleStarting

/-- A frame taken from its queue begins to leave, or is discarded while the link is DOWN (R158). -/
def State.surfaceSend (s : State) (f : Frame) : State :=
  if s.linkIsUp .surface then { s with sending := some ⟨s.tables.device.marker, f⟩ } else s

/-- The transmitter takes the oldest frame of the first non-empty queue: Notice, Response, Forward (R158). -/
def State.takeFrame (s : State) : State :=
  match s.rep.notices with
  | f :: rest => { s with rep := { s.rep with notices := rest } }.surfaceSend f
  | [] =>
    match s.responses with
    | f :: rest => ({ s with responses := rest }.surfaceSend f).responseTaken
    | [] =>
      match s.forwards with
      | f :: rest => { s with forwards := rest }.surfaceSend f
      | [] => s

/-- Takes one after the other, until the transmitter is busy or the queues are empty. -/
def State.takesN : Nat → State → State
  | 0, s => s
  | n + 1, s => if s.canTake then State.takesN n s.takeFrame.finish else s

/-- More takes than can come together: one for each frame in the queues, and the response and the notices of each request the
Agent goes on with. -/
def State.takesFuel (s : State) : Nat :=
  64 + s.rep.notices.length + s.responses.length + s.forwards.length + 32 * s.agent.waiting.length

/-- The transmitter's takes that follow an event: one while the link is UP, and while it is DOWN as many as the queues hold, so
that they empty as fast as frames are placed (R158). Nothing else comes between an event and these (log entry 3). -/
def State.takes (s : State) : State := State.takesN s.takesFuel s

/-- A transmission ends: the transmitter is idle (R158). -/
def State.transmissionEnd (s : State) : State := { s with sending := none }

/-! ## Port links (R149) -/

/-- The line signal of a port's link. -/
def State.setSignal (s : State) (p : Port) (signal : Bool) : State :=
  { s with portSignal := putAt s.portSignal (Port.index p) signal }

/-- The link state of a port. -/
def State.setLink (s : State) (p : Port) (up : Bool) : State := { s with portUp := putAt s.portUp (Port.index p) up }

/-- A port comes UP (R149). -/
def State.portComesUp (s : State) (p : Port) : State :=
  if s.linkIsUp p then s else (s.setLink p true).raise .portLinkUp none none (wordOf (Port.index p).val)

/-- The frame a port is sending is lost (R158, R159). -/
def State.loseFrame (s : State) (p : Port) : State :=
  match p with
  | .surface => { s with sending := none }
  | .levelA => { s with lSending := putAt s.lSending 0 none }
  | .levelB => { s with lSending := putAt s.lSending 1 none }

/-- A port goes DOWN: the burst being received is judged as the bytes received (R149), which is an event of its own that the
transmitter's take follows (R158); then the link state changes and the frame being sent is lost (R158, R159). -/
def State.portGoesDown (s : State) (p : Port) (cut : Option (List Byte)) : State :=
  if s.linkIsUp p then
    let s := match cut with
      | none => s
      | some burst => (s.receiveBurst p burst).finish.takes
    ((s.setLink p false).loseFrame p).raise .portLinkDown none none (wordOf (Port.index p).val)
  else s

end Sys2Proof.Machine
end

