-- ==== Sys2Proof/Machine/Settle.lean ====
section
/-! DEFINITION. The events of one instant that the sender has not commanded (log entries 1 and 3): each is taken, in an
order that a free value chooses, before the sender's next command outside the instant. The rest of an event, what follows from
it, and the transmitter's take after it (R158), come ahead of every other event. -/

namespace Sys2Proof.Machine

open Sys2Proof

/-- What an event of the present instant does, by its rule. -/
def State.dueBody (s : State) : Due → State
  | .loadEnd => s.loadEnd .noAnswer
  | .presenceExpiry c => s.presenceExpiry c
  | .authorityReset => s.authorityReset
  | .tableApplied =>
    { s.tableApplied (Config.applyOrder s.choices) (Config.raiseFirst s.choices) with choices := s.choices + 1 }
  | .phaseDraw => s.drawPhases
  | .statusDeadline l => s.deadline l
  | .linkDown l => s.linkDownTest l
  | .linkUp l => s.linkUpTest l
  | .loaderReady l => s.readyTest l
  | .offerExpiry l => s.offerExpiry l
  | .matchTimeout l => s.matchTimeout l
  | .releaseTimeout l => s.releaseTimeout l
  | .lineSettle i => s.settleLine i

/-- An event of the present instant is no longer waiting. -/
def State.undue (s : State) (d : Due) : State := { s with due := s.due.erase d }

/-- A whole row: its effects, the walk its event called for unless the event goes on (`State.finish`), the beacons. -/
def State.takeDue (s : State) (d : Due) : State := ((s.undue d).dueBody d).finish

/-- What comes ahead of every other event of the instant, once what it follows from has been taken (log entry 1): the actions of
a cycle start, one event with it (R166; log entry 39), and what follows from a status deadline or a millisecond step: the link
test (R116, R117), what the Authority Table does at the deadline (R10, R18, R26, R66), the settling of a line (R126, R127). So a
slot taken after the deadline finds it done (R84, R89). -/
def Due.follows : Due → Bool
  | .loadEnd => false
  | .presenceExpiry _ => true
  | .authorityReset => true
  | .tableApplied => true
  | .phaseDraw => true
  | .statusDeadline _ => false
  | .linkDown _ => true
  | .linkUp _ => true
  | .loaderReady _ => true
  | .offerExpiry _ => true
  | .matchTimeout _ => true
  | .releaseTimeout _ => true
  | .lineSettle _ => true

/-- What still follows from the cycle start, deadline or step last taken. -/
def State.following (s : State) : List Due := s.due.filter Due.follows

/-- The events of the present instant of which one comes next: what follows from the last, else any (log entry 1). -/
def State.nextDue (s : State) : List Due := if s.following.isEmpty then s.due else s.following

/-- One of the given events, which a free value chooses where there are several. -/
def State.takeOne (s : State) : List Due → State
  | [] => s
  | [d] => s.takeDue d
  | d :: rest =>
    { s with choices := s.choices + 1 }.takeDue
      ((d :: rest).getD (Config.dueChoice s.choices % (rest.length + 1)) d)

/-- Events taken one by one, the transmitter's takes after each (R158), until there is none left to choose from. -/
def State.settleN (events : State → List Due) : Nat → State → State
  | 0, s => s.takes
  | n + 1, s =>
    let s := s.takes
    if (events s).isEmpty then s else State.settleN events n (s.takeOne (events s))

/-- More events than settling can take: each that waits brings at most two more. -/
def State.settleFuel (s : State) : Nat := 4 * s.due.length

/-- The last event is brought to its end: the transmitter's takes, and what follows from the event. -/
def State.conclude (s : State) : State := State.settleN State.following s.settleFuel s

/-- Every event of the present instant is taken. -/
def State.settle (s : State) : State := State.settleN State.nextDue s.settleFuel s

/-- A command of the sender outside the present instant's events: they are taken first; while the load is in flight the
command has no effect (R93, R150, R171; log entry 23). -/
def State.run (s : State) (body : State → State) : State :=
  let s := s.settle
  if s.running then (body s).finish else s

/-- The part comes to the instant of a command, where it has one. At the instant last taken the last event is brought to its
end, and the other events that wait there go on waiting, to be taken in any order with the command (R89, R97); at any other
instant they are taken first (log entry 3). -/
def State.arriveAt (s : State) (instant : Option Nat) : State :=
  if s.running && instant = some s.timer.now then s.conclude else s.settle

/-- A command at an instant it gives, where it gives one; while the load is in flight it has no effect. -/
def State.runAt (s : State) (instant : State → Option Nat) (body : State → State) : State :=
  let s := s.arriveAt (instant s)
  if s.running then (body s).finish else s

/-- What comes ahead of an event of the present instant: the takes of the transmitter, which come within no cycle start, and,
unless the event itself follows from the last one, all that does. -/
def State.upTo (s : State) (d : Due) : State := if d.follows then s.takes else s.conclude

/-- A command that is one of the present instant's events: it has an effect where that event waits (log entry 1). -/
def State.runDue (s : State) (d : Due) (body : State → State) : State :=
  if d ∈ s.due then (body ((s.upTo d).undue d)).finish else s

end Sys2Proof.Machine
end

