-- ==== Sys2Proof/Machine/Events.lean ====
section
/-! DEFINITION. The meanings of the commands that carry no frame: power-on, the configuration memory, the Cycle Timer's
instants, the interlock lines, the port links and the S-port transmitter. -/

namespace Sys2Proof.Machine

open Sys2Proof

/-! ## Start-up and save -/

/-- POWER_ON (R171). -/
def execPowerOn (cfgoff : Bool) (s : State) : Host.Outcome State Fault Refusal := .next (s.powerOn cfgoff)

/-- LOAD_END (R171): it has an effect while LOADING (log entry 23). -/
def execLoadEnd (read : MemoryRead) (s : State) : Host.Outcome State Fault Refusal :=
  .next (if s.running then s else (s.loadEnd read).finish)

/-- SAVE_END (R172). -/
def execSaveEnd (read : MemoryRead) (s : State) : Host.Outcome State Fault Refusal := .next (s.run (·.saveEnd read))

/-! ## Cycles, slots and deadlines -/

/-- CYCLE_START (R94). With `drawFirst` a boundary draws the phases before its applications; without it the draw waits
with the boundary's other events (R124). -/
def execCycleStart (drawFirst : Bool) (s : State) : Host.Outcome State Fault Refusal :=
  .next (s.runAt (fun s => some s.timer.nextStart) (·.cycleStart drawFirst))

/-- TABLE_APPLIED (R166), where the boundary's applications wait. A phase draw that still waits follows them (R124). -/
def execTableApplied (order : List EntryRef) (raiseFirst : Bool) (s : State) : Host.Outcome State Fault Refusal :=
  .next (s.runDue .tableApplied fun s =>
    let s := s.tableApplied order raiseFirst
    if .phaseDraw ∈ s.due then (s.undue .phaseDraw).drawPhases else s)

/-- SLOT_EVENT (R76, R96). -/
def execSlotEvent (port : LevelPort) (slot : SlotTime) (s : State) : Host.Outcome State Fault Refusal :=
  .next (s.runAt (fun s => some (s.timer.slotInstant slot)) (·.slotAt port slot))

/-- STAND_STALE (R77): the slot event of a loader whose mailbox goes stale there (log entry 24). -/
def execStandStale (slot : LoaderSlot) (s : State) : Host.Outcome State Fault Refusal :=
  .next (s.runAt (fun s => some (s.timer.slotInstant slot.slot)) (·.staleSlot slot))

/-- The slot at the given slot time is a slot of the loader that is still to come and follows that of its pending deadline: a
later one, or, of a loader moved between the ports at slot 0, that of its new port at the same instant (R96, R97). -/
def State.bringsForward (s : State) (l : Loader) (d : Deadline) (k : SlotTime) : Bool :=
  let instant := s.timer.slotInstant k
  s.atSlot l k && decide (s.timer.now ≤ instant)
    && (decide (d.slot < instant) || d.slot = instant && d.port ≠ s.tables.loaders[l].port)

/-- The instant at which a pending deadline falls: its own, or, ahead of the slot event that brings it forward, the instant of
that slot, where that is sooner (R97). Which slot event is the loader's next is the sender's to say (log entry 37). -/
def State.fallInstant (s : State) (f : DeadlineFall) : Option Nat :=
  s.deadlines[f.loader].map fun d =>
    match f.aheadOf with
    | some k => if s.bringsForward f.loader d k then min d.due (s.timer.slotInstant k) else d.due
    | none => d.due

/-- The pending deadline falls (R97, R98). -/
def State.pendingDeadline (s : State) (f : DeadlineFall) : State :=
  match s.fallInstant f with
  | some instant => ({ s with deadlines := putAt s.deadlines f.loader none }.seek instant).deadline f.loader
  | none => s

/-- STATUS_DEADLINE (R97, R115): one that a slot event taken before it brought forward, or the pending one. -/
def execStatusDeadline (loader : DeadlineFall) (s : State) : Host.Outcome State Fault Refusal :=
  .next (if .statusDeadline loader.loader ∈ s.due then s.runDue (.statusDeadline loader.loader) (·.deadline loader.loader)
    else s.runAt (·.fallInstant loader) (·.pendingDeadline loader))

/-- LINK_DOWN (R116). -/
def execLinkDown (loader : Loader) (s : State) : Host.Outcome State Fault Refusal :=
  .next (s.runDue (.linkDown loader) (·.linkDownTest loader))

/-- LINK_UP (R117). -/
def execLinkUp (loader : Loader) (s : State) : Host.Outcome State Fault Refusal :=
  .next (s.runDue (.linkUp loader) (·.linkUpTest loader))

/-- LOADER_READY (R10). -/
def execLoaderReady (loader : Loader) (s : State) : Host.Outcome State Fault Refusal :=
  .next (s.runDue (.loaderReady loader) (·.readyTest loader))

/-- OFFER_EXPIRY (R18). -/
def execOfferExpiry (loader : Loader) (s : State) : Host.Outcome State Fault Refusal :=
  .next (s.runDue (.offerExpiry loader) (·.offerExpiry loader))

/-- MATCH_TIMEOUT (R66). -/
def execMatchTimeout (loader : Loader) (s : State) : Host.Outcome State Fault Refusal :=
  .next (s.runDue (.matchTimeout loader) (·.matchTimeout loader))

/-- RELEASE_TIMEOUT (R26). -/
def execReleaseTimeout (loader : Loader) (s : State) : Host.Outcome State Fault Refusal :=
  .next (s.runDue (.releaseTimeout loader) (·.releaseTimeout loader))

/-- PRESENCE_EXPIRY (R38). -/
def execPresenceExpiry (chair : Chair) (s : State) : Host.Outcome State Fault Refusal :=
  .next (s.runDue (.presenceExpiry chair) (·.presenceExpiry chair))

/-- AUTHORITY_RESET (R170). -/
def execAuthorityReset (s : State) : Host.Outcome State Fault Refusal :=
  .next (s.runDue .authorityReset (·.authorityReset))

/-- MILLISECOND_STEP (R99, R126). -/
def execMillisecondStep (s : State) : Host.Outcome State Fault Refusal :=
  .next (s.runAt (·.timer.millisInstant) (·.stepMillis))

/-! ## Interlock lines -/

/-- The level of a loop at its pin. -/
def State.setPin (s : State) (i : Line) (level : Level) : State := { s with linePins := putAt s.linePins i level }

/-- LINE_LEVEL_CHANGE (R126). While the load is in flight the pin alone changes. -/
def execLineLevelChange (line : Line) (level : LevelChange) (s : State) : Host.Outcome State Fault Refusal :=
  let s := (s.arriveAt (if level.aheadOfStep then s.timer.millisInstant else none)).setPin line level.level
  .next (if !s.running then s
    else if level.aheadOfStep then (s.sampleAhead line level.level).finish
    else (s.sampleLine line level.level s.timer.changeTime).finish)

/-- LINE_SETTLE (R127). -/
def execLineSettle (line : Line) (s : State) : Host.Outcome State Fault Refusal :=
  .next (s.runDue (.lineSettle line) (·.settleLine line))

/-! ## Port links and the S-port transmitter -/

/-- PORT_LINK_UP (R149). While the load is in flight the signal alone changes. -/
def execPortLinkUp (port : Port) (s : State) : Host.Outcome State Fault Refusal :=
  let s := s.settle.setSignal port true
  .next (if s.running then (s.portComesUp port).finish else s)

/-- PORT_LINK_DOWN (R149), with the burst the loss of the signal cuts off. -/
def execPortLinkDown (port : Port) (cut : Option (List Byte)) (s : State) : Host.Outcome State Fault Refusal :=
  let s := s.settle.setSignal port false
  .next (if s.running then (s.portGoesDown port cut).finish else s)

/-- S_PORT_TAKE (R158). -/
def execSPortTake (s : State) : Host.Outcome State Fault Refusal :=
  .next (if s.canTake then s.takeFrame.finish else s)

/-- S_PORT_TRANSMISSION_END (R158). -/
def execSPortTransmissionEnd (s : State) : Host.Outcome State Fault Refusal := .next (s.run (·.transmissionEnd))

end Sys2Proof.Machine
end

