-- ==== Sys2Proof/Machine/Frames.lean ====
section
/-! DEFINITION. The meanings of the commands that carry a frame: BURST_RECEIVED, COMMAND, STATUS, the chair requests
(R143) and the management requests (R145). -/

namespace Sys2Proof.Machine

open Sys2Proof

/-! ## Bursts, COMMAND and STATUS -/

/-- BURST_RECEIVED (R150): the burst is judged, and a frame that passes is classified (log entry 18). -/
def execBurstReceived (port : Port) (burst : List Byte) (s : State) : Host.Outcome State Fault Refusal :=
  .next (s.run (·.receiveBurst port burst))

/-- A chair's COMMAND frame. -/
def commandFrame (h : Header) (p : CommandPayload) : Frame := ⟨kindCommand, h, commandBytes p⟩

/-- COMMAND (R55). -/
def execCommand (h : Header) (p : CommandPayload) (s : State) : Host.Outcome State Fault Refusal :=
  let f := commandFrame h p
  .next (s.run fun s => s.arrival .surface f fun s => s.fromChair f fun s c => s.commandFrameFrom c h p)

/-- A loader's STATUS frame. -/
def statusFrameOf (h : Header) (p : StatusPayload) : Frame := ⟨kindStatus, h, statusBytes p⟩

/-- STATUS (R104). -/
def execStatus (port : LevelPort) (h : Header) (p : StatusPayload) (s : State) : Host.Outcome State Fault Refusal :=
  let f := statusFrameOf h p
  .next (s.run fun s => s.arrival port.toPort f fun s => s.fromLoader port.toPort f fun s l => s.statusFrame l h p)

/-! ## Chair requests (R143) -/

/-- A CHAIR_REQUEST arrives: receive checks, Frame Classifier, then its owner (R156). -/
def State.chairCommand (s : State) (h : Header) (code : Byte) (tag : Word16) (args : List Byte)
    (owner : State → Chair → State) : State :=
  let f := requestFrame h code tag args
  s.run fun s => s.arrival .surface f fun s => s.fromChair f owner

/-- PRESENT (R36). -/
def execPresent (h : Header) (tag : Word16) (availability : Byte) (extra : List Byte) (s : State) :
    Host.Outcome State Fault Refusal :=
  let args := availability :: extra
  .next (s.chairCommand h 0x01 tag args fun s c => s.presentRequest c tag args)

/-- LEAVE (R39). -/
def execLeave (h : Header) (tag : Word16) (extra : List Byte) (s : State) : Host.Outcome State Fault Refusal :=
  .next (s.chairCommand h 0x02 tag extra fun s c => s.leaveRequest c tag extra)

/-- TAKE (R22). -/
def execTake (h : Header) (tag : Word16) (extra : List Byte) (s : State) : Host.Outcome State Fault Refusal :=
  .next (s.chairCommand h 0x10 tag extra fun s c => s.takeRequest c h.loader tag extra)

/-- OFFER (R15). -/
def execOffer (h : Header) (tag : Word16) (target : Byte) (extra : List Byte) (s : State) :
    Host.Outcome State Fault Refusal :=
  let args := target :: extra
  .next (s.chairCommand h 0x11 tag args fun s c => s.offerRequest c h.loader tag args)

/-- ACCEPT (R16). -/
def execAccept (h : Header) (tag : Word16) (number : Word16) (extra : List Byte) (s : State) :
    Host.Outcome State Fault Refusal :=
  let args := bytes16 number ++ extra
  .next (s.chairCommand h 0x12 tag args fun s c => s.acceptRequest c h.loader tag args)

/-- DECLINE (R17). -/
def execDecline (h : Header) (tag : Word16) (number : Word16) (extra : List Byte) (s : State) :
    Host.Outcome State Fault Refusal :=
  let args := bytes16 number ++ extra
  .next (s.chairCommand h 0x13 tag args fun s c => s.declineRequest c h.loader tag args)

/-- CANCEL (R21). -/
def execCancel (h : Header) (tag : Word16) (extra : List Byte) (s : State) : Host.Outcome State Fault Refusal :=
  .next (s.chairCommand h 0x14 tag extra fun s c => s.cancelRequest c h.loader tag extra)

/-- RELEASE with mode AUTO (R25). -/
def execReleaseAuto (h : Header) (tag : Word16) (extra : List Byte) (s : State) : Host.Outcome State Fault Refusal :=
  let args := 0x01 :: extra
  .next (s.chairCommand h 0x15 tag args fun s c => s.releaseRequest c h.loader tag args)

/-- RELEASE with mode STAND (R25). -/
def execReleaseStand (h : Header) (tag : Word16) (extra : List Byte) (s : State) : Host.Outcome State Fault Refusal :=
  let args := 0x02 :: extra
  .next (s.chairCommand h 0x15 tag args fun s c => s.releaseRequest c h.loader tag args)

/-- RECOVER (R27). -/
def execRecover (h : Header) (tag : Word16) (extra : List Byte) (s : State) : Host.Outcome State Fault Refusal :=
  .next (s.chairCommand h 0x16 tag extra fun s c => s.recoverRequest c h.loader tag extra)

/-- STOP with scope LOADER (R28). -/
def execStopLoader (h : Header) (tag : Word16) (zone : Byte) (extra : List Byte) (s : State) :
    Host.Outcome State Fault Refusal :=
  let args := 0x01 :: zone :: extra
  .next (s.chairCommand h 0x17 tag args fun s c => s.stopRequest c h.loader tag args)

/-- STOP with scope ZONE (R29). -/
def execStopZone (h : Header) (tag : Word16) (zone : Byte) (extra : List Byte) (s : State) :
    Host.Outcome State Fault Refusal :=
  let args := 0x02 :: zone :: extra
  .next (s.chairCommand h 0x17 tag args fun s c => s.stopRequest c h.loader tag args)

/-- VIEW_ON (R120). -/
def execViewOn (h : Header) (tag : Word16) (period : Byte) (pattern : Word16) (mode : Byte) (extra : List Byte)
    (s : State) : Host.Outcome State Fault Refusal :=
  let args := period :: bytes16 pattern ++ mode :: extra
  .next (s.chairCommand h 0x20 tag args fun s c => s.viewOnRequest c h.loader tag args)

/-- VIEW_OFF (R121). -/
def execViewOff (h : Header) (tag : Word16) (extra : List Byte) (s : State) : Host.Outcome State Fault Refusal :=
  .next (s.chairCommand h 0x21 tag extra fun s c => s.viewOffRequest c h.loader tag extra)

/-- LINE_ACK from a chair (R130). -/
def execLineAck (h : Header) (tag : Word16) (line : Byte) (extra : List Byte) (s : State) :
    Host.Outcome State Fault Refusal :=
  let args := line :: extra
  .next (s.chairCommand h 0x30 tag args fun s c => s.lineAckRequest c tag args)

/-- A CHAIR_REQUEST with a code that R143 does not name. -/
def execUnknownChairRequest (h : Header) (code : Byte) (tag : Word16) (args : List Byte) (s : State) :
    Host.Outcome State Fault Refusal :=
  .next (s.chairCommand h code tag args fun s c => s.chairRequest c h.loader code tag args)

/-! ## Management requests (R145, R168) -/

/-- A MGMT_REQUEST arrives: receive checks, Frame Classifier, then the Management Agent (R156, R168). -/
def State.mgmtCommand (s : State) (h : Header) (operation : Byte) (tag : Word16) (selector index : Byte)
    (data : List Byte) : State :=
  let f := mgmtFrame h operation tag selector index data
  s.run fun s => s.arrival .surface f fun s => s.fromStation f (mgmtRequestOf h operation tag selector index data)

/-- MGMT_REQUEST, with any operation code (R168). -/
def execMgmtRequest (h : Header) (operation : Byte) (tag : Word16) (selector index : Byte) (data : List Byte)
    (s : State) : Host.Outcome State Fault Refusal :=
  .next (s.mgmtCommand h operation tag selector index data)

/-- IDENT (R169). -/
def execIdent (h : Header) (tag : Word16) (selector index : Byte) (data : List Byte) (s : State) :
    Host.Outcome State Fault Refusal :=
  .next (s.mgmtCommand h 0x01 tag selector index data)

/-- READ_ENTRY (R165). -/
def execReadEntry (h : Header) (tag : Word16) (table index : Byte) (data : List Byte) (s : State) :
    Host.Outcome State Fault Refusal :=
  .next (s.mgmtCommand h 0x02 tag table index data)

/-- WRITE_ENTRY (R162). -/
def execWriteEntry (h : Header) (tag : Word16) (table index : Byte) (data : List Byte) (s : State) :
    Host.Outcome State Fault Refusal :=
  .next (s.mgmtCommand h 0x03 tag table index data)

/-- READ_STATE (R146, R169). -/
def execReadState (h : Header) (tag : Word16) (selector index : Byte) (data : List Byte) (s : State) :
    Host.Outcome State Fault Refusal :=
  .next (s.mgmtCommand h 0x04 tag selector index data)

/-- READ_COUNTERS (R179). -/
def execReadCounters (h : Header) (tag : Word16) (group index : Byte) (data : List Byte) (s : State) :
    Host.Outcome State Fault Refusal :=
  .next (s.mgmtCommand h 0x05 tag group index data)

/-- COUNTER_CONTROL with action FREEZE (R179). -/
def execFreeze (h : Header) (tag : Word16) (selector index : Byte) (extra : List Byte) (s : State) :
    Host.Outcome State Fault Refusal :=
  .next (s.mgmtCommand h 0x06 tag selector index (0x01 :: extra))

/-- COUNTER_CONTROL with action UNFREEZE (R179). -/
def execUnfreeze (h : Header) (tag : Word16) (selector index : Byte) (extra : List Byte) (s : State) :
    Host.Outcome State Fault Refusal :=
  .next (s.mgmtCommand h 0x06 tag selector index (0x02 :: extra))

/-- COUNTER_CONTROL with action CLEAR_ALL (R179). -/
def execClearAll (h : Header) (tag : Word16) (selector index : Byte) (extra : List Byte) (s : State) :
    Host.Outcome State Fault Refusal :=
  .next (s.mgmtCommand h 0x06 tag selector index (0x03 :: extra))

/-- READ_LOG (R175). -/
def execReadLog (h : Header) (tag : Word16) (selector count : Byte) (data : List Byte) (s : State) :
    Host.Outcome State Fault Refusal :=
  .next (s.mgmtCommand h 0x07 tag selector count data)

/-- ATTN_CLEAR (R176). -/
def execAttnClear (h : Header) (tag : Word16) (selector index : Byte) (data : List Byte) (s : State) :
    Host.Outcome State Fault Refusal :=
  .next (s.mgmtCommand h 0x08 tag selector index data)

/-- LINE_ACK from a management station (R131). -/
def execMgmtLineAck (h : Header) (tag : Word16) (selector line : Byte) (data : List Byte) (s : State) :
    Host.Outcome State Fault Refusal :=
  .next (s.mgmtCommand h 0x09 tag selector line data)

/-- RESET_AUTHORITY (R170). -/
def execResetAuthority (h : Header) (tag : Word16) (selector index : Byte) (data : List Byte) (s : State) :
    Host.Outcome State Fault Refusal :=
  .next (s.mgmtCommand h 0x0A tag selector index data)

/-- SAVE_CONFIG (R172). -/
def execSaveConfig (h : Header) (tag : Word16) (selector index : Byte) (data : List Byte) (s : State) :
    Host.Outcome State Fault Refusal :=
  .next (s.mgmtCommand h 0x0B tag selector index data)

/-- A MGMT_REQUEST with an operation code that R145 does not name (R169). -/
def execUnknownOperation (h : Header) (operation : Byte) (tag : Word16) (selector index : Byte) (data : List Byte)
    (s : State) : Host.Outcome State Fault Refusal :=
  .next (s.mgmtCommand h operation tag selector index data)

end Sys2Proof.Machine
end

