-- ==== Sys2Proof/Machine/Dispatch.lean ====
section
/-! DEFINITION. The effect of each command on everything but the queue: one arm per row of spec/opcode_table.json. -/

namespace Sys2Proof.Machine

open Sys2Proof

def exec (i : Instr) (s : State) : Host.Outcome State Fault Refusal :=
  match i with
  | .powerOn cfgoff => Sys2Proof.Machine.execPowerOn cfgoff s
  | .loadEnd read => Sys2Proof.Machine.execLoadEnd read s
  | .cycleStart drawFirst => Sys2Proof.Machine.execCycleStart drawFirst s
  | .tableApplied order raiseFirst => Sys2Proof.Machine.execTableApplied order raiseFirst s
  | .slotEvent port slot => Sys2Proof.Machine.execSlotEvent port slot s
  | .standStale slot => Sys2Proof.Machine.execStandStale slot s
  | .statusDeadline loader => Sys2Proof.Machine.execStatusDeadline loader s
  | .linkDown loader => Sys2Proof.Machine.execLinkDown loader s
  | .linkUp loader => Sys2Proof.Machine.execLinkUp loader s
  | .loaderReady loader => Sys2Proof.Machine.execLoaderReady loader s
  | .offerExpiry loader => Sys2Proof.Machine.execOfferExpiry loader s
  | .matchTimeout loader => Sys2Proof.Machine.execMatchTimeout loader s
  | .releaseTimeout loader => Sys2Proof.Machine.execReleaseTimeout loader s
  | .presenceExpiry chair => Sys2Proof.Machine.execPresenceExpiry chair s
  | .millisecondStep => Sys2Proof.Machine.execMillisecondStep s
  | .lineLevelChange line level => Sys2Proof.Machine.execLineLevelChange line level s
  | .lineSettle line => Sys2Proof.Machine.execLineSettle line s
  | .portLinkUp port => Sys2Proof.Machine.execPortLinkUp port s
  | .portLinkDown port cut => Sys2Proof.Machine.execPortLinkDown port cut s
  | .burstReceived port burst => Sys2Proof.Machine.execBurstReceived port burst s
  | .command h p => Sys2Proof.Machine.execCommand h p s
  | .status port h p => Sys2Proof.Machine.execStatus port h p s
  | .present h tag availability extra => Sys2Proof.Machine.execPresent h tag availability extra s
  | .leave h tag extra => Sys2Proof.Machine.execLeave h tag extra s
  | .take h tag extra => Sys2Proof.Machine.execTake h tag extra s
  | .offer h tag target extra => Sys2Proof.Machine.execOffer h tag target extra s
  | .accept h tag number extra => Sys2Proof.Machine.execAccept h tag number extra s
  | .decline h tag number extra => Sys2Proof.Machine.execDecline h tag number extra s
  | .cancel h tag extra => Sys2Proof.Machine.execCancel h tag extra s
  | .releaseAuto h tag extra => Sys2Proof.Machine.execReleaseAuto h tag extra s
  | .releaseStand h tag extra => Sys2Proof.Machine.execReleaseStand h tag extra s
  | .recover h tag extra => Sys2Proof.Machine.execRecover h tag extra s
  | .stopLoader h tag zone extra => Sys2Proof.Machine.execStopLoader h tag zone extra s
  | .stopZone h tag zone extra => Sys2Proof.Machine.execStopZone h tag zone extra s
  | .viewOn h tag period pattern mode extra => Sys2Proof.Machine.execViewOn h tag period pattern mode extra s
  | .viewOff h tag extra => Sys2Proof.Machine.execViewOff h tag extra s
  | .lineAck h tag line extra => Sys2Proof.Machine.execLineAck h tag line extra s
  | .unknownChairRequest h code tag args => Sys2Proof.Machine.execUnknownChairRequest h code tag args s
  | .mgmtRequest h operation tag selector index data => Sys2Proof.Machine.execMgmtRequest h operation tag selector index data s
  | .ident h tag selector index data => Sys2Proof.Machine.execIdent h tag selector index data s
  | .readEntry h tag table index data => Sys2Proof.Machine.execReadEntry h tag table index data s
  | .writeEntry h tag table index data => Sys2Proof.Machine.execWriteEntry h tag table index data s
  | .readState h tag selector index data => Sys2Proof.Machine.execReadState h tag selector index data s
  | .readCounters h tag group index data => Sys2Proof.Machine.execReadCounters h tag group index data s
  | .freeze h tag selector index extra => Sys2Proof.Machine.execFreeze h tag selector index extra s
  | .unfreeze h tag selector index extra => Sys2Proof.Machine.execUnfreeze h tag selector index extra s
  | .clearAll h tag selector index extra => Sys2Proof.Machine.execClearAll h tag selector index extra s
  | .readLog h tag selector count data => Sys2Proof.Machine.execReadLog h tag selector count data s
  | .attnClear h tag selector index data => Sys2Proof.Machine.execAttnClear h tag selector index data s
  | .mgmtLineAck h tag selector line data => Sys2Proof.Machine.execMgmtLineAck h tag selector line data s
  | .resetAuthority h tag selector index data => Sys2Proof.Machine.execResetAuthority h tag selector index data s
  | .authorityReset => Sys2Proof.Machine.execAuthorityReset s
  | .saveConfig h tag selector index data => Sys2Proof.Machine.execSaveConfig h tag selector index data s
  | .saveEnd read => Sys2Proof.Machine.execSaveEnd read s
  | .unknownOperation h operation tag selector index data => Sys2Proof.Machine.execUnknownOperation h operation tag selector index data s
  | .sPortTake => Sys2Proof.Machine.execSPortTake s
  | .sPortTransmissionEnd => Sys2Proof.Machine.execSPortTransmissionEnd s

end Sys2Proof.Machine
end

