-- ==== Sys2Proof/Machine/Step.lean ====
section
/-! DEFINITION. One step: the command at the front of the queue, or the part's own events when the queue is empty. -/

namespace Sys2Proof.Machine

open Sys2Proof

/-- One step takes the command at the front of the queue and runs it with the queue's rest. On an empty queue the part
takes the events of the present instant that still wait (log entry 3), and idles when none does. -/
def step (s : State) : Host.Outcome State Fault Refusal :=
  match s.pending with
  | [] => .next s.settle
  | i :: rest => exec i { s with pending := rest }

/-- The command a word spells, put at the front of the queue. No word spells one (Decode.lean), so the state is unchanged. -/
def State.withFetchWord (s : State) (nbits w : Nat) : State :=
  match decodeTableWord nbits w with
  | some i => { s with pending := i :: s.pending }
  | none => s

end Sys2Proof.Machine
end

