-- ==== Sys2Proof/Safety.lean ====
section
/-! DEFINITION. What a safe state is: the conditions that hold between commands, and the premises of a command that
arrives while nothing else waits. -/

namespace Sys2Proof.Machine

open Sys2Proof

/-! ## Nothing waits -/

/-- Between two events: nothing of the present instant waits, the idle transmitter finds no frame, no walk is called for,
and the beacons show their conditions. -/
abbrev State.Quiet (s : State) : Prop :=
  s.due = [] ∧ s.canTake = false ∧ s.walkCalled = false ∧ s.beacons = tabulate s.beaconOn

/-- Quiet, and the load has ended. -/
abbrev State.Ready (s : State) : Prop := s.Quiet ∧ s.running = true

/-- The last event is whole: the transmitter has taken what it can (R158), and nothing more follows from the event (log
entry 1). -/
abbrev State.Whole (s : State) : Prop := s.canTake = false ∧ s.following = []

/-! ## Invariants -/

/-- Each beacon line shows its conditions (R135), and no walk is called for (R52). -/
abbrev State.BeaconsShow (s : State) : Prop := s.walkCalled = false ∧ s.beacons = tabulate s.beaconOn

/-- Each beacon line shows its conditions (R135), and a walk that is called for waits for the last action of a cycle start: an
event that is over has none left (R52, R166). -/
abbrev State.EndsRight (s : State) : Prop :=
  (s.walkCalled = true → s.cycleStarting = true) ∧ s.beacons = tabulate s.beaconOn

/-- The last event is over, with its walk made and the beacons set, and the transmitter has taken what it can (R52, R158). What
follows from it may still wait. -/
abbrev State.Over (s : State) : Prop := s.BeaconsShow ∧ s.canTake = false ∧ s.cycleStarting = false

/-- Ready for an event at an instant: nothing waits, or what waits falls at that very instant and the last event taken is
whole. -/
abbrev State.ReadyAt (s : State) (instant : Nat) : Prop :=
  s.running = true ∧ s.BeaconsShow ∧ s.Whole ∧ (s.due = [] ∨ s.timer.now = instant)

/-- No queue holds more than its capacity (R157, R168, R174). -/
abbrev State.QueuesBounded (s : State) : Prop :=
  s.rep.notices.length ≤ 32 ∧ s.responses.length ≤ 4 ∧ s.forwards.length ≤ 64 ∧ s.agent.waiting.length ≤ 4
    ∧ s.rep.log.length ≤ 128

/-- No counter exceeds 65535, and the warning flag shows whether one holds 32768 or more (R178, R180). -/
abbrev Report.CountersRight (r : Report) : Prop :=
  (∀ (l : Loader) (k : Fin 8), r.loaderCounts[l][k] ≤ 65535) ∧ (∀ (c : Chair) (k : Fin 6), r.chairCounts[c][k] ≤ 65535)
    ∧ (∀ k : Fin 14, r.deviceCounts[k] ≤ 65535) ∧ r.warning = r.anyHigh

/-- The loader is CALLING. -/
def AuthState.isCalling : AuthState → Bool
  | .calling _ => true
  | _ => false

/-- The group a counter belongs to (R146). -/
def CounterId.group : CounterId → CounterGroup
  | .loader l _ => .loader l
  | .chair c _ => .chair c
  | .device _ => .device

/-- A loader is in the Call Queue exactly when it is CALLING, with the stamp of its record and the class of its request, and
none is there twice (R46, R48). -/
abbrev State.CallQueueRight (s : State) : Prop :=
  (∀ e ∈ s.callQueue, s.auth[e.loader].state = .calling e.stamp ∧ e.cls = s.callClass e.loader)
    ∧ (∀ l : Loader, s.auth[l].state.isCalling = true → l ∈ s.callQueue.map (·.loader))
    ∧ (s.callQueue.map (·.loader)).Nodup

/-- Every chair of the Free Chair List is IDLE and available, and none is there twice (R44). -/
abbrev State.FreeListRight (s : State) : Prop :=
  (∀ c ∈ s.freeList, s.chairs[c].status = .idle ∧ s.chairs[c].available = true) ∧ s.freeList.Nodup

/-- The places a chair has in a loader's record (R3). -/
def AuthState.placesOf (a : AuthState) (c : Chair) : List ChairStatus :=
  (if a.holder = some c then [.holding] else []) ++ (if a.offeredChair = some c then [.offered] else [])
    ++ (if a.candidate = some c then [.candidate] else [])

/-- The places a chair has in the records of all loaders. -/
def State.placesOf (s : State) (c : Chair) : List (Loader × ChairStatus) :=
  allLoaders.flatMap fun l => (s.auth[l].state.placesOf c).map fun p => (l, p)

/-- Each chair has at most one place in the records; its state and engaged loader are that place, and a chair with none is
IDLE or ABSENT (R3, R34). -/
abbrev State.PlacesRight (s : State) : Prop :=
  ∀ c : Chair, s.placesOf c = (s.chairs[c].engaged.map fun l => (l, s.chairs[c].status)).toList ∧
    (s.chairs[c].engaged = none → s.chairs[c].status = .idle ∨ s.chairs[c].status = .absent)

/-- A disabled loader is STANDING(DISABLED) without a holder (R12). -/
abbrev State.DisabledStand (s : State) : Prop :=
  ∀ l : Loader, s.enabled l = false → s.auth[l].state = .standing none .disabled

/-- The records of chairs, loaders, the Call Queue and the Free Chair List agree (R3, R12, R34, R44, R46). -/
abbrev State.RecordsAgree (s : State) : Prop := s.CallQueueRight ∧ s.FreeListRight ∧ s.PlacesRight ∧ s.DisabledStand

/-- The entries a loader has or may come to have: the applied one, and its pending write. -/
def State.loaderEntries (s : State) (l : Loader) : List LoaderEntry := s.tables.loaders[l] :: s.writes.loaders[l].toList

/-- No two loaders share a level port and slot, in enabled entries that are applied or pending (R163). -/
abbrev State.SlotsApart (s : State) : Prop :=
  ∀ i j : Loader, i ≠ j → ∀ a ∈ s.loaderEntries i, ∀ b ∈ s.loaderEntries j, a.clashes b = false

/-- A disabled loader has the Status Unit state of R103 and no pending deadline (R97), and a disabled line is CLEAR with its
start mark clear (R127, R133). -/
abbrev State.DisabledRest (s : State) : Prop :=
  (∀ l : Loader, s.enabled l = false →
      s.status[l] = ⟨false, [], 0, false, [], false, [], .none, none⟩ ∧ s.deadlines[l] = none)
    ∧ ∀ i : Line, s.tables.lines[i].enabled = false → s.lines[i].status = .clear ∧ s.lines[i].startMark = false

/-- While an enabled line is ACTIVE or LATCHED, every enabled loader whose zone is unknown or in its zone set is STANDING
(R128). -/
abbrev State.InterlocksStand (s : State) : Prop :=
  ∀ (i : Line) (l : Loader), s.tables.lines[i].enabled = true → s.lines[i].status ≠ .clear → s.enabled l = true →
    (∀ z : Zone, s.status[l].zone = some z → s.tables.lines[i].zones.getLsbD z.val = true) →
    s.auth[l].state.isStanding = true

/-- A safe state: every condition above. -/
abbrev State.Safe (s : State) : Prop :=
  s.EndsRight ∧ s.QueuesBounded ∧ s.rep.CountersRight ∧ s.RecordsAgree ∧ s.SlotsApart ∧ s.DisabledRest ∧ s.InterlocksStand
    ∧ s.phaseGen ≠ 0

/-- Tables that an image can hold: every entry in its ranges (R147, R162), enabled loaders in distinct slots (R148). -/
abbrev Tables.Valid (t : Tables) : Prop :=
  t.device.valid = true ∧ (∀ i : Fin 2, t.mgmt[i].valid = true) ∧ (∀ i : Chair, t.chairs[i].valid = true)
    ∧ (∀ i : Loader, t.loaders[i].valid = true) ∧ (∀ i : Zone, t.zones[i].valid = true)
    ∧ (∀ i : Line, t.lines[i].valid = true) ∧ loadersDistinct t.loaders = true

/-! ## What a request may change -/

/-- Nothing but what the Authority Table, the Chair Table, the Chair Arbiter, the mailboxes, the match windows, the beacons
and reporting write differs. -/
abbrev State.OnlyAuthority (s t : State) : Prop :=
  t = { s with
    auth := t.auth
    offerCounter := t.offerCounter
    chairs := t.chairs
    freeList := t.freeList
    callQueue := t.callQueue
    windows := t.windows
    builders := t.builders
    beacons := t.beacons
    rep := t.rep }

/-- A CALLING loader that the Chair Arbiter's walk has offered to a chair (R14, R53). -/
def State.walkOffered (s t : State) (k : Loader) : Bool :=
  match s.auth[k].state, t.auth[k].state with
  | .calling w, .offered none _ (.call w') _ none timer =>
    w' = w && timer = s.tables.device.offerTimeout && t.auth[k].epoch = s.auth[k].epoch
  | _, _ => false

/-- The record of a loader is as before, but for an offer of the arbiter's walk. -/
abbrev State.Kept (s t : State) (k : Loader) : Prop := t.auth[k] = s.auth[k] ∨ s.walkOffered t k = true

/-- The loader is CALLING with this stamp, or has been offered to a chair by the walk that followed (R14, R47, R53). -/
def State.callingAt (s t : State) (l : Loader) (stamp : Word32) : Bool :=
  match t.auth[l].state with
  | .calling w => w = stamp
  | .offered none _ (.call w) _ none timer => w = stamp && timer = s.tables.device.offerTimeout
  | _ => false

/-- The loader has entered FREE, or gone on to CALLING because its accepted request is a call (R11). -/
def State.freed (s t : State) (l : Loader) (request : Request) : Bool :=
  if request.isCall then s.callingAt t l s.timer.number else t.auth[l].state = .free

/-- The loader has returned after a handover without a grant (R20): to its holder, to the Call Queue with its kept stamp,
or to FREE. The epoch is unchanged. -/
def State.returned (s t : State) (l : Loader) : Bool :=
  t.auth[l].epoch = s.auth[l].epoch &&
    match s.auth[l].state.holder with
    | some h => t.auth[l].state = .held h
    | none =>
      match s.auth[l].state.origin with
      | some (.call stamp) =>
        if s.status[l].accepted.isCall then s.callingAt t l stamp else t.auth[l].state = .free
      | _ => s.freed t l s.status[l].accepted

/-- The table of R9: DISABLED stays, START and RESET give way to STOP alone, any other to LINK, INTERLOCK and STOP. -/
def Cause.givesWay (recorded cause : Cause) : Bool :=
  match recorded with
  | .disabled => false
  | .start => cause = .stop
  | .reset => cause = .stop
  | _ => cause = .link || cause = .interlock || cause = .stop

/-- The causes that keep the holder (R8 part 1): STALE, LINK, INTERLOCK and STOP. -/
def Cause.keeps (cause : Cause) : Bool := cause = .stale || cause = .link || cause = .interlock || cause = .stop

/-- The stand cause has reached the loader. STANDING, it changes at most its cause, by the table of R9. Any other loader enters
STANDING (R8 part 1); a cause that does not keep its holder removes it with the epoch advanced. -/
def State.stood (s t : State) (l : Loader) (cause : Cause) : Bool :=
  match s.auth[l].state with
  | .standing retained recorded =>
    t.auth[l] = ⟨.standing retained (if recorded.givesWay cause then cause else recorded), s.auth[l].epoch⟩
  | a =>
    t.auth[l] = ⟨.standing (if cause.keeps then a.holder else none) cause,
      if a.holder.isSome && !cause.keeps then s.auth[l].epoch + 1 else s.auth[l].epoch⟩

/-- The chair has left its place: it is IDLE, or has been offered a calling loader by the walk that followed (R3, R53). -/
def State.idleAgain (t : State) (c : Chair) : Bool :=
  match t.chairs[c].status, t.chairs[c].engaged with
  | .idle, none => true
  | .offered, some k =>
    match t.auth[k].state with
    | .offered none x (.call _) _ none _ => x = c
    | _ => false
  | _, _ => false

/-- The chair has left its place and, if it is available, joined the tail of the Free Chair List with the current cycle number
as its idle-since (R45): the chairs still listed keep their order, and it is the last unless the walk that followed has
offered it a loader. -/
abbrev State.Rejoined (s t : State) (c : Chair) : Prop :=
  t.idleAgain c = true ∧ t.freeList.Sublist (s.freeList.filter (· ≠ c) ++ [c])
    ∧ if t.chairs[c].available = true then
        t.chairs[c].idleSince = s.timer.number ∧ (t.chairs[c].status = .idle → t.freeList.getLast? = some c)
      else c ∉ t.freeList

/-- The active RANDOM view entries, in the order of the draw: chair, then loader (R124). -/
def State.drawn (s : State) : List (Chair × Loader) :=
  (allChairs.flatMap fun c => allLoaders.map fun l => (c, l)).filter fun x =>
    s.views[x.1][x.2].active && s.views[x.1][x.2].random

/-- The phase generator after n steps (R124). -/
def phaseAfter (r : Word16) : Nat → Word16
  | 0 => r
  | n + 1 => phaseStep (phaseAfter r n)

/-- What the absence of a chair makes of the loader it had a place with (R40). -/
def State.abandoned (s t : State) (l : Loader) (c : Chair) : Bool :=
  if s.auth[l].state.holder = some c then
    match s.auth[l].state with
    | .standing _ cause => t.auth[l] = ⟨.standing none cause, s.auth[l].epoch + 1⟩
    | _ => t.auth[l] = ⟨.standing none .chairLost, s.auth[l].epoch + 1⟩
  else s.returned t l

/-- The chair has become ABSENT (R40, R119): its record, its place on the Free Chair List, its views, and the loader it had
a place with; every other loader is kept. -/
abbrev State.Gone (s t : State) (c : Chair) : Prop :=
  t.chairs[c] = { s.chairs[c].gone with lastEnded := t.chairs[c].lastEnded } ∧ c ∉ t.freeList
    ∧ (∀ l : Loader, t.views[c][l].active = false)
    ∧ (∀ l : Loader, if s.chairs[c].engaged = some l then s.abandoned t l c = true else s.Kept t l)

/-! ## What an event reports

The notices, events and counts of an event, added to a report in their order. The codes in byte 6 of a notice are those of R144,
the details of an event those of R173. -/

/-- The event has reported r: its own notices, events and counts. Those of the offers its walk makes at its end come after them
(R54). -/
abbrev State.Reported (t : State) (r : Report) : Prop := ∃ u : State, u.rep = r ∧ t = u.finish

/-- A notice about a loader sent to a chair, which the notice names. -/
def Report.sends (r : Report) (s : State) (c : Chair) (name : NoticeName) (l : Loader) (epoch byte6 : Byte)
    (number : Word16 := 0) : Report :=
  r.notice s c { name := name, loader := some l, chair := some c, epoch := epoch, byte6 := byte6, number := number }

/-- STAND to the holder, if it is there and present, and the event of the cause, with the epoch now current (R8 part 6, R9). -/
def State.standTold (s : State) (l : Loader) (cause : Cause) (holder : Option Chair) (epoch : Byte) (r : Report) : Report :=
  let r := match holder with
    | none => r
    | some h =>
      if s.chairs[h].status = .absent then r else r.sends s h .stand l epoch cause.code
  match cause.event with
  | none => r
  | some name => r.raise s ⟨name, some l, holder, epoch.setWidth 16⟩

/-- What a stand cause that reaches the loader reports. STANDING, it reports where it becomes the cause (R9). Any other loader
stands (R8): an offered chair is sent WITHDRAWN(STAND) and its offer has ended, a candidate is sent ABORTED(STAND), and then comes
the report of part 6. -/
def State.standReport (s : State) (l : Loader) (cause : Cause) (r : Report) : Report :=
  match s.auth[l].state with
  | .standing retained recorded =>
    if recorded.givesWay cause && cause ≠ recorded then s.standTold l cause retained s.auth[l].epoch r else r
  | a =>
    let epoch := if a.holder.isSome && !cause.keeps then s.auth[l].epoch + 1 else s.auth[l].epoch
    let r := match a with
      | .offered _ c _ number _ _ =>
        (r.sends s c .withdrawn l epoch 0x24 number).raise s ⟨.offerEnded, some l, some c, 5⟩
      | .matching _ c _ _ _ => r.sends s c .aborted l epoch 0x24
      | _ => r
    s.standTold l cause a.holder epoch r

/-- CALL_QUEUED(NEW) of a loader that enters FREE with a call accepted (R11). -/
def State.freedReport (s : State) (l : Loader) (r : Report) : Report :=
  if s.status[l].accepted.isCall then r.raise s ⟨.callQueued, some l, none, 1⟩ else r

/-- What the return of a loader after a handover reports (R20): nothing for one that returns to its holder, CALL_QUEUED(REQUEUED)
for one that is queued again, CALL_QUEUED(NEW) for one that R11 queues. -/
def State.returnReport (s : State) (l : Loader) (r : Report) : Report :=
  match s.auth[l].state.holder, s.auth[l].state.origin with
  | some _, _ => r
  | none, some (.call _) => if s.status[l].accepted.isCall then r.raise s ⟨.callQueued, some l, none, 2⟩ else r
  | none, _ => s.freedReport l r

/-- OFFER to the offered chair and OFFER_MADE (R14). -/
def State.offerReport (s : State) (l : Loader) (c : Chair) (number : Word16) (r : Report) : Report :=
  (r.notice s c { name := .offer, loader := some l, chair := s.auth[l].state.holder, epoch := s.auth[l].epoch + 1,
                  number := number, cycles := s.tables.device.offerTimeout }).raise s ⟨.offerMade, some l, some c, number⟩

/-- CHAIR_ABSENT with its detail, and what the end of the place the chair had reports (R40): a holder's loader stands for
CHAIR_LOST, an offer to the chair ends (CHAIR_ABSENT), and the loader of an offer or a matching returns. The chair itself, by then
ABSENT, is sent nothing. -/
def State.goneReport (s : State) (c : Chair) (detail : Word16) (r : Report) : Report :=
  let s := { s with chairs := putAt s.chairs c { s.chairs[c] with status := .absent } }
  let r := r.raise s ⟨.chairAbsent, none, some c, detail⟩
  match s.chairs[c].engaged with
  | none => r
  | some l =>
    let a := s.auth[l].state
    if a.holder = some c then (if a.isStanding then r else s.standReport l .chairLost r)
    else if a.offeredChair = some c then (s.returnReport l r).raise s ⟨.offerEnded, some l, some c, 4⟩
    else if a.candidate = some c then s.returnReport l r
    else r

/-- What the end of an engagement by an applied permitted set reports (R167): STAND to a retained holder, with the epoch then
current; a holder's loader stands for CHAIR_LOST; an offered chair is sent WITHDRAWN(PERMIT), a candidate ABORTED(PERMIT), and the
loader returns. -/
def State.permitReport (s : State) (c : Chair) (l : Loader) (r : Report) : Report :=
  let epoch := s.auth[l].epoch
  let a := s.auth[l].state
  if a.holder = some c then
    match a with
    | .standing _ cause => if s.chairs[c].status = .absent then r else r.sends s c .stand l (epoch + 1) cause.code
    | _ => s.standReport l .chairLost r
  else if a.offeredChair = some c then
    (s.returnReport l (r.sends s c .withdrawn l epoch 0x26 (a.number.getD 0))).raise s ⟨.offerEnded, some l, some c, 8⟩
  else if a.candidate = some c then s.returnReport l (r.sends s c .aborted l epoch 0x26)
  else r

/-- DONE to chair c (R13, R144). -/
def State.doneReport (s : State) (c : Chair) (tag : Word16) (l : Option Loader) (epoch : Byte) (number : Word16 := 0)
    (cycles : Nat := 0) : Report :=
  s.rep.notice s c
    { name := .done, tag := tag, loader := l, chair := some c, epoch := epoch, number := number, cycles := cycles }

/-- Flags without LINK_ALARM and the stand cause byte of the frame an enabled loader's slot builds when no chair drives it
(R4, R84, R85); none for a loader that gets no such frame. -/
def AuthState.idleFrame : AuthState → Option (Byte × Byte)
  | .standing _ .disabled => none
  | .standing _ cause => some (0x01, cause.code)
  | .free => some (0x02, 0)
  | .calling _ => some (0x02, 0)
  | .offered none _ _ _ _ _ => some (0x02, 0)
  | .matching none _ _ _ _ => some (0x02, 0)
  | .releasing _ => some (0x06, 0)
  | _ => none

/-! ## A frame that reaches its owner -/

/-- The Match Rule Table lets the frame pass without a word: no rule decides, or one with action PASS (R154, R155). -/
abbrev State.Passes (s : State) (f : Frame) : Prop :=
  ∀ i, s.decidingRule f = some i → s.tables.rules[i].action = .pass

/-- A chair's frame that reaches its owner while nothing else waits: the S-port's link is UP, the payload fits a frame, the
source is the station of enabled chair c, and the match rules pass it. -/
abbrev State.Admits (s : State) (f : Frame) (c : Chair) : Prop :=
  s.Ready ∧ s.linkIsUp .surface = true ∧ f.payload.length ≤ maxPayload ∧ s.chairOf f.header.source = some c ∧ s.Passes f

/-- A STATUS frame that reaches the Status Unit while nothing else waits, from loader l on port p. -/
abbrev State.AdmitsStatus (s : State) (p : Port) (f : Frame) (l : Loader) : Prop :=
  s.Ready ∧ s.linkIsUp p = true ∧ f.payload.length ≤ maxPayload ∧ s.loaderOf p f.header = some l ∧ s.Passes f

/-- A management request that reaches the Agent while nothing else waits, from an admitted station. -/
abbrev State.AdmitsMgmt (s : State) (f : Frame) : Prop :=
  s.Ready ∧ s.linkIsUp .surface = true ∧ f.payload.length ≤ maxPayload ∧ s.mgmtAdmitted f.header.source = true
    ∧ s.Passes f

/-- A chair's request about loader l that passes the checks of R13: presence, service and permission. -/
abbrev State.Asks (s : State) (f : Frame) (c : Chair) (l : Loader) : Prop :=
  s.Admits f c ∧ s.chairs[c].status ≠ .absent ∧ indexOfByte 16 f.header.loader = some l ∧ s.enabled l = true
    ∧ s.permits c l = true

end Sys2Proof.Machine

namespace Sys2Proof

open Machine

/-! ## Kinds of command -/

/-- The header, code, tag and arguments of a chair request (R143). -/
def Instr.asked : Instr → Option (Header × Byte × Word16 × List Byte)
  | .present h tag availability extra => some (h, 0x01, tag, availability :: extra)
  | .leave h tag extra => some (h, 0x02, tag, extra)
  | .take h tag extra => some (h, 0x10, tag, extra)
  | .offer h tag target extra => some (h, 0x11, tag, target :: extra)
  | .accept h tag number extra => some (h, 0x12, tag, bytes16 number ++ extra)
  | .decline h tag number extra => some (h, 0x13, tag, bytes16 number ++ extra)
  | .cancel h tag extra => some (h, 0x14, tag, extra)
  | .releaseAuto h tag extra => some (h, 0x15, tag, 0x01 :: extra)
  | .releaseStand h tag extra => some (h, 0x15, tag, 0x02 :: extra)
  | .recover h tag extra => some (h, 0x16, tag, extra)
  | .stopLoader h tag zone extra => some (h, 0x17, tag, 0x01 :: zone :: extra)
  | .stopZone h tag zone extra => some (h, 0x17, tag, 0x02 :: zone :: extra)
  | .viewOn h tag period pattern mode extra => some (h, 0x20, tag, period :: bytes16 pattern ++ mode :: extra)
  | .viewOff h tag extra => some (h, 0x21, tag, extra)
  | .lineAck h tag line extra => some (h, 0x30, tag, line :: extra)
  | .unknownChairRequest h code tag args => some (h, code, tag, args)
  | _ => none

/-- A chair request's loader byte names its loader (R143): not in PRESENT, LEAVE, LINE_ACK and STOP of a zone. -/
def requestNamesLoader (code : Byte) (args : List Byte) : Bool :=
  code ≠ 0x01 && code ≠ 0x02 && code ≠ 0x30 && !(code = 0x17 && args.head? = some 0x02)

/-- The Authority Table's requests about one loader (R13): TAKE, OFFER, ACCEPT, DECLINE, CANCEL, RELEASE, RECOVER and STOP of a
loader. -/
def requestAboutLoader (code : Byte) (args : List Byte) : Bool :=
  code ∈ ([0x10, 0x11, 0x12, 0x13, 0x14, 0x15, 0x16] : List Byte) || code = 0x17 && args.head? ≠ some 0x02

/-- A chair request whose arguments have a wrong length or a value out of range, or whose code is unknown (R13, R143). -/
def requestIllFormed (code : Byte) (args : List Byte) : Bool :=
  if code = 0x01 ∨ code = 0x15 then args ≠ [0x01] && args ≠ [0x02]
  else if code = 0x02 ∨ code = 0x10 ∨ code = 0x14 ∨ code = 0x16 ∨ code = 0x21 then args ≠ []
  else if code = 0x11 ∨ code = 0x30 then
    match args with
    | [n] => 8 ≤ n.toNat
    | _ => true
  else if code = 0x12 ∨ code = 0x13 then args.length ≠ 2
  else if code = 0x17 then
    match args with
    | [scope, zone] => scope ≠ 0x01 && !(scope = 0x02 && zone.toNat < 8)
    | _ => true
  else if code = 0x20 then
    match args with
    | [p, b1, b0, mode] =>
      !(1 ≤ p.toNat && p.toNat ≤ 16 && word16 b1 b0 ≠ 0 && (word16 b1 b0).toNat < 2 ^ p.toNat
        && (mode = 0x01 || mode = 0x02))
    | _ => true
  else true

/-- The event of the present instant that a consequence row of the table takes (log entry 1). -/
def Instr.consequence : Instr → Option Due
  | .tableApplied _ _ => some .tableApplied
  | .linkDown l => some (.linkDown l)
  | .linkUp l => some (.linkUp l)
  | .loaderReady l => some (.loaderReady l)
  | .offerExpiry l => some (.offerExpiry l)
  | .matchTimeout l => some (.matchTimeout l)
  | .releaseTimeout l => some (.releaseTimeout l)
  | .presenceExpiry c => some (.presenceExpiry c)
  | .authorityReset => some .authorityReset
  | .lineSettle i => some (.lineSettle i)
  | _ => none

end Sys2Proof
end

