-- ==== Sys2Proof/Certificates/Slice0/Obligations.lean ====
section
/-! DEFINITION. The statements for the provers. OBLIGATIONS.json names for each the rules of spec/ it rests on.

`State.Ready` and the `Admits` conditions are premises on the state alone: nothing of the present instant waits, the load
has ended, and the frame is one the ports and the Frame Classifier let through. `State.ReadyAt` lets events of the very instant
wait; `State.Whole` says that nothing more follows from the last event, which else comes first; `State.Over` that the last event
has made its walk. `State.Reported` says what notices, events and counts an event gives. Their order, where no rule gives it, is
log entry 7. -/

open Sys2Proof Sys2Proof.Machine

/-! ## The step and the start -/

/-- A step runs the command at the front of the queue on the state with the queue's rest. -/
def Obligations.StepRunsFrontCommand : Prop :=
  ∀ (s : State) (i : Instr) (rest : List Instr),
    s.pending = i :: rest → step s = exec i { s with pending := rest }

/-- The state right after reset is LOADING with every beacon line and ATTN off and nothing to send (R171, R176), and it is a
safe state in which nothing waits (its other values are the model's choice, log entry 2). -/
def Obligations.ResetIsLoadingAndSafe : Prop :=
  State.reset.config = ⟨.loading, false⟩ ∧ (∀ n : Beacon, State.reset.beacons[n] = false)
    ∧ State.reset.rep.attn = false ∧ State.reset.canTake = false ∧ State.reset.sending = none
    ∧ State.reset.pending = [] ∧ State.reset.Quiet ∧ State.reset.Safe

/-- POWER_ON samples the strap and enters LOADING with nothing sent and every beacon off; with CFGOFF set the end of the
load is at once due (R171). The inputs and the sender's queue stay. -/
def Obligations.PowerOnLoads : Prop :=
  ∀ (s : State) (cfgoff : Bool), ∃ t, exec (.powerOn cfgoff) s = .next t
    ∧ t.config = ⟨.loading, cfgoff⟩ ∧ t.due = (if cfgoff then [.loadEnd] else [])
    ∧ (∀ n : Beacon, t.beacons[n] = false) ∧ t.rep.attn = false ∧ t.sending = none ∧ t.canTake = false
    ∧ (∀ p : Fin 2, t.lSending[p] = none)
    ∧ t.linePins = s.linePins ∧ t.portSignal = s.portSignal ∧ t.pending = s.pending

/-- LOAD_END (R171): which tables are applied, commissioning, CONFIG_BAD with its reason as the first entry of the log and
ATTN, and the power-on values of every block over the applied tables (R31, R35, R70, R92, R93, R103, R119, R124, R132, R140,
R160, R165, R168, R181). -/
def Obligations.LoadEndStartsThePart : Prop :=
  ∀ (s : State) (read : MemoryRead), s.config.phase = .loading → ∃ t, exec (.loadEnd read) s = .next t
    ∧ (s.config.cfgoff = true →
        t.tables = .empty ∧ t.agent.commissioning = true ∧ t.rep.log = [] ∧ t.rep.attn = false)
    ∧ (s.config.cfgoff = false → ∀ tb, judgeImage read = .inl tb →
        t.tables = tb ∧ t.agent.commissioning = !tb.someListed ∧ t.rep.log = [] ∧ t.rep.attn = false)
    ∧ (s.config.cfgoff = false → ∀ reason, judgeImage read = .inr reason →
        t.tables = .empty ∧ t.agent.commissioning = true ∧ t.rep.attn = true
          ∧ t.rep.log = [⟨0, 0, ⟨.configBad, none, none, wordOf reason⟩⟩])
    ∧ t.config.phase = .idle ∧ t.timer = ⟨0, 0, t.tables.device.period, 0, 0, 0⟩
    ∧ (∀ l : Loader, t.auth[l] = ⟨.standing none (if t.enabled l then .start else .disabled), 0⟩)
    ∧ (∀ c : Chair, t.chairs[c] = ⟨.absent, false, 0, 0, 0, none, none⟩)
    ∧ (∀ l : Loader, t.status[l] = ⟨false, [], 0, false, [], false, [], .none, none⟩ ∧ t.deadlines[l] = none)
    ∧ (∀ l : Loader, t.builders[l] = ⟨none, false, none, 0, ⟨0, 0, 0, 0⟩, .neutral, 0, none, none⟩ ∧ t.windows[l] = [])
    ∧ (∀ (c : Chair) (l : Loader), t.views[c][l].active = false ∧ t.views[c][l].phase = 0)
    ∧ (∀ i : Line, let e := t.tables.lines[i]
        t.lines[i] = ⟨s.linePins[i], 0,
          if e.enabled then (if e.openIsActive then .opened else .closed) else s.linePins[i],
          if e.enabled then .active else .clear, e.enabled⟩)
    ∧ t.offerCounter = 0 ∧ t.freeList = [] ∧ t.callQueue = [] ∧ t.writes = .none ∧ t.phaseGen = 0xACE1
    ∧ t.portUp = s.portSignal ∧ t.rep.notices = [] ∧ t.responses = [] ∧ t.forwards = [] ∧ t.sending = none
    ∧ (∀ p : Fin 2, t.lSending[p] = none) ∧ (∀ c : Chair, t.rep.noticeSeq[c] = 0)
    ∧ (∀ id : CounterId, t.rep.counter id = 0) ∧ t.rep.frozen = false ∧ t.rep.warning = false ∧ t.rep.overflow = false
    ∧ t.agent = ⟨none, [], none, false, t.agent.commissioning⟩
    ∧ (∀ n : Beacon, t.beacons[n] = false) ∧ t.due = [] ∧ t.pending = s.pending

/-- The image a save writes is read back as the tables it was made from, for tables whose every entry lies in its ranges and
whose enabled loaders have distinct slots (R148, R138). -/
def Obligations.ImageRoundTrip : Prop :=
  ∀ t : Tables, t.Valid → judgeImage (.bytes t.image) = .inl t

/-- SAVE_END (R172): the save ends, CONFIG_SAVED when every byte read back is equal, else CONFIG_SAVE_FAILED with the first
differing byte position, or 0xFFFF when the memory did not answer. -/
def Obligations.SaveEndReportsTheSave : Prop :=
  ∀ (s : State) (snapshot : Tables), s.Ready → s.config.phase = .saving snapshot →
    let idle := { s with config := { s.config with phase := .idle } }
    exec (.saveEnd (.bytes snapshot.image)) s = .next (idle.raise .configSaved)
    ∧ exec (.saveEnd .noAnswer) s = .next (idle.raise .configSaveFailed none none 0xFFFF)
    ∧ ∀ (back : List Byte) (p : Nat), p < back.length → back.length ≤ imageLength →
        back.take p = snapshot.image.take p → back[p]? ≠ snapshot.image[p]? →
        exec (.saveEnd (.bytes back)) s = .next (idle.raise .configSaveFailed none none (wordOf p))

/-! ## Cycles -/

/-- CYCLE_START (R38, R94, R124, R170): the timer, the presence counts, and the actions of the cycle start still to come: the
expiry of each chair whose count reaches 0, a marked authority reset, the applications of a supercycle boundary, and its phase
draw, taken at once or still to come, behind the events that wait already. Nothing else changes. -/
def Obligations.CycleStartStepsTheCycle : Prop :=
  ∀ (s : State) (drawFirst : Bool), s.ReadyAt (s.timer.origin + 16 * s.timer.period) →
    ∃ t, exec (.cycleStart drawFirst) s = .next t ∧ ∃ new : List Due, t.due = s.due ++ new
    ∧ t.timer = { s.timer with
        number := s.timer.number + 1, position := 0
        origin := s.timer.origin + 16 * s.timer.period, now := s.timer.origin + 16 * s.timer.period }
    ∧ (∀ c : Chair, t.chairs[c] =
        if s.chairs[c].status = .absent then s.chairs[c]
        else { s.chairs[c] with presence := s.chairs[c].presence - 1 })
    ∧ (∀ c : Chair, .presenceExpiry c ∈ new ↔ s.chairs[c].status ≠ .absent ∧ s.chairs[c].presence ≤ 1)
    ∧ (.authorityReset ∈ new ↔ s.agent.resetMark = true)
    ∧ (.tableApplied ∈ new ↔ (s.timer.number + 1).toNat % 16 = 0)
    ∧ (.phaseDraw ∈ new ↔ (s.timer.number + 1).toNat % 16 = 0 ∧ drawFirst = false)
    ∧ (∀ d ∈ new, d = .authorityReset ∨ d = .tableApplied ∨ d = .phaseDraw ∨ ∃ c : Chair, d = .presenceExpiry c)
    ∧ (let draws : Bool := (s.timer.number + 1).toNat % 16 = 0 && drawFirst
       t.views = (if draws then s.drawPhases.views else s.views)
         ∧ t.phaseGen = if draws then s.drawPhases.phaseGen else s.phaseGen)
    ∧ t = { s with timer := t.timer, chairs := t.chairs, due := t.due, views := t.views, phaseGen := t.phaseGen }

/-- TABLE_APPLIED (R124, R164–R166, R173): every entry with a pending write takes it, every other keeps its applied value, no
pending write is left, a new period is in force (R95), and commissioning ends when a management station is listed. The
entries are applied one by one, in the order given and then in the tables' (log entry 6), each acting on its block; the event
is raised once with the number of entries applied, and a draw still due follows. The arbiter makes its one walk at the end of
the boundary event, with the last of its actions: while another still waits, no offer is made (R52, R166). -/
def Obligations.BoundaryAppliesEveryWrite : Prop :=
  ∀ (s : State) (order : List EntryRef) (raiseFirst : Bool), .tableApplied ∈ s.due →
    ∃ t, exec (.tableApplied order raiseFirst) s = .next t
    ∧ t.writes = .none
    ∧ t.tables.device = s.writes.device.getD s.tables.device
    ∧ (∀ i : Fin 2, t.tables.mgmt[i] = s.writes.mgmt[i].getD s.tables.mgmt[i])
    ∧ (∀ i : Chair, t.tables.chairs[i] = s.writes.chairs[i].getD s.tables.chairs[i])
    ∧ (∀ i : Loader, t.tables.loaders[i] = s.writes.loaders[i].getD s.tables.loaders[i])
    ∧ (∀ i : Zone, t.tables.zones[i] = s.writes.zones[i].getD s.tables.zones[i])
    ∧ (∀ i : Line, t.tables.lines[i] = s.writes.lines[i].getD s.tables.lines[i])
    ∧ (∀ i : Fin 16, t.tables.rules[i] = s.writes.rules[i].getD s.tables.rules[i])
    ∧ (∀ i : Fin 64, t.tables.events[i] = s.writes.events[i].getD s.tables.events[i])
    ∧ t.timer.period = (s.writes.device.map (·.period)).getD s.timer.period
    ∧ t.agent = { s.agent with commissioning := s.agent.commissioning && !t.tables.someListed }
    ∧ (let n := (allRefs.filter s.writes.marked).length
       let told (x : State) : State := if n = 0 then x else x.raise .tableApplied none none (wordOf n)
       let applied (x : State) : State :=
         let y := (order ++ allRefs).foldl State.applyEntry x
         if y.tables.someListed then { y with agent := { y.agent with commissioning := false } } else y
       let u := { s with due := s.due.erase .tableApplied }
       let v := if raiseFirst then applied (told u) else told (applied u)
       let w := if .phaseDraw ∈ u.due then State.drawPhases { v with due := u.due.erase .phaseDraw } else v
       t = w.finish ∧ (t.cycleStarting = true → t = { w with beacons := tabulate w.beaconOn })
         ∧ (t.cycleStarting = false → t.walkCalled = false))

/-- What applied LOADERS and DEVICE entries do (R166). A disable (R12, R97, R103): STANDING(DISABLED) with no holder from
whatever state, the epoch advanced exactly when a holder is removed, its Status Unit state reset and its pending deadline
dropped, with WITHDRAWN or ABORTED to a chair that was offered it or matching, and STAND and STAND_DISABLED (R8, R12). An enable
(R12): STANDING(START), the epoch kept. A new class moves a queued loader (R48). A DEVICE entry: the period
in force (R95), the windows and filters cut to their newest results (R62, R113), the deadlines kept but for that of a slot 0 of
the cycle now beginning (R97, log entry 5). -/
def Obligations.DisableStandsTheLoader : Prop :=
  ∀ (s : State) (l : Loader) (e : LoaderEntry) (d : DeviceEntry),
    let t := s.applyLoader l e
    let tables := { s.tables with loaders := putAt s.tables.loaders l e }
    (s.enabled l = true → e.enabled = false →
      t.auth[l] = ⟨.standing none .disabled, s.auth[l].epoch + (if s.auth[l].state.holder.isSome then 1 else 0)⟩
      ∧ t.status[l] = .initial ∧ t.deadlines[l] = none ∧ t.tables = tables ∧ t.walkCalled = true
      ∧ t.rep = (match s.auth[l].state with
          | .standing retained _ => s.standTold l .disabled retained t.auth[l].epoch s.rep
          | _ => s.standReport l .disabled s.rep)
      ∧ (∀ k : Loader, k ≠ l → t.auth[k] = s.auth[k] ∧ t.status[k] = s.status[k] ∧ t.deadlines[k] = s.deadlines[k]))
    ∧ (s.enabled l = false → e.enabled = true → s.auth[l].state = .standing none .disabled →
      t = { s with tables := tables, walkCalled := true, auth := putAt s.auth l ⟨.standing none .start, s.auth[l].epoch⟩ })
    ∧ (e.enabled = s.enabled l →
      t = { s with
        tables := tables, walkCalled := true
        callQueue := match s.auth[l].state with
          | .calling stamp =>
            if e.priority = s.tables.loaders[l].priority then s.callQueue
            else insertCall s.timer.number ⟨l, if s.status[l].accepted = .callUrgent then 0 else e.priority, stamp⟩
              (s.callQueue.filter (·.loader ≠ l))
          | _ => s.callQueue })
    ∧ (let u := s.applyDevice d
       (∀ k : Loader, u.windows[k] = s.windows[k].drop (s.windows[k].length - d.matchLength)
         ∧ u.status[k] = { s.status[k] with
             filter := s.status[k].filter.drop (s.status[k].filter.length - d.requestLength) }
         ∧ u.deadlines[k] = s.deadlines[k].map fun x =>
             if x.slot = s.timer.origin then ⟨x.port, x.slot, x.slot + 8 * d.period⟩ else x)
       ∧ u = { s with
           tables := { s.tables with device := d }, timer := { s.timer with period := d.period }
           windows := u.windows, status := u.status, deadlines := u.deadlines })

/-! ## Slots -/

/-- A slot instant that builds no synthesized frame (R76, R84–R86, R91, R96–R98, R159): one with no enabled loader only
steps the cycle position; one whose loader no chair drives sends a neutral or stand frame, or discards it while the port's
link is DOWN, and starts the status deadline. Slot 16 is slot 0 of the next cycle, before that cycle's start, with position 15
(log entry 4), and a slot may come among the other events of its instant, which wait on (R89). What follows from a deadline
or a millisecond step already taken, and the rest of a cycle start, come first, and the frame reflects them: where a deadline takes
the link DOWN, it is a stand frame with LINK_ALARM (R84, R89). -/
def Obligations.IdleSlotSendsNeutralOrStand : Prop :=
  ∀ (s : State) (p : LevelPort) (k : SlotTime) (slot : Slot) (l : Loader) (flags cause : Byte),
    (slot.val = if k = 16 then 0 else k.val) →
    let instant := s.timer.origin + k.val * s.timer.period
    let timer := { s.timer with position := s.timer.positionAt instant, now := instant }
    let b := s.builders[l]
    let frame : Frame := ⟨0x31, ⟨flags ||| (if s.status[l].linkUp then 0 else 8), s.tables.device.station,
      s.tables.loaders[l].station, byteOf l.val, s.auth[l].epoch, b.outSeq + 1⟩, [0, 0, 0, 0, 0, 0, 0, 0, 0, 0, 0, cause]⟩
    (0 < s.timer.period → timer.position.val = min 15 k.val)
    ∧ (s.running = true → s.timer.now = instant → s.canTake = false → ∀ (i : Instr) (d : Due),
        i.consequence = some d → d ≠ .tableApplied → s.following = [d] →
        ∃ t u, exec i s = .next t ∧ exec (.slotEvent p k) s = exec (.slotEvent p k) t ∧ exec (.slotEvent p k) s = .next u
          ∧ (∀ e ∈ s.due, e ≠ d → e ∈ u.due)
          ∧ (d = .linkDown l → s.BeaconsShow → s.RecordsAgree → s.loaderAt p slot = some l → s.auth[l].state.isStanding = false →
              s.linkIsUp p.toPort = true → ∃ f : Frame, u.lSending[levelIndex p] = some ⟨s.tables.device.marker, f⟩
                ∧ f.header.flags = 0x09 ∧ f.payload = [0, 0, 0, 0, 0, 0, 0, 0, 0, 0, 0, 0x04]))
    ∧ (s.ReadyAt instant → s.loaderAt p slot = none → exec (.slotEvent p k) s = .next { s with timer := timer })
    ∧ (s.ReadyAt instant → s.loaderAt p slot = some l → s.auth[l].state.idleFrame = some (flags, cause) →
        exec (.slotEvent p k) s = .next { s with
          timer := timer
          builders := putAt s.builders l
            { b with stale := 0, lastOut := ⟨0, 0, 0, 0⟩, lastGear := .neutral, outSeq := b.outSeq + 1 }
          lSending := putAt s.lSending (levelIndex p)
            (if s.linkIsUp p.toPort then some ⟨s.tables.device.marker, frame⟩ else none)
          rep := s.rep.count { s with timer := timer } (.loader l (if flags = 0x01 then standSent else cmdSent)) 1
          deadlines := putAt s.deadlines l (some ⟨p, instant, instant + 8 * s.timer.period⟩)
          due := s.due ++ if s.deadlines[l].isSome then [.statusDeadline l] else [] })

/-- The slot of a loader that a chair drives, its mailbox not stale (R76, R78, R83–R85, R91): a frame synthesized from the
holder mailbox, with HOLD when nothing fresh arrived, becomes the last output and leaves on the loader's port. -/
def Obligations.DrivenSlotSynthesizes : Prop :=
  ∀ (s : State) (p : LevelPort) (k : SlotTime) (slot : Slot) (l : Loader),
    s.ReadyAt (s.timer.origin + k.val * s.timer.period) →
    (slot.val = if k = 16 then 0 else k.val) → s.loaderAt p slot = some l →
    s.auth[l].state.driven = true → s.builders[l].fresh = true ∨ s.builders[l].stale < s.tables.device.holdLimit →
    let b := s.builders[l]
    let o := synthesize s.tables.loaders[l] (s.governor l) b.lastOut b.command
    let flags : Byte := (if s.status[l].linkUp then 0 else 8) ||| (if b.fresh then 0 else 16)
    let frame : Frame := ⟨0x31, ⟨flags, s.tables.device.station, s.tables.loaders[l].station, byteOf l.val,
      s.auth[l].epoch, b.outSeq + 1⟩, bytes16 (signed16 o.axes.throttle) ++ bytes16 (signed16 o.axes.steer)
        ++ bytes16 (signed16 o.axes.boom) ++ bytes16 (signed16 o.axes.bucket)
        ++ [b.command.gear.code, o.switches, if b.command.held then 0xA5 else 0x00, 0x00]⟩
    let instant := s.timer.origin + k.val * s.timer.period
    ∃ t, exec (.slotEvent p k) s = .next t
    ∧ t.timer = { s.timer with position := s.timer.positionAt instant, now := instant }
    ∧ t.builders = putAt s.builders l { b with
        fresh := false, stale := if b.fresh then 0 else b.stale + 1
        lastOut := o.axes, lastGear := b.command.gear, outSeq := b.outSeq + 1 }
    ∧ t.lSending = putAt s.lSending (levelIndex p)
        (if s.linkIsUp p.toPort then some ⟨s.tables.device.marker, frame⟩ else none)
    ∧ t.rep = (let r := s.rep.count { s with timer := t.timer } (.loader l cmdSent) 1
        if b.fresh then r else r.count { s with timer := t.timer } (.loader l holdSlots) 1)
    ∧ t.deadlines = putAt s.deadlines l (some ⟨p, instant, instant + 8 * s.timer.period⟩)
    ∧ t.due = s.due ++ (if s.deadlines[l].isSome then [.statusDeadline l] else [])
    ∧ t = { s with
        timer := t.timer, builders := t.builders, lSending := t.lSending, rep := t.rep, deadlines := t.deadlines
        due := t.due }

/-- A slot that finds its mailbox stale beyond the hold limit (R77, R8): the loader stands for STALE with its holder
retained and its mailbox left, and the slot sends a stand frame. The holder is sent STAND and STAND_STALE is raised, after
WITHDRAWN or ABORTED to a chair that was offered the loader or matching (R8). STAND_STALE as a command, which names the loader and
the slot, is that slot event (log entry 24). -/
def Obligations.StaleMailboxStandsTheLoader : Prop :=
  ∀ (s : State) (p : LevelPort) (k : SlotTime) (slot : Slot) (l : Loader),
    s.ReadyAt (s.timer.origin + k.val * s.timer.period) → s.RecordsAgree →
    (slot.val = if k = 16 then 0 else k.val) → s.loaderAt p slot = some l →
    s.auth[l].state.driven = true → s.builders[l].fresh = false → s.tables.device.holdLimit ≤ s.builders[l].stale →
    let b := s.builders[l]
    let frame : Frame := ⟨0x31, ⟨0x01 ||| (if s.status[l].linkUp then 0 else 8), s.tables.device.station,
      s.tables.loaders[l].station, byteOf l.val, s.auth[l].epoch, b.outSeq + 1⟩, [0, 0, 0, 0, 0, 0, 0, 0, 0, 0, 0, 0x03]⟩
    let instant := s.timer.origin + k.val * s.timer.period
    ∃ t, exec (.slotEvent p k) s = .next t
    ∧ exec (.standStale ⟨l, k⟩) s = .next t
    ∧ t.auth[l] = ⟨.standing s.auth[l].state.holder .stale, s.auth[l].epoch⟩
    ∧ (∀ m : Loader, m ≠ l → s.Kept t m ∧ t.builders[m] = s.builders[m])
    ∧ t.builders[l] = { b with
        stale := 0, lastOut := ⟨0, 0, 0, 0⟩, lastGear := .neutral, outSeq := b.outSeq + 1
        cand := t.builders[l].cand, lastCand := t.builders[l].lastCand }
    ∧ t.lSending = putAt s.lSending (levelIndex p)
        (if s.linkIsUp p.toPort then some ⟨s.tables.device.marker, frame⟩ else none)
    ∧ t.deadlines = putAt s.deadlines l (some ⟨p, instant, instant + 8 * s.timer.period⟩)
    ∧ (let u := { s with timer := t.timer }
       t.Reported ((u.standReport l .stale s.rep).count u (.loader l standSent) 1))
    ∧ State.OnlyAuthority { s with
        timer := { s.timer with position := s.timer.positionAt instant, now := instant }
        lSending := t.lSending, deadlines := t.deadlines
        due := s.due ++ if s.deadlines[l].isSome then [.statusDeadline l] else [] } t

/-! ## Status deadlines and what follows from them -/

/-- STATUS_DEADLINE of an enabled loader (R30, R97, R98, R115–R117): it falls at its own instant, or ahead of the loader's next
slot event at the instant of that slot where that is sooner, the cycle position being that of the instant. The next slot, which
the command names, is one still to come of the loader's in the applied table, after the deadline's own, or at its very instant on
the other port, to which the loader has been moved. The outcome enters the window, the mark is cleared, the up run and the loader's timer step, a miss is counted, and the deadline's consequences are
due. A deadline that a slot event taken before it brought forward has the same effect where it waits. -/
def Obligations.StatusDeadlineEntersTheOutcome : Prop :=
  ∀ (s : State) (l : Loader) (aheadOf : Option SlotTime) (d : Deadline), s.enabled l = true →
    (s.BeaconsShow → s.Whole → .statusDeadline l ∈ s.due →
      exec (.statusDeadline ⟨l, aheadOf⟩) s
        = .next (State.deadlineFalls { s with due := s.due.erase (.statusDeadline l) } l)) ∧ (
    let e := s.tables.loaders[l]
    let instant := match aheadOf with
      | some k =>
        let next := s.timer.origin + k.val * s.timer.period
        if k.val % 16 = e.slot.val ∧ s.timer.now ≤ next ∧ (d.slot < next ∨ d.slot = next ∧ d.port ≠ e.port) then
          min d.due next
        else d.due
      | none => d.due
    s.deadlines[l] = some d → s.ReadyAt instant → .statusDeadline l ∉ s.due →
    let st := s.status[l]
    let w := (st.linkWindow ++ [st.heard]).drop (st.linkWindow.length + 1 - 32)
    let run := if st.heard then min 32 (st.upRun + 1) else 0
    ∃ t, exec (.statusDeadline ⟨l, aheadOf⟩) s = .next t
    ∧ t.timer = { s.timer with position := t.timer.position, now := instant }
    ∧ (if instant < s.timer.origin then t.timer.position = s.timer.position
       else t.timer.position.val = min 15 ((instant - s.timer.origin) / s.timer.period))
    ∧ t.status = putAt s.status l { st with heard := false, linkWindow := w, upRun := run }
    ∧ t.auth = putAt s.auth l { s.auth[l] with state := s.auth[l].state.stepTimer }
    ∧ t.auth[l].state.timer = s.auth[l].state.timer.map (· - 1)
    ∧ t.rep = (if st.heard then s.rep else s.rep.count { s with timer := t.timer } (.loader l statusMissed) 1)
    ∧ t.deadlines = putAt s.deadlines l none
    ∧ t = State.deadlineFalls { s with timer := t.timer, deadlines := t.deadlines } l
    ∧ (∃ new : List Due, t.due = s.due ++ new ∧ ∀ x ∈ new, x ∈ ([.linkDown l, .linkUp l, .loaderReady l, .offerExpiry l,
        .matchTimeout l, .releaseTimeout l] : List Due))
    ∧ (.linkDown l ∈ t.due ↔ st.linkUp = true ∧ s.tables.device.linkDown ≤ w.count false)
    ∧ (.linkUp l ∈ t.due ↔ st.linkUp = false ∧ s.tables.device.linkUp ≤ run)
    ∧ (.loaderReady l ∈ t.due ↔ s.auth[l].state.cause = some .start ∨ s.auth[l].state.cause = some .reset)
    ∧ (.offerExpiry l ∈ t.due ↔ s.auth[l].state.offeredChair.isSome = true ∧ t.auth[l].state.timer = some 0)
    ∧ (.matchTimeout l ∈ t.due ↔ s.auth[l].state.candidate.isSome = true ∧ t.auth[l].state.timer = some 0)
    ∧ (.releaseTimeout l ∈ t.due ↔ t.auth[l].state = .releasing 0)
    ∧ t = { s with
        timer := t.timer, status := t.status, auth := t.auth, rep := t.rep, deadlines := t.deadlines, due := t.due })

/-- A consequence row whose event does not wait, a status deadline that is not pending and a STAND_STALE that would find
nothing stale have no effect; nor has a LOAD_END after the load; nor, while the load is in flight, have cycles, bursts and the
end of a transmission; and with an empty queue and nothing waiting the part idles (the model's choice: log entries 1, 3, 5, 23
and 24). -/
def Obligations.SpentCommandsHaveNoEffect : Prop :=
  ∀ (s : State) (i : Instr) (d : Due) (l : Loader) (k : SlotTime) (ahead : Option SlotTime) (p : Port) (burst : List Byte) (read : MemoryRead),
    (i.consequence = some d → d ∉ s.due → exec i s = .next s)
    ∧ (s.Quiet → s.deadlines[l] = none → exec (.statusDeadline ⟨l, ahead⟩) s = .next s)
    ∧ (s.Quiet → s.auth[l].state.driven = false ∨ s.builders[l].fresh = true ∨ s.tables.loaders[l].slot.val ≠ k.val % 16 →
        exec (.standStale ⟨l, k⟩) s = .next s)
    ∧ (s.config.phase ≠ .loading → exec (.loadEnd read) s = .next s)
    ∧ (s.Quiet → s.pending = [] → step s = .next s)
    ∧ (s.Quiet → s.config.phase = .loading → exec (.burstReceived p burst) s = .next s
        ∧ exec (.cycleStart true) s = .next s ∧ exec .millisecondStep s = .next s
        ∧ exec .sPortTransmissionEnd s = .next s)

/-- LINK_DOWN of an enabled loader (R116): the link is DOWN, the event LINK_DOWN gives the misses, and the cause LINK reaches the
loader, with the STAND and the event of R8. LINK_UP (R117) changes the link
and its window alone. The link of a disabled loader does not move, and its deadline does not fall (R97, R103).
LOADER_READY (R10, R11): a loader that stands for START or RESET with its link UP and no stand condition becomes FREE,
or CALLING where it calls, with LOADER_READY and then CALL_QUEUED (an order of the model's choice, log entry 7); any other is left. A stand condition holds while the link is DOWN or an enabled line that is ACTIVE
or LATCHED covers the loader's zone, every such line covering an unknown zone (R7, R109). -/
def Obligations.LinkChangesAndLoaderReady : Prop :=
  ∀ (s : State) (l : Loader),
    (s.standCondition l = true ↔ s.status[l].linkUp = false ∨ ∃ i : Line, s.tables.lines[i].enabled = true
      ∧ s.lines[i].status ≠ .clear ∧ (∀ z, s.status[l].zone = some z → s.tables.lines[i].zones.getLsbD z.val = true))
    ∧ (s.Over → s.RecordsAgree → s.enabled l = true → .linkDown l ∈ s.due → ∃ t, exec (.linkDown l) s = .next t
      ∧ t.status = putAt s.status l { s.status[l] with linkUp := false }
      ∧ t.Reported (s.standReport l .link
          (s.rep.raise s ⟨.linkDown, some l, none, wordOf (s.status[l].linkWindow.count false)⟩))
      ∧ s.stood t l .link = true ∧ (∀ m : Loader, m ≠ l → s.Kept t m)
      ∧ State.OnlyAuthority { s with due := s.due.erase (.linkDown l), status := t.status } t)
    ∧ (s.Over → s.enabled l = false → ∀ ahead : Option SlotTime,
        (.linkDown l ∈ s.due → exec (.linkDown l) s = .next { s with due := s.due.erase (.linkDown l) })
        ∧ (.linkUp l ∈ s.due → exec (.linkUp l) s = .next { s with due := s.due.erase (.linkUp l) })
        ∧ (s.following = [] → .statusDeadline l ∈ s.due →
          exec (.statusDeadline ⟨l, ahead⟩) s = .next { s with due := s.due.erase (.statusDeadline l) }))
    ∧ (s.Over → s.enabled l = true → .linkUp l ∈ s.due → exec (.linkUp l) s = .next { s with
        due := s.due.erase (.linkUp l)
        status := putAt s.status l { s.status[l] with linkUp := true, linkWindow := [] }
        rep := s.rep.raise s ⟨.linkUp, some l, none, 0⟩ })
    ∧ (s.Over → s.RecordsAgree → .loaderReady l ∈ s.due →
        let rest := { s with due := s.due.erase (.loaderReady l) }
        if (s.auth[l].state = .standing none .start ∨ s.auth[l].state = .standing none .reset)
            ∧ s.standCondition l = false then
          ∃ t, exec (.loaderReady l) s = .next t
          ∧ t.auth[l].epoch = s.auth[l].epoch ∧ s.freed t l s.status[l].accepted = true
          ∧ t.Reported (s.freedReport l (s.rep.raise s ⟨.loaderReady, some l, none, 0⟩))
          ∧ (∀ m : Loader, m ≠ l → s.Kept t m) ∧ rest.OnlyAuthority t
        else exec (.loaderReady l) s = .next rest)

/-- OFFER_EXPIRY (R18, R19, R20, R43): the chair loses the offer and one more missed offer counts against it, its third in a
row making it unavailable; the loader returns. The chair is sent WITHDRAWN(EXPIRED), OFFERS_MISSED is counted, CHAIR_UNAVAILABLE
raised for a third, and then come what the return reports and OFFER_ENDED. -/
def Obligations.OfferExpires : Prop :=
  ∀ (s : State) (l : Loader) (holder : Option Chair) (c : Chair) (origin : Origin) (number : Word16)
    (offerer : Option Chair), s.Over → s.RecordsAgree → .offerExpiry l ∈ s.due →
    s.auth[l].state = .offered holder c origin number offerer 0 →
    ∃ t, exec (.offerExpiry l) s = .next t
    ∧ s.returned t l = true ∧ (∀ m : Loader, m ≠ l → s.Kept t m)
    ∧ s.Rejoined t c ∧ t.chairs[c].lastEnded = some number
    ∧ t.chairs[c].missed = min 3 (s.chairs[c].missed + 1)
    ∧ t.chairs[c].available = (s.chairs[c].available && s.chairs[c].missed ≠ 2)
    ∧ (let sent := (s.rep.sends s c .withdrawn l s.auth[l].epoch 0x22 number).count s (.chair c offersMissed) 1
       let missed := if s.chairs[c].missed = 2 then sent.raise s ⟨.chairUnavailable, none, some c, 2⟩ else sent
       t.Reported ((s.returnReport l missed).raise s ⟨.offerEnded, some l, some c, 2⟩))
    ∧ State.OnlyAuthority { s with due := s.due.erase (.offerExpiry l) } t

/-- MATCH_TIMEOUT (R66, R68, R20): the window and the candidate mailbox are emptied, the candidate leaves its place and the
loader returns. The candidate is sent FAILED(MISMATCH), MATCH_FAILS is counted, and MATCH_FAILED is raised, both with the results of
the window. RELEASE_TIMEOUT (R26): the loader stands for RELEASE_TIMEOUT. -/
def Obligations.MatchingAndReleaseTimeOut : Prop :=
  ∀ (s : State) (l : Loader) (holder : Option Chair) (c : Chair) (origin : Origin) (offerer : Option Chair),
    s.Over → s.RecordsAgree →
    (.matchTimeout l ∈ s.due → s.auth[l].state = .matching holder c origin offerer 0 →
      ∃ t, exec (.matchTimeout l) s = .next t
      ∧ s.returned t l = true ∧ (∀ m : Loader, m ≠ l → s.Kept t m)
      ∧ s.Rejoined t c ∧ t.windows = putAt s.windows l []
      ∧ t.builders = putAt s.builders l { s.builders[l] with cand := none, lastCand := none }
      ∧ (let detail := wordOf (256 * s.windows[l].count true + s.windows[l].length)
         let failed := s.rep.notice s c { name := .failed, loader := some l, chair := some c, epoch := s.auth[l].epoch,
                                          byte6 := 0x29, detail := detail }
         t.Reported (s.returnReport l
           ((failed.count s (.chair c matchFails) 1).raise s ⟨.matchFailed, some l, some c, detail⟩)))
      ∧ State.OnlyAuthority { s with due := s.due.erase (.matchTimeout l) } t)
    ∧ (.releaseTimeout l ∈ s.due → s.auth[l].state = .releasing 0 →
        exec (.releaseTimeout l) s = .next { s with
          due := s.due.erase (.releaseTimeout l)
          auth := putAt s.auth l ⟨.standing none .releaseTimeout, s.auth[l].epoch⟩
          rep := s.rep.raise s ⟨.standReleaseTimeout, some l, none, s.auth[l].epoch.setWidth 16⟩ })

/-- A chair's presence runs out (R38) or it leaves (R39): it is ABSENT, its place on the Free Chair List, its views and its
place with a loader end (R40). An applied CHAIRS entry: a present chair that it disables or gives another station or role goes
the same way (R41); one that it leaves without the loader the chair is engaged with ends that place (R167); its views outside
the new set end (R119). That the first two leave R167 nothing to do is log entry 35. CHAIR_ABSENT comes first with its detail (log
entry 8). While another action of the cycle start waits, the expiry makes no walk (R166). -/
def Obligations.AbsentChairLosesItsPlace : Prop :=
  ∀ (s : State) (c : Chair) (h : Header) (tag : Word16) (e : ChairEntry), s.RecordsAgree →
    (.presenceExpiry c ∈ s.due → s.chairs[c].status ≠ .absent → s.chairs[c].presence = 0 →
      ∃ t, exec (.presenceExpiry c) s = .next t ∧ s.Gone t c ∧ t.Reported (s.goneReport c 1 s.rep)
      ∧ (t.cycleStarting = true → t.offerCounter = s.offerCounter ∧ (s.walkCalled = true → t.walkCalled = true))
      ∧ (t.cycleStarting = false → t.walkCalled = false)
      ∧ State.OnlyAuthority { s with
          due := s.due.erase (.presenceExpiry c), views := t.views, walkCalled := t.walkCalled } t)
    ∧ (s.Admits (requestFrame h 0x02 tag []) c → s.chairs[c].status ≠ .absent →
      ∃ t, exec (.leave h tag []) s = .next t ∧ s.Gone t c ∧ t.Reported (s.goneReport c 2 (s.doneReport c tag none 0))
      ∧ State.OnlyAuthority { s with views := t.views } t)
    ∧ (let t := s.applyChair c e
       let old := s.tables.chairs[c]
       let goes : Bool := s.chairs[c].status ≠ .absent
         && (!e.enabled || e.station ≠ old.station || e.supervisor ≠ old.supervisor)
       let u := { s with tables := { s.tables with chairs := putAt s.tables.chairs c e } }
       (goes = true → s.Gone t c ∧ t.rep = u.goneReport c (if e.enabled then 4 else 3) s.rep)
       ∧ (goes = false → t.rep = match s.chairs[c].engaged with
           | none => s.rep
           | some l => if e.permitted.getLsbD l.val then s.rep else u.permitReport c l s.rep)
       ∧ (goes = false → ∀ l : Loader,
           (if s.chairs[c].engaged = some l ∧ e.permitted.getLsbD l.val = false then
              s.abandoned t l c = true
              ∧ t.chairs[c] = { s.chairs[c] with
                  status := .idle, engaged := none, lastEnded := t.chairs[c].lastEnded
                  idleSince := if s.chairs[c].available then s.timer.number else s.chairs[c].idleSince }
              ∧ (c ∈ t.freeList ↔ s.chairs[c].available = true)
            else t.auth[l] = s.auth[l])
           ∧ t.views[c][l] = { s.views[c][l] with active := s.views[c][l].active && e.views.getLsbD l.val })
       ∧ State.OnlyAuthority { s with
           tables := { s.tables with chairs := putAt s.tables.chairs c e }
           views := putAt s.views c t.views[c], walkCalled := true } t)

/-- AUTHORITY_RESET (R32, R35, R70, R92, R119, R170): every enabled loader stands for RESET with its epoch advanced, every
mailbox, window, list and view is emptied, every chair is ABSENT, the mark is cleared, and AUTHORITY_RESET alone is raised. -/
def Obligations.AuthorityResetClearsAuthority : Prop :=
  ∀ s : State, .authorityReset ∈ s.due →
    ∃ t, exec .authorityReset s = .next t
    ∧ (∀ l : Loader, t.auth[l] =
        if s.enabled l then ⟨.standing none .reset, s.auth[l].epoch + 1⟩ else s.auth[l])
    ∧ (∀ c : Chair, t.chairs[c] = { s.chairs[c] with
        status := .absent, available := false, presence := 0, missed := 0, engaged := none })
    ∧ (∀ l : Loader, t.builders[l] = s.builders[l].emptied ∧ t.windows[l] = [])
    ∧ (∀ (c : Chair) (l : Loader), t.views[c][l] = { s.views[c][l] with active := false })
    ∧ t.callQueue = [] ∧ t.freeList = [] ∧ t.agent = { s.agent with resetMark := false }
    ∧ t.due = s.due.erase .authorityReset
    ∧ (∀ n : Beacon, t.beacons[n] = t.beaconOn n)
    ∧ t.rep = s.rep.raise { s with chairs := t.chairs } ⟨.authorityReset, none, none, 0⟩
    ∧ t = { s with
        auth := t.auth, chairs := t.chairs, builders := t.builders, windows := t.windows, views := t.views, callQueue := []
        freeList := [], agent := t.agent, due := t.due, beacons := t.beacons, rep := t.rep
        walkCalled := s.walkCalled && t.cycleStarting }

/-! ## Interlock lines and port links -/

/-- MILLISECOND_STEP (R98, R99, R126) steps the count, the cycle position being that of its instant where the count and the
cycles agree (log entry 4), and makes due the settling of each enabled line whose changed level has held; LINE_LEVEL_CHANGE
(R126) takes a level that differs as the raw level, with the change time: the millisecond count, or that of the step which falls
at the instant of the change and has not been taken, so that this step measures no time. -/
def Obligations.LinesAreSampled : Prop :=
  ∀ (s : State) (i : Line) (level : Level), s.Ready →
    let millis := s.timer.millis + 1
    let timer := s.timer.stepMillis
    timer = { s.timer with millis := millis, position := timer.position, now := timer.now }
    ∧ (wordOf (s.timer.now / 16) = s.timer.millis →
        timer.now = 16 * (s.timer.now / 16 + 1) ∧ timer.position = s.timer.positionAt timer.now)
    ∧ exec .millisecondStep s = .next { s with
      timer := timer
      due := (allLines.filter fun j => s.tables.lines[j].enabled && s.lines[j].raw ≠ s.lines[j].settled
        && s.tables.lines[j].debounce ≤ (millis - s.lines[j].changed).toNat).map Due.lineSettle }
    ∧ (let atStep : Bool := s.timer.now % 16 = 0 && wordOf (s.timer.now / 16) = millis
       let sampled (count : Word16) (timer : Timer) : State := { s with
         timer := timer, linePins := putAt s.linePins i level
         lines := if s.lines[i].raw = level then s.lines
           else putAt s.lines i { s.lines[i] with raw := level, changed := count } }
       exec (.lineLevelChange i ⟨level, false⟩) s
           = .next (sampled (if atStep then millis else s.timer.millis) s.timer)
         ∧ exec (.lineLevelChange i ⟨level, true⟩) s = .next (sampled millis { timer with millis := s.timer.millis })
         ∧ (s.lines[i].raw ≠ level → s.tables.lines[i].debounce ≠ 0 → ∃ t u,
             exec (.lineLevelChange i ⟨level, true⟩) s = .next t ∧ exec .millisecondStep t = .next u
               ∧ .lineSettle i ∉ u.due))

/-- LINE_SETTLE of an enabled line (R126–R129): a line that settles asserted becomes ACTIVE, and the cause INTERLOCK reaches
every enabled loader in its zone set or in an unknown zone, INTERLOCK_ACTIVE first; an ACTIVE line that settles safe becomes LATCHED, or CLEAR when it
does not latch or carries the start mark; otherwise the settled level alone changes. A disabled line does not settle. An applied
LINES entry (R133): a disable clears the line, an enable begins it ACTIVE (its change time is log entry 38), and a change of an
enabled line moves it by its settled level and reaches the loaders that a wider zone set brings under it; that the move reads
the new entry whole is log entry 34. -/
def Obligations.LineSettles : Prop :=
  ∀ (s : State) (i : Line) (e : LineEntry),
    let x := s.lines[i]
    let old := s.tables.lines[i]
    let assertedBy (e : LineEntry) (level : Level) : Bool := level = (if e.openIsActive then .opened else .closed)
    let reached (e : LineEntry) (l : Loader) : Bool := s.enabled l && match s.status[l].zone with
      | some z => e.zones.getLsbD z.val
      | none => true
    let moved (e : LineEntry) (level : Level) : LineState :=
      let latches := e.latching && !x.startMark
      { x with
        settled := level
        status := if assertedBy e level then .active
          else if x.status = .active then (if latches then .latched else .clear) else x.status
        startMark := if !assertedBy e level && x.status = .active && !latches then false else x.startMark }
    (s.Over → old.enabled = false → .lineSettle i ∈ s.due →
      exec (.lineSettle i) s = .next { s with due := s.due.erase (.lineSettle i) })
    ∧ (s.Over → s.RecordsAgree → old.enabled = true → .lineSettle i ∈ s.due →
      ∃ t, exec (.lineSettle i) s = .next t
      ∧ (let told (name : EventName) : Report := s.rep.raise s ⟨name, none, none, wordOf i.val⟩
         t.Reported (
           if assertedBy old x.raw then
             if x.status = .active then s.rep
             else (allLoaders.filter (reached old)).foldl (fun r l => s.standReport l .interlock r) (told .interlockActive)
           else if x.status = .active then told (if old.latching && !x.startMark then .interlockLatched else .interlockCleared)
           else s.rep))
      ∧ t.lines = putAt s.lines i (moved old x.raw)
      ∧ (∀ l : Loader, if assertedBy old x.raw = true ∧ x.status ≠ .active ∧ reached old l = true then
          s.stood t l .interlock = true else s.Kept t l)
      ∧ State.OnlyAuthority { s with due := s.due.erase (.lineSettle i), lines := t.lines } t)
    ∧ (let t := s.applyLine i e
       let brought (l : Loader) : Bool := s.enabled l && match s.status[l].zone with
         | some z => e.zones.getLsbD z.val && !old.zones.getLsbD z.val
         | none => false
       t.lines = putAt s.lines i (
         if !e.enabled then (if old.enabled then { x with status := .clear, startMark := false } else x)
         else if !old.enabled then ⟨x.raw, s.timer.millis, if e.openIsActive then .opened else .closed, .active, true⟩
         else moved e x.settled)
       ∧ (∀ l : Loader,
           if e.enabled = true ∧ ((old.enabled = false ∨ (assertedBy e x.settled = true ∧ x.status ≠ .active))
                ∧ reached e l = true
              ∨ old.enabled = true ∧ t.lines[i].status ≠ .clear ∧ brought l = true) then s.stood t l .interlock = true
           else t.auth[l] = s.auth[l])
       ∧ State.OnlyAuthority { s with
           tables := { s.tables with lines := putAt s.tables.lines i e }, lines := t.lines, walkCalled := t.walkCalled } t)

/-- PORT_LINK_UP and PORT_LINK_DOWN (R149, R158, R159): the link state follows the signal with its event; a port that goes
DOWN loses the frame it was sending; a link already in the state stays (log entry 19). -/
def Obligations.PortLinksFollowTheSignal : Prop :=
  ∀ (s : State) (p : Port), s.Ready →
    let n := Port.index p
    exec (.portLinkUp p) s = .next (if s.portUp[n] then { s with portSignal := putAt s.portSignal n true } else { s with
      portSignal := putAt s.portSignal n true
      portUp := putAt s.portUp n true
      rep := s.rep.raise s ⟨.portLinkUp, none, none, wordOf n.val⟩ })
    ∧ exec (.portLinkDown p none) s = .next (if !s.portUp[n] then { s with portSignal := putAt s.portSignal n false }
      else { s with
        portSignal := putAt s.portSignal n false
        portUp := putAt s.portUp n false
        sending := if p = .surface then none else s.sending
        lSending := match p with
          | .surface => s.lSending
          | .levelA => putAt s.lSending 0 none
          | .levelB => putAt s.lSending 1 none
        rep := s.rep.raise s ⟨.portLinkDown, none, none, wordOf n.val⟩ })

/-! ## Frames -/

/-- A frame of a kind its port does not admit is discarded and counted as WRONG_PORT (R151). -/
def Obligations.WrongPortIsCounted : Prop :=
  ∀ (s : State) (p : Port) (f : Frame), s.Ready → s.linkIsUp p = true → f.payload.length ≤ 256 →
    payloadFits f.kind f.payload.length = true →
    (match p with
      | .surface => f.kind ≠ kindCommand ∧ f.kind ≠ kindChairRequest ∧ f.kind ≠ kindMgmtRequest
      | .levelA => f.kind ≠ kindStatus
      | .levelB => f.kind ≠ kindStatus) →
    exec (.burstReceived p (frameBurst s.tables.device.marker f)) s = .next (s.count (.device wrongPort))

/-- Bursts and frames that reach no owner (R149, R150, R152, R153, R155): nothing is received while the link is DOWN; a
framing error, a check error, an unknown source, a station that is not admitted and a frame that a rule drops are counted,
and change nothing else. The deciding rule is the first in use whose five keys all match, and none for a STOP; one with action
PASS_LOG raises RULE_HIT and the frame goes on to its owner (R154–R156). -/
def Obligations.DiscardedFramesAreCounted : Prop :=
  ∀ (s : State) (p : Port) (burst : List Byte) (i : Instr) (h : Header) (c : CommandPayload) (code : Byte) (tag : Word16)
    (args : List Byte) (q : LevelPort) (st : StatusPayload) (operation selector index : Byte) (f : Frame) (x : Chair)
    (l : Loader) (r : Fin 16),
    let hit (chair : Option Chair) : State := s.raise .ruleHit (indexOfByte 16 h.loader) chair (wordOf r.val)
    let acts (f : Frame) (i : Instr) (logged : State) : Prop := s.decidingRule f = some r →
      (s.tables.rules[r].action = .drop → exec i s = .next (s.count (.device ruleDrops)))
      ∧ (s.tables.rules[r].action = .passLog → exec i s = .next logged.finish)
    let request := requestFrame h code tag args
    let management := mgmtFrame h operation tag selector index args
    s.decidingRule (requestFrame h 0x17 tag args) = none
    ∧ (¬(f.kind = kindChairRequest ∧ f.payload.headD 0 = 0x17) → (s.decidingRule f = some r ↔
        s.tables.rules[r].covers f = true ∧ ∀ n : Fin 16, n < r → s.tables.rules[n].covers f = false))
    ∧ (let e := s.tables.rules[r]
       let key := if f.kind = kindChairRequest ∨ f.kind = kindMgmtRequest then f.payload.headD 0 else 0
       e.covers f = (e.inUse && f.kind &&& e.kindMask = e.kind &&& e.kindMask
         && f.header.flags &&& e.flagsMask = e.flags &&& e.flagsMask
         && f.header.source &&& e.sourceMask = e.source &&& e.sourceMask
         && f.header.loader &&& e.loaderMask = e.loader &&& e.loaderMask && key &&& e.codeMask = e.code &&& e.codeMask))
    ∧ (s.Ready →
    (s.linkIsUp p = false → exec (.burstReceived p burst) s = .next s)
    ∧ (s.linkIsUp p = true → judgeBurst s.tables.device.marker burst = .framingError →
        exec (.burstReceived p burst) s = .next (s.count (.device (framingErrors p))))
    ∧ (s.linkIsUp p = true → judgeBurst s.tables.device.marker burst = .checkError →
        exec (.burstReceived p burst) s = .next (s.count (.device (checkErrors p))))
    ∧ (s.linkIsUp q.toPort = true → s.loaderOf q.toPort h = none →
        exec (.status q h st) s = .next (s.count (.device unknownSource)))
    ∧ (s.linkIsUp .surface = true → s.chairOf h.source = none →
        exec (.command h c) s = .next (s.count (.device unknownSource)))
    ∧ (s.linkIsUp q.toPort = true → s.loaderOf q.toPort h = some l → acts (statusFrameOf h st) (.status q h st)
        ((hit none).statusFrame l h st))
    ∧ (s.linkIsUp .surface = true → s.chairOf h.source = some x → acts (commandFrame h c) (.command h c)
        (((hit (some x)).refreshPresence x).commandFrameFrom x h c))
    ∧ (s.linkIsUp .surface = true → i.asked = some (h, code, tag, args) → 3 + args.length ≤ 256 →
        (s.chairOf h.source = none → exec i s = .next (s.count (.device unknownSource)))
        ∧ (s.chairOf h.source = some x → acts request i
            (((hit (some x)).refreshPresence x).chairRequest x h.loader code tag args)))
    ∧ (s.linkIsUp .surface = true → 5 + args.length ≤ 256 →
        (s.mgmtAdmitted h.source = false →
          exec (.mgmtRequest h operation tag selector index args) s = .next (s.count (.device mgmtDenied)))
        ∧ (s.mgmtAdmitted h.source = true → acts management (.mgmtRequest h operation tag selector index args)
            ((hit none).mgmtArrival ⟨h.source, h.sequence, operation, tag, selector, index, args⟩))))

/-- The receive checks read back every frame whose payload has a length its kind takes (R137–R139, R150). -/
def Obligations.FrameRoundTrip : Prop :=
  ∀ (marker : Byte) (f : Frame), f.payload.length ≤ 256 → payloadFits f.kind f.payload.length = true →
    judgeBurst marker (frameBurst marker f) = .good f

/-- The burst of a frame of a structured row has the effect of that row (R141–R143, R145, R150, R156). -/
def Obligations.BurstsSpellTheStructuredRows : Prop :=
  ∀ (s : State) (i : Instr) (h : Header) (c : CommandPayload) (code : Byte) (tag : Word16) (args : List Byte)
    (q : LevelPort) (st : StatusPayload) (operation selector index : Byte), s.Ready →
    let burst (f : Frame) : List Byte := frameBurst s.tables.device.marker f
    exec (.burstReceived .surface (burst (commandFrame h c))) s = exec (.command h c) s
    ∧ exec (.burstReceived q.toPort (burst (statusFrameOf h st))) s = exec (.status q h st) s
    ∧ (i.asked = some (h, code, tag, args) → 3 + args.length ≤ 256 →
        exec (.burstReceived .surface (burst (requestFrame h code tag args))) s = exec i s)
    ∧ (5 + args.length ≤ 256 →
        exec (.burstReceived .surface (burst (mgmtFrame h operation tag selector index args))) s
          = exec (.mgmtRequest h operation tag selector index args) s)

/-! ## COMMAND frames -/

/-- A COMMAND frame of a chair that is not the candidate (R55, R72–R74): a holder's frame with the current epoch and a newer
sequence fills the mailbox, clamped and with unknown codes read as NEUTRAL and NOT_HELD; every other is counted and dropped. -/
def Obligations.HolderFramesFillTheMailbox : Prop :=
  ∀ (s : State) (h : Header) (p : CommandPayload) (c : Chair), s.Admits (commandFrame h p) c →
    let u := s.refreshPresence c
    let axis (w : Word16) : Int := max (-2047) (min 2047 w.toInt)
    let m : Command := ⟨⟨axis p.throttle, axis p.steer, axis p.boom, axis p.bucket⟩,
      if p.gear = 0x01 then .forward else if p.gear = 0x02 then .reverse else .neutral, p.switches, p.deadman = 0xA5,
      h.sequence⟩
    (16 ≤ h.loader.toNat → exec (.command h p) s = .next (u.count (.chair c notHolder)))
    ∧ ∀ l : Loader, indexOfByte 16 h.loader = some l →
      let a := s.auth[l]
      let b := s.builders[l]
      (s.enabled l = false → exec (.command h p) s = .next (u.count (.chair c notHolder)))
      ∧ (s.enabled l = true → a.state.holder = some c →
          exec (.command h p) s = .next (
            if h.epoch ≠ a.epoch then u.count (.loader l staleEpoch)
            else if newerThanLast h.sequence b.lastSeq then
              (u.setBuilder l { b with holder := some m, fresh := true, lastSeq := some h.sequence }).count
                (.chair c framesAccepted)
            else u.count (.chair c oldSeq)))
      ∧ (s.enabled l = true → a.state.holder ≠ some c → a.state.candidate ≠ some c →
          exec (.command h p) s = .next (
            if h.epoch = a.epoch ∨ h.epoch = a.epoch + 1 then u.count (.chair c notHolder)
            else u.count (.loader l staleEpoch)))

/-- A COMMAND frame of the candidate (R56, R58–R64): one with the next epoch and a newer sequence enters the window as MATCH
or MISS. It matches when its governed and clamped axes lie within tolerance of the last output, or of 0 where there is no
holder, its gear is the last gear, or NEUTRAL, and its deadman is HELD. The one that brings the window to K matches grants the loader: the epoch advances, the granting command is the
fresh content of the mailbox, and the previous holder leaves its place. GRANT goes to the new holder, then LOST to the previous one,
TRANSFERRED where there was an offerer and TAKEN where not; GRANTED is raised and one GRANTS counted (R64). -/
def Obligations.CandidateFramesMatchAndGrant : Prop :=
  ∀ (s : State) (h : Header) (p : CommandPayload) (c : Chair) (l : Loader) (holder : Option Chair) (origin : Origin)
    (offerer : Option Chair) (timer : Nat), s.Admits (commandFrame h p) c → s.RecordsAgree →
    indexOfByte 16 h.loader = some l → s.enabled l = true →
    s.auth[l].state = .matching holder c origin offerer timer →
    let u := s.refreshPresence c
    let b := s.builders[l]
    let m := readCommand p h.sequence
    let e := s.tables.loaders[l]
    let g := match s.status[l].zone with
      | some z => s.tables.zones[z].governor
      | none => s.tables.device.unknownGovernor
    let y : Axes := if holder.isSome then b.lastOut else ⟨0, 0, 0, 0⟩
    let nearby (x : AxisLimits) (value reference : Int) : Bool := (x.clamp value - reference).natAbs ≤ x.tol
    let verdict : Bool := nearby e.throttle ((m.axes.throttle * g).tdiv 256) y.throttle && nearby e.steer m.axes.steer y.steer
      && nearby e.boom m.axes.boom y.boom && nearby e.bucket m.axes.bucket y.bucket
      && m.gear = (if holder.isSome then b.lastGear else .neutral) && m.held
    let w := ((s.windows[l] ++ [verdict]).drop (s.windows[l].length + 1 - s.tables.device.matchLength))
    if h.epoch ≠ s.auth[l].epoch + 1 then exec (.command h p) s = .next (u.count (.loader l staleEpoch))
    else if newerThanLast h.sequence b.lastCand = false then exec (.command h p) s = .next (u.count (.chair c oldSeq))
    else if w.count true < s.tables.device.matchCount then
      exec (.command h p) s = .next { (u.count (.chair c framesAccepted)) with
        windows := putAt s.windows l w
        builders := putAt s.builders l { b with cand := some m, lastCand := some h.sequence } }
    else ∃ t, exec (.command h p) s = .next t
      ∧ t.auth[l] = ⟨.held c, s.auth[l].epoch + 1⟩ ∧ t.windows = putAt s.windows l []
      ∧ t.builders = putAt s.builders l { b with
          holder := some m, fresh := true, lastSeq := some h.sequence, stale := 0, cand := none, lastCand := none }
      ∧ t.chairs[c].status = .holding ∧ t.chairs[c].engaged = some l
      ∧ (let granted := (s.rep.count s (.chair c framesAccepted) 1).sends s c .grant l (s.auth[l].epoch + 1) 0
         let lost := match holder with
           | none => granted
           | some x => granted.notice s x { name := .lost, loader := some l, chair := some c, epoch := s.auth[l].epoch + 1,
                                            byte6 := if offerer.isSome then 0x27 else 0x28 }
         t.Reported ((lost.raise s ⟨.granted, some l, some c, (byteOfIndex holder).setWidth 16⟩).count s (.loader l grants) 1))
      ∧ (∀ x : Chair, holder = some x → s.Rejoined t x) ∧ (∀ k : Loader, k ≠ l → s.Kept t k)
      ∧ s.OnlyAuthority t

/-! ## STATUS frames -/

/-- A STATUS frame of an enabled loader enters the marks, windows and filters of the Status Unit (R104–R108, R110, R111);
one of a disabled loader changes nothing. Its first two steps count it and its far-end errors, and raise LINK_DEGRADED or
DEGRADE_CLEARED with the sum where the sum calls for it. -/
def Obligations.StatusFrameEntersTheReports : Prop :=
  ∀ (s : State) (q : LevelPort) (h : Header) (p : StatusPayload) (l : Loader),
    s.AdmitsStatus q.toPort (statusFrameOf h p) l →
    let st := s.status[l]
    let far := (st.farEnd ++ [min p.farEnd.toNat 3]).drop (st.farEnd.length + 1 - 32)
    let r := Request.ofCode p.request
    let filter := (st.filter ++ [r]).drop (st.filter.length + 1 - s.tables.device.requestLength)
    let threshold := s.tables.device.degrade
    (s.enabled l = false → exec (.status q h p) s = .next s)
    ∧ (s.enabled l = true → ∃ t, exec (.status q h p) s = .next t
      ∧ t.status = putAt s.status l { st with
          heard := true, farEnd := far
          degraded := if st.degraded then threshold / 2 < far.sum else threshold ≤ far.sum
          zone := if h : p.zone.toNat < 8 then some ⟨p.zone.toNat, h⟩ else none
          filter := filter
          accepted := if s.tables.device.requestCount ≤ filter.count r then r else st.accepted }
      ∧ (let counted := (s.rep.count s (.loader l statusGood) 1).count s (.loader l farEndErrors) (min p.farEnd.toNat 3)
         ((s.heardStep l).farEndStep l p.farEnd).rep =
           if st.degraded = false ∧ threshold ≤ far.sum then counted.raise s ⟨.linkDegraded, some l, none, wordOf far.sum⟩
           else if st.degraded = true ∧ far.sum ≤ threshold / 2 then
             counted.raise s ⟨.degradeCleared, some l, none, wordOf far.sum⟩
           else counted)
      ∧ State.OnlyAuthority { s with status := t.status, forwards := t.forwards } t)

/-- What a STATUS frame does to the records (R11, R26, R47–R51, R109, R114): a zone entered under an active line stands the
loader; else a new call queues a FREE loader, an ended call withdraws it from the queue or ends its offer, and a report of
AUTO ends RELEASING; in every other case, and for every other loader, the record is kept. Each of these steps reports the entry into
the zone and the stand, the call queued or withdrawn with WITHDRAWN(CALL_ENDED) and OFFER_ENDED, FAULT and LOADER_FAULT (R112), or
RELEASE_DONE. A call joins the Call Queue by
class, then by age, then by loader number, the others keeping their order (R46–R48). -/
def Obligations.StatusFrameMovesTheLoader : Prop :=
  ∀ (s : State) (q : LevelPort) (h : Header) (p : StatusPayload) (l : Loader),
    (∀ stamp : Word32,
      let others := s.callQueue.filter (·.loader ≠ l)
      let e : CallEntry := ⟨l, if s.status[l].accepted = .callUrgent then 0 else s.tables.loaders[l].priority, stamp⟩
      let age (e : CallEntry) : Nat := (s.timer.number - e.stamp).toNat
      let ahead (a b : CallEntry) : Prop := a.cls < b.cls ∨ a.cls = b.cls ∧ (age b < age a ∨ age a = age b ∧ a.loader < b.loader)
      let queue := (s.enqueue l stamp).callQueue
      e ∈ queue ∧ queue.erase e = others ∧ (others.Pairwise ahead → queue.Pairwise ahead))
    ∧ (let zone := zoneOfByte p.zone
       (s.zoneStep l p.zone).rep =
         if zone ≠ s.status[l].zone ∧ s.zoneInterlocked zone = true then s.standReport l .interlock
           (s.rep.raise s ⟨.zoneEntryBlocked, some l, none, (byteOfZone zone).setWidth 16⟩)
         else s.rep)
    ∧ (let r := Request.ofCode p.request
       let old := s.status[l].accepted
       let filter := (s.status[l].filter ++ [r]).drop (s.status[l].filter.length + 1 - s.tables.device.requestLength)
       let changed := match s.auth[l].state with
         | .free => if r.isCall then s.rep.raise s ⟨.callQueued, some l, none, 1⟩ else s.rep
         | .calling _ => if r.isCall then s.rep else s.rep.raise s ⟨.callWithdrawn, some l, none, 0⟩
         | .offered none c (.call _) number _ _ =>
           if r.isCall then s.rep
           else ((s.rep.sends s c .withdrawn l s.auth[l].epoch 0x25 number).raise s ⟨.callWithdrawn, some l, none, 0⟩).raise s
             ⟨.offerEnded, some l, some c, 7⟩
         | _ => s.rep
       let holder := s.auth[l].state.holder
       let detail : Word16 := old.code.setWidth 16
       let told := match holder with
         | none => changed
         | some x => changed.notice s x
             { name := .fault, loader := some l, chair := some x, epoch := s.auth[l].epoch, detail := detail }
       (s.requestStep l p.request).rep =
         if s.tables.device.requestCount ≤ filter.count r ∧ r ≠ old then
           if r = .fault then told.raise s ⟨.loaderFault, some l, holder, detail⟩ else changed
         else s.rep)
    ∧ (s.modeStep l p.mode).rep = (match s.auth[l].state with
         | .releasing _ =>
           if p.mode = 0x02 then s.freedReport l (s.rep.raise s ⟨.releaseDone, some l, none, 0⟩) else s.rep
         | _ => s.rep)
    ∧ (s.AdmitsStatus q.toPort (statusFrameOf h p) l → s.RecordsAgree → s.enabled l = true →
    ∃ t, exec (.status q h p) s = .next t ∧ (∀ m : Loader, m ≠ l → s.Kept t m)
    ∧ (let zone := t.status[l].zone
       let isCall := t.status[l].accepted.isCall
       if zone ≠ s.status[l].zone ∧ s.zoneInterlocked zone = true then s.stood t l .interlock = true
       else match s.auth[l].state with
        | .free =>
          if isCall ∧ s.status[l].accepted ≠ t.status[l].accepted then s.callingAt t l s.timer.number = true
          else t.auth[l] = s.auth[l]
        | .calling _ =>
          if isCall ∨ s.status[l].accepted = t.status[l].accepted then s.Kept t l
          else t.auth[l] = ⟨.free, s.auth[l].epoch⟩
        | .offered none c (.call _) number _ _ =>
          if isCall ∨ s.status[l].accepted = t.status[l].accepted then t.auth[l] = s.auth[l]
          else t.auth[l] = ⟨.free, s.auth[l].epoch⟩ ∧ s.Rejoined t c ∧ t.chairs[c].lastEnded = some number
        | .releasing _ =>
          if p.mode = 0x02 then s.freed t l t.status[l].accepted = true else t.auth[l] = s.auth[l]
        | _ => t.auth[l] = s.auth[l]))

/-- The copies of a STATUS frame (R122, R123, R157): the holder, the candidate, then every other present chair whose view shows
the cycle, in ascending number and each once, are sent the report with the authority trailer of its end, while the Forward Queue
has room; each copy that finds it full counts FWD_LOST and raises FORWARD_LOST. -/
def Obligations.StatusFrameIsForwarded : Prop :=
  ∀ (s : State) (q : LevelPort) (h : Header) (p : StatusPayload) (l : Loader),
    s.AdmitsStatus q.toPort (statusFrameOf h p) l → s.enabled l = true →
    ∃ t, exec (.status q h p) s = .next t
    ∧ t.forwards = s.forwards ++ ((t.receivers l).map fun c =>
        (⟨0x32, { h with destination := t.tables.chairs[c].station },
          [p.mode, p.request, p.zone, p.farEnd] ++ p.words.toList.flatMap bytes16 ++ t.trailer l⟩ : Frame)).take
        (64 - s.forwards.length)
    ∧ (let a := t.auth[l].state
       t.receivers l = a.holder.toList ++ a.candidate.toList ++ allChairs.filter fun c =>
         a.holder ≠ some c && a.candidate ≠ some c && t.chairs[c].status ≠ .absent && t.views[c][l].active
           && t.views[c][l].pattern.getLsbD ((s.timer.number.toNat + t.views[c][l].phase) % t.views[c][l].period))
    ∧ (s.RecordsAgree → (t.receivers l).Nodup)
    ∧ (let a := t.auth[l]
       let st := t.status[l]
       let fields : Byte × Option Chair × Byte := match a.state with
         | .standing _ cause => (1, none, cause.code)
         | .free => (2, none, 0)
         | .calling _ => (3, none, 0)
         | .offered _ c _ _ _ _ => (4, some c, 0)
         | .matching _ c _ _ _ => (5, some c, 0)
         | .held _ => (6, none, 0)
         | .releasing _ => (7, none, 0)
       t.trailer l = [fields.1, byteOfIndex a.state.holder, byteOfIndex fields.2.1, a.epoch,
         (if st.linkUp then 1 else 0) ||| (if st.degraded then 2 else 0), st.accepted.code, fields.2.2,
         byteOf s.timer.number.toNat])
    ∧ (let steps := (s.heardStep l).farEndStep l p.farEnd
       let u := (((steps.zoneStep l p.zone).requestStep l p.request).modeStep l p.mode).walkIfCalled
       let copy (c : Chair) : Frame := ⟨0x32, { h with destination := s.tables.chairs[c].station },
         [p.mode, p.request, p.zone, p.farEnd] ++ p.words.toList.flatMap bytes16 ++ t.trailer l⟩
       u.forwards = s.forwards ∧ u.receivers l = t.receivers l ∧ t = ((u.receivers l).foldl (fun v c =>
         if v.forwards.length < 64 then { v with forwards := v.forwards ++ [copy c] }
         else (v.count (.device fwdLost)).raise .forwardLost (some l) (some c)) u).finish)

/-! ## Chair requests -/

/-- PRESENT (R36, R37, R42): an ABSENT chair becomes IDLE with its availability, presence and missed-offer count; a present
one's presence is reloaded and its availability set, and it keeps its place. DONE comes first, then CHAIR_PRESENT, or
CHAIR_AVAILABLE or CHAIR_UNAVAILABLE for a change of its availability. An IDLE chair that becomes available joins the
tail of the Free Chair List (R45). -/
def Obligations.PresentMakesTheChairPresent : Prop :=
  ∀ (s : State) (h : Header) (tag : Word16) (a : Byte) (c : Chair), s.Admits (requestFrame h 0x01 tag [a]) c →
    s.RecordsAgree →
    let r := s.chairs[c]
    let available : Bool := a = 0x01
    if a = 0x01 ∨ a = 0x02 then ∃ t, exec (.present h tag a []) s = .next t
      ∧ (if r.status = .absent ∨ r.status = .idle then t.idleAgain c = true
         else t.chairs[c].status = r.status ∧ t.chairs[c].engaged = r.engaged)
      ∧ t.chairs[c].available = available ∧ t.chairs[c].presence = s.tables.device.presenceTimeout
      ∧ t.chairs[c].missed = (if r.status = .absent ∨ (available = true ∧ r.available = false) then 0 else r.missed)
      ∧ t.chairs[c].lastEnded = r.lastEnded ∧ (available = false → c ∉ t.freeList)
      ∧ (if available = true ∧ (r.status = .absent ∨ (r.status = .idle ∧ r.available = false)) then s.Rejoined t c
         else t.chairs[c].idleSince = r.idleSince ∧ (available = true → t.freeList = s.freeList))
      ∧ (let done := s.doneReport c tag none 0
         t.Reported (
           if r.status = .absent then
             done.raise { s with chairs := putAt s.chairs c { r with status := .idle } } ⟨.chairPresent, none, some c, 0⟩
           else if available = r.available then done
           else done.raise s
             (if available then ⟨.chairAvailable, none, some c, 0⟩ else ⟨.chairUnavailable, none, some c, 1⟩)))
      ∧ (∀ l : Loader, s.Kept t l) ∧ s.OnlyAuthority t
    else exec (.present h tag a []) s = .next ((s.refreshPresence c).refuse c tag none .badArgument)

/-- TAKE of an operator (R22): an IDLE chair becomes candidate of a FREE or CALLING loader, and nothing else changes; in any
other state the request is refused. What a supervisor's TAKE reports where it is taken (R24): DONE states the epoch its frames must
carry; then an offered chair is sent WITHDRAWN, a candidate ABORTED (PREEMPTED), a dropped holder LOST (TAKEN); and
TAKE_SUPERVISOR is raised. -/
def Obligations.OperatorTakesTheLoader : Prop :=
  ∀ (s : State) (h : Header) (tag : Word16) (c : Chair) (l : Loader), s.Asks (requestFrame h 0x10 tag []) c l →
    (s.tables.chairs[c].supervisor = true → s.RecordsAgree → s.chairs[c].status = .idle →
      ∀ t : State, exec (.take h tag []) s = .next t → t.auth[l].state.candidate = some c →
      let epoch := s.auth[l].epoch
      let done := s.doneReport c tag (some l) (t.auth[l].epoch + 1) 0 s.tables.device.matchTimeout
      let told := match s.auth[l].state with
        | .offered _ x _ number _ _ =>
          (done.sends s x .withdrawn l epoch 0x23 number).raise s ⟨.offerEnded, some l, some x, 6⟩
        | .matching _ x _ _ _ => done.sends s x .aborted l epoch 0x23
        | .standing (some x) _ =>
          done.notice s x { name := .lost, loader := some l, chair := some c, epoch := epoch + 1, byte6 := 0x28 }
        | _ => done
      t.Reported (told.raise s ⟨.takeSupervisor, some l, some c, 0⟩))
    ∧ (s.tables.chairs[c].supervisor = false →
    let r := s.chairs[c]
    exec (.take h tag []) s = .next (
      if r.status ≠ .idle then (s.refreshPresence c).refuse c tag (some l) .busy
      else if s.auth[l].state = .free ∨ s.auth[l].state.isCalling = true then { s with
        auth := putAt s.auth l ⟨.matching none c .direct none s.tables.device.matchTimeout, s.auth[l].epoch⟩
        chairs := putAt s.chairs c
          { r with status := .candidate, engaged := some l, presence := s.tables.device.presenceTimeout }
        freeList := s.freeList.filter (· ≠ c)
        callQueue := s.callQueue.filter (·.loader ≠ l)
        windows := putAt s.windows l []
        builders := putAt s.builders l { s.builders[l] with cand := none, lastCand := none }
        rep := s.rep.notice s c ⟨.done, tag, some l, some c, s.auth[l].epoch + 1, 0, 0, s.tables.device.matchTimeout, 0⟩ }
      else (s.refreshPresence c).refuse c tag (some l) .wrongState))

/-- TAKE of a supervisor (R23, R24): an IDLE supervisor becomes candidate of a loader in any state but RELEASING, MATCHING
with a supervisor, and STANDING that may not be recovered; other parties leave their places, a holder keeps driving, and a
retained holder is dropped with the epoch advanced. -/
def Obligations.SupervisorTakesTheLoader : Prop :=
  ∀ (s : State) (h : Header) (tag : Word16) (c : Chair) (l : Loader), s.Asks (requestFrame h 0x10 tag []) c l →
    s.RecordsAgree → s.tables.chairs[c].supervisor = true →
    let a := s.auth[l].state
    let reason : Option Reason :=
      if s.chairs[c].status ≠ .idle then some .busy
      else match a with
        | .releasing _ => some .wrongState
        | .matching _ x _ _ _ => if s.tables.chairs[x].supervisor then some .busy else none
        | .standing _ cause =>
          if cause = .start ∨ cause = .reset ∨ cause = .disabled then some .wrongState
          else if s.status[l].linkUp = false ∨ s.zoneInterlocked s.status[l].zone = true then some .causeActive else none
        | _ => none
    match reason with
    | some why => exec (.take h tag []) s = .next ((s.refreshPresence c).refuse c tag (some l) why)
    | none => ∃ t, exec (.take h tag []) s = .next t
      ∧ t.auth[l] = ⟨.matching (if a.isStanding then none else a.holder) c .direct none s.tables.device.matchTimeout,
          if a.isStanding && a.holder.isSome then s.auth[l].epoch + 1 else s.auth[l].epoch⟩
      ∧ t.chairs[c].status = .candidate ∧ t.chairs[c].engaged = some l ∧ t.windows = putAt s.windows l []
      ∧ (∀ x : Chair, a.offeredChair = some x ∨ a.candidate = some x ∨ (a.isStanding = true ∧ a.holder = some x) →
          s.Rejoined t x)
      ∧ (∀ k : Loader, k ≠ l → s.Kept t k) ∧ s.OnlyAuthority t

/-- OFFER (R14, R15): a holder or a supervisor offers the loader to an IDLE, present, permitted chair: the record is OFFERED
with the next offer number and a full timer, a call keeps its stamp and leaves the queue, and the chair is OFFERED. DONE is
followed by OFFER and OFFER_MADE, which every offer sends. The Chair Arbiter's walk (R52–R54), once at the end of an event that calls
for it, and so with the last action of a cycle start (R166), takes the Call Queue in order and offers each loader,
with no offerer and consecutive numbers, to the first chair of the Free Chair List that takes calls and permits it; afterwards
no queued loader has such a chair on the list. -/
def Obligations.OfferPutsTheLoaderOnOffer : Prop :=
  ∀ (s : State) (h : Header) (tag : Word16) (target : Byte) (c x : Chair) (l : Loader),
    (∀ called : Bool,
      let v := { s with walkCalled := called }
      let w := if called then s.walk else s
      let takes (k : Loader) (y : Chair) : Bool := s.tables.chairs[y].takesCalls && s.tables.chairs[y].permitted.getLsbD k.val
      let served := s.callQueue.filter fun e => e ∉ w.callQueue
      v.finish = (if s.cycleStarting then { v with beacons := tabulate s.beaconOn }
        else { w with walkCalled := false, beacons := tabulate w.beaconOn })
      ∧ s.walk = s.callQueue.foldl (fun v e => match v.freeList.find? (takes e.loader) with
          | some y => v.makeOffer e.loader y none
          | none => v) s
      ∧ (s.CallQueueRight → s.FreeListRight → called = true →
        (∀ e ∈ w.callQueue, ∀ y ∈ w.freeList, takes e.loader y = false)
        ∧ w.callQueue.Sublist s.callQueue ∧ w.freeList.Sublist s.freeList
        ∧ (∀ e ∈ served, ∃ y ∈ s.freeList, takes e.loader y = true ∧ w.auth[e.loader] =
            ⟨.offered none y (.call e.stamp) (w.auth[e.loader].state.number.getD 0) none s.tables.device.offerTimeout,
              s.auth[e.loader].epoch⟩)
        ∧ (served.map fun e => w.auth[e.loader].state.number)
            = ((List.range served.length).map fun n => some (s.offerCounter + wordOf (n + 1)))
        ∧ w.offerCounter = s.offerCounter + wordOf served.length))
    ∧ (s.chairs[x].status ≠ .absent → ∀ offerer : Option Chair,
        (s.makeOffer l x offerer).rep = s.offerReport l x (s.offerCounter + 1) s.rep)
    ∧ (s.Asks (requestFrame h 0x11 tag [target]) c l → indexOfByte 8 target = some x →
    let u := s.refreshPresence c
    let a := s.auth[l].state
    let supervisor := s.tables.chairs[c].supervisor
    let number := s.offerCounter + 1
    let first : Option Reason := match a with
      | .held y => if y = c ∨ supervisor then none else some .notHolder
      | .free => if supervisor then none else some .notPermitted
      | .calling _ => if supervisor then none else some .notPermitted
      | .offered _ _ _ _ _ _ => some .busy
      | .matching _ _ _ _ _ => some .busy
      | _ => some .wrongState
    let reason : Option Reason :=
      if first.isSome then first
      else if s.chairs[x].status = .absent ∨ s.tables.chairs[x].enabled = false then some .targetAbsent
      else if s.chairs[x].status ≠ .idle then some .targetBusy
      else if s.permits x l then none else some .notPermitted
    match reason with
    | some why => exec (.offer h tag target []) s = .next (u.refuse c tag (some l) why)
    | none => ∃ t, exec (.offer h tag target []) s = .next t
      ∧ t.offerCounter = number
      ∧ t.auth = putAt s.auth l ⟨.offered a.holder x (match a with
          | .calling stamp => .call stamp
          | _ => .direct) number (some c) s.tables.device.offerTimeout, s.auth[l].epoch⟩
      ∧ t.chairs = putAt u.chairs x { u.chairs[x] with status := .offered, engaged := some l }
      ∧ t.freeList = s.freeList.filter (· ≠ x) ∧ t.callQueue = s.callQueue.filter (·.loader ≠ l)
      ∧ t.rep = s.offerReport l x number
          (s.doneReport c tag (some l) s.auth[l].epoch number s.tables.device.offerTimeout)
      ∧ t = { s with
          offerCounter := number, auth := t.auth, chairs := t.chairs, freeList := t.freeList, callQueue := t.callQueue
          rep := t.rep })

/-- ACCEPT (R16): the chair the loader is offered to, with the offer's number, becomes its candidate. DECLINE (R17, R19,
R20): the offer ends, its number is the chair's last ended offer, the chair leaves its place and the loader returns; DONE, what the
return reports and OFFER_ENDED come in this order. An answer
that finds no such offer is LATE for the chair's last ended offer and NOT_OFFERED otherwise. -/
def Obligations.OffersAreAnswered : Prop :=
  ∀ (s : State) (h : Header) (tag number : Word16) (c : Chair) (l : Loader),
    let missed := (s.refreshPresence c).refuse c tag (some l)
      (if s.chairs[c].lastEnded = some number then .late else .notOffered)
    (s.Asks (requestFrame h 0x12 tag (bytes16 number)) c l →
      exec (.accept h tag number []) s = .next (match s.auth[l].state with
        | .offered holder x origin n offerer _ =>
          if x = c ∧ n = number then { s with
            auth := putAt s.auth l ⟨.matching holder c origin offerer s.tables.device.matchTimeout, s.auth[l].epoch⟩
            chairs := putAt s.chairs c { s.chairs[c] with
              status := .candidate, engaged := some l, presence := s.tables.device.presenceTimeout
              lastEnded := some number, missed := 0 }
            freeList := s.freeList.filter (· ≠ c)
            windows := putAt s.windows l []
            builders := putAt s.builders l { s.builders[l] with cand := none, lastCand := none }
            rep := s.rep.notice s c
              ⟨.done, tag, some l, some c, s.auth[l].epoch + 1, 0, number, s.tables.device.matchTimeout, 0⟩ }
          else missed
        | _ => missed))
    ∧ (s.Asks (requestFrame h 0x13 tag (bytes16 number)) c l → s.RecordsAgree →
      if s.auth[l].state.offeredChair = some c ∧ s.auth[l].state.number = some number then
        ∃ t, exec (.decline h tag number []) s = .next t
        ∧ s.returned t l = true ∧ (∀ k : Loader, k ≠ l → s.Kept t k)
        ∧ s.Rejoined t c ∧ t.chairs[c].lastEnded = some number ∧ t.chairs[c].missed = s.chairs[c].missed
        ∧ t.Reported ((s.returnReport l (s.doneReport c tag (some l) s.auth[l].epoch number)).raise s
            ⟨.offerEnded, some l, some c, 1⟩)
        ∧ s.OnlyAuthority t
      else exec (.decline h tag number []) s = .next missed)

/-- CANCEL (R21, R68): the offerer, a supervisor, or the candidate itself ends the handover: the chair that was offered the
loader or was matching leaves its place, and the loader returns. After DONE, the chair is sent WITHDRAWN or ABORTED (CANCELLED),
but for a candidate that asked itself. -/
def Obligations.CancelReturnsTheLoader : Prop :=
  ∀ (s : State) (h : Header) (tag : Word16) (c : Chair) (l : Loader), s.Asks (requestFrame h 0x14 tag []) c l →
    s.RecordsAgree →
    let a := s.auth[l].state
    let refused (why : Reason) := (s.refreshPresence c).refuse c tag (some l) why
    if a.offeredChair = none ∧ a.candidate = none then exec (.cancel h tag []) s = .next (refused .wrongState)
    else if a.offerer ≠ some c ∧ s.tables.chairs[c].supervisor = false ∧ a.candidate ≠ some c then
      exec (.cancel h tag []) s = .next (refused .notHolder)
    else ∃ t, exec (.cancel h tag []) s = .next t
      ∧ s.returned t l = true ∧ (∀ k : Loader, k ≠ l → s.Kept t k)
      ∧ (let done := s.doneReport c tag (some l) s.auth[l].epoch
         t.Reported (match a with
           | .offered _ x _ number _ _ =>
             (s.returnReport l (done.sends s x .withdrawn l s.auth[l].epoch 0x21 number)).raise s
               ⟨.offerEnded, some l, some x, 3⟩
           | .matching _ x _ _ _ =>
             s.returnReport l (if x = c then done else done.sends s x .aborted l s.auth[l].epoch 0x21)
           | _ => done))
      ∧ (∀ x : Chair, a.offeredChair = some x → s.Rejoined t x ∧ t.chairs[x].lastEnded = a.number)
      ∧ (∀ x : Chair, a.candidate = some x → s.Rejoined t x ∧ t.windows = putAt s.windows l []
          ∧ t.builders = putAt s.builders l { s.builders[l] with cand := none, lastCand := none })
      ∧ s.OnlyAuthority t

/-- RELEASE (R25): the holder of a HELD loader lets it go, to RELEASING in mode AUTO and to STANDING(OPERATOR) in mode STAND,
with the epoch advanced, the mailboxes emptied and the chair IDLE; the other cases are refused. DONE gives the epoch after the
release, and then RELEASED, or STAND and STAND_OPERATOR, follow. -/
def Obligations.ReleaseLetsTheLoaderGo : Prop :=
  ∀ (s : State) (h : Header) (tag : Word16) (auto : Bool) (c : Chair) (l : Loader),
    s.Asks (requestFrame h 0x15 tag [if auto then 0x01 else 0x02]) c l → s.RecordsAgree →
    let i : Instr := if auto then .releaseAuto h tag [] else .releaseStand h tag []
    let a := s.auth[l].state
    if a = .held c then ∃ t, exec i s = .next t
      ∧ t.auth[l] = ⟨if auto then .releasing s.tables.device.releaseTimeout else .standing none .operator,
          s.auth[l].epoch + 1⟩
      ∧ t.builders = putAt s.builders l s.builders[l].emptied ∧ s.Rejoined t c
      ∧ t.Reported (
          if auto then (s.doneReport c tag (some l) (s.auth[l].epoch + 1) 0 s.tables.device.releaseTimeout).raise s
            ⟨.released, some l, some c, 0⟩
          else s.standReport l .operator (s.doneReport c tag (some l) (s.auth[l].epoch + 1)))
      ∧ (∀ k : Loader, k ≠ l → s.Kept t k) ∧ s.OnlyAuthority t
    else exec i s = .next ((s.refreshPresence c).refuse c tag (some l)
      (if a.holder ≠ some c then .notHolder else if a.isStanding then .wrongState else .busy))

/-- RECOVER (R27): a STANDING loader with no stand condition goes to FREE when no chair is retained, to MATCHING with its
retained holder when that chair asks, and to FREE with the retained holder dropped when a supervisor asks. DONE, LOST(TAKEN) to a
dropped holder, what R11 reports and RECOVERED come in this order. -/
def Obligations.RecoverEndsTheStanding : Prop :=
  ∀ (s : State) (h : Header) (tag : Word16) (c : Chair) (l : Loader), s.Asks (requestFrame h 0x16 tag []) c l →
    s.RecordsAgree →
    let a := s.auth[l].state
    let refused (why : Reason) := (s.refreshPresence c).refuse c tag (some l) why
    if a.isStanding = false ∨ a.cause = some .start ∨ a.cause = some .reset then
      exec (.recover h tag []) s = .next (refused .wrongState)
    else if s.standCondition l = true then exec (.recover h tag []) s = .next (refused .causeActive)
    else if a.holder.isSome = true ∧ a.holder ≠ some c ∧ s.tables.chairs[c].supervisor = false then
      exec (.recover h tag []) s = .next (refused .notHolder)
    else ∃ t, exec (.recover h tag []) s = .next t
      ∧ (if a.holder = some c then
          t.auth[l] = ⟨.matching none c .direct none s.tables.device.matchTimeout, s.auth[l].epoch⟩
            ∧ t.chairs[c].status = .candidate ∧ t.chairs[c].engaged = some l
         else s.freed t l s.status[l].accepted = true
            ∧ t.auth[l].epoch = (if a.holder.isSome then s.auth[l].epoch + 1 else s.auth[l].epoch)
            ∧ ∀ x : Chair, a.holder = some x → s.Rejoined t x)
      ∧ (let epoch := s.auth[l].epoch
         t.Reported (match a.holder with
           | none => (s.freedReport l (s.doneReport c tag (some l) epoch)).raise s ⟨.recovered, some l, some c, 2⟩
           | some x =>
             if x = c then (s.doneReport c tag (some l) (epoch + 1) 0 s.tables.device.matchTimeout).raise s
               ⟨.recovered, some l, some c, 1⟩
             else (s.freedReport l ((s.doneReport c tag (some l) (epoch + 1)).notice s x
               { name := .lost, loader := some l, chair := some c, epoch := epoch + 1, byte6 := 0x28 })).raise s
               ⟨.recovered, some l, some c, 2⟩))
      ∧ (∀ k : Loader, k ≠ l → s.Kept t k) ∧ s.OnlyAuthority t

/-- STOP (R28, R29): the cause STOP reaches the loader named, or every enabled loader of the zone that the chair may stop,
and no other. After DONE, each is reported as R8 and R9 give, in ascending number. -/
def Obligations.StopStandsLoaders : Prop :=
  ∀ (s : State) (h : Header) (tag : Word16) (zone : Byte) (c : Chair) (l : Loader) (z : Zone), s.RecordsAgree →
    (s.Asks (requestFrame h 0x17 tag [0x01, zone]) c l → ∃ t, exec (.stopLoader h tag zone []) s = .next t
      ∧ s.stood t l .stop = true ∧ (∀ k : Loader, k ≠ l → s.Kept t k)
      ∧ t.Reported (s.standReport l .stop (s.doneReport c tag (some l) s.auth[l].epoch)) ∧ s.OnlyAuthority t)
    ∧ (s.Admits (requestFrame h 0x17 tag [0x02, zone]) c → s.chairs[c].status ≠ .absent → indexOfByte 8 zone = some z →
      ∃ t, exec (.stopZone h tag zone []) s = .next t
      ∧ (let named (k : Loader) : Bool := s.enabled k && s.status[k].zone = some z
           && (s.tables.chairs[c].supervisor || s.permits c k)
         (∀ k : Loader, if named k = true then s.stood t k .stop = true else s.Kept t k)
           ∧ t.Reported ((allLoaders.filter named).foldl (fun r k => s.standReport k .stop r) (s.doneReport c tag none 0)))
      ∧ s.OnlyAuthority t)

/-- VIEW_ON (R120): the chair's entry for the loader is active with the period, pattern and mode given and phase 0, after the
checks of presence, form and view set. -/
def Obligations.ViewOnSetsTheEntry : Prop :=
  ∀ (s : State) (h : Header) (tag : Word16) (period : Byte) (pattern : Word16) (mode : Byte) (c : Chair),
    s.Admits (requestFrame h 0x20 tag (period :: bytes16 pattern ++ [mode])) c → s.chairs[c].status ≠ .absent →
    let u := s.refreshPresence c
    let named := indexOfByte 16 h.loader
    let fits : Bool := 1 ≤ period.toNat && period.toNat ≤ 16 && pattern ≠ 0 && pattern.toNat < 2 ^ period.toNat
      && (mode = 0x01 || mode = 0x02)
    exec (.viewOn h tag period pattern mode []) s = .next (match named with
      | none => u.refuse c tag none .badArgument
      | some l =>
        if !fits then u.refuse c tag named .badArgument
        else if s.tables.chairs[c].views.getLsbD l.val then
          State.done { u with views := putAt s.views c (putAt s.views[c] l ⟨true, period.toNat, pattern, mode = 0x02, 0⟩) }
            c tag l s.auth[l].epoch
        else u.refuse c tag named .notPermitted)

/-- VIEW_OFF (R121): NOT_PRESENT, then BAD_ARGUMENT, else the entry is inactive and the requester is sent DONE, whatever the
view set; a chair that holds the loader or is its candidate still receives copies. -/
def Obligations.ViewOffEndsTheView : Prop :=
  ∀ (s : State) (h : Header) (tag : Word16) (extra : List Byte) (c : Chair),
    s.Admits (requestFrame h 0x21 tag extra) c →
    let u := s.refreshPresence c
    let named := indexOfByte 16 h.loader
    (s.chairs[c].status = .absent → exec (.viewOff h tag extra) s = .next (u.refuse c tag named .notPresent))
    ∧ (s.chairs[c].status ≠ .absent → named = none ∨ extra ≠ [] →
        exec (.viewOff h tag extra) s = .next (u.refuse c tag named .badArgument))
    ∧ ∀ l : Loader, s.chairs[c].status ≠ .absent → named = some l → extra = [] →
        let t := State.done { u with views := putAt s.views c (putAt s.views[c] l { s.views[c][l] with active := false }) }
          c tag l s.auth[l].epoch
        exec (.viewOff h tag extra) s = .next t
        ∧ (s.auth[l].state.holder = some c ∨ s.auth[l].state.candidate = some c → c ∈ t.receivers l)

/-- LINE_ACK (R130, R131): a LATCHED line becomes CLEAR by a supervisor's request or a management station's; any other line,
any other chair, a line outside 0-7 and a management request with data are refused, and no loader changes. -/
def Obligations.LineAckClearsALatchedLine : Prop :=
  ∀ (s : State) (h : Header) (tag : Word16) (selector line : Byte) (data : List Byte) (c : Chair),
    let u := s.refreshPresence c
    let cleared (i : Line) : Vector LineState 8 := putAt s.lines i { s.lines[i] with status := .clear }
    let raised (r : Report) (i : Line) (by_ : Option Chair) : Report :=
      r.raise s ⟨.interlockAck, none, by_, wordOf i.val⟩
    let answer (status : MgmtStatus) : Frame :=
      responseFrame s.tables.device.station ⟨h.source, h.sequence, 0x09, tag, selector, line, data⟩ status []
    (s.Admits (requestFrame h 0x30 tag [line]) c → s.chairs[c].status ≠ .absent →
      exec (.lineAck h tag line []) s = .next (match indexOfByte 8 line with
        | none => u.refuse c tag none .badArgument
        | some i =>
          if s.tables.chairs[c].supervisor = false then u.refuse c tag none .notPermitted
          else if s.lines[i].status ≠ .latched then u.refuse c tag none .wrongState
          else { u with
            lines := cleared i
            rep := raised (s.rep.notice s c ⟨.done, tag, none, some c, 0, 0, 0, 0, 0⟩) i (some c) }))
    ∧ (s.AdmitsMgmt (mgmtFrame h 0x09 tag selector line data) → s.agent.idle = true →
      exec (.mgmtLineAck h tag selector line data) s = .next (match indexOfByte 8 line with
        | none => s.placeResponse (answer (if data = [] then .badIndex else .badValue))
        | some i =>
          if data = [] ∧ s.lines[i].status = .latched then
            State.placeResponse { s with lines := cleared i, rep := raised s.rep i none } (answer .ok)
          else s.placeResponse (answer .badValue)))

/-- The common checks (R13, R36, R39, R120, R121, R130, R143): a request of an ABSENT chair other than PRESENT is refused
NOT_PRESENT; one with an unknown code, a wrong length, an argument out of range or a loader outside 0-15 BAD_ARGUMENT; one about a
loader that is out of service NOT_IN_SERVICE, and that the chair is not permitted NOT_PERMITTED, in that order. -/
def Obligations.CommonChecksRefuse : Prop :=
  ∀ (s : State) (i : Instr) (h : Header) (code : Byte) (tag : Word16) (args : List Byte) (c : Chair) (l : Loader),
    i.asked = some (h, code, tag, args) → s.Admits (requestFrame h code tag args) c →
    let named := if requestNamesLoader code args then indexOfByte 16 h.loader else none
    let refused (why : Reason) : Prop := exec i s = .next ((s.refreshPresence c).refuse c tag named why)
    (s.chairs[c].status = .absent → code ≠ 0x01 → refused .notPresent)
    ∧ (s.chairs[c].status ≠ .absent ∨ code = 0x01 → requestIllFormed code args = true → refused .badArgument)
    ∧ (s.chairs[c].status ≠ .absent → requestNamesLoader code args = true → named = none → refused .badArgument)
    ∧ (s.chairs[c].status ≠ .absent → requestAboutLoader code args = true → requestIllFormed code args = false →
        named = some l →
        (s.enabled l = false → refused .notInService)
        ∧ (s.enabled l = true → s.permits c l = false → refused .notPermitted))

/-- Every request is answered with exactly one notice, DONE or REFUSED with its tag, ahead of every other notice it causes
(R13, R140, R143, R144). Where the Notice Queue is full the answer is dropped and counted, no notice enters the queue, and every
record and table is changed as it would be with room (R157). -/
def Obligations.EveryRequestIsAnsweredOnce : Prop :=
  ∀ (s : State) (i : Instr) (h : Header) (code : Byte) (tag : Word16) (args : List Byte) (c : Chair),
    i.asked = some (h, code, tag, args) → s.Admits (requestFrame h code tag args) c →
    (s.rep.notices.length < 32 → ∃ (t : State) (n : Notice) (more : List Frame), exec i s = .next t
      ∧ t.rep.notices = s.rep.notices ++ noticeFrame s c n (s.rep.noticeSeq[c] + 1) :: more
      ∧ (n.name = .done ∨ n.name = .refused) ∧ n.tag = tag
      ∧ ∀ f ∈ more, f.payload.head? ≠ some 0x01 ∧ f.payload.head? ≠ some 0x02)
    ∧ (32 ≤ s.rep.notices.length → ∃ t u : State, exec i s = .next t
      ∧ exec i { s with rep := { s.rep with notices := [] } } = .next u
      ∧ t = { u with rep := t.rep } ∧ t.rep.notices = s.rep.notices
      ∧ (s.rep.CountersRight → s.rep.frozen = false →
          min 65535 (s.rep.counter (.device noticeLost) + 1) ≤ t.rep.counter (.device noticeLost)))

/-- A request about one loader changes no record but that loader's and those the arbiter's walk offers, no other chair's
presence, availability or missed offers, and nothing outside authority (R13). -/
def Obligations.RequestsTouchOneLoader : Prop :=
  ∀ (s : State) (i : Instr) (h : Header) (code : Byte) (tag : Word16) (args : List Byte) (c : Chair),
    i.asked = some (h, code, tag, args) → s.Admits (requestFrame h code tag args) c → s.RecordsAgree →
    code ∈ ([0x10, 0x11, 0x12, 0x13, 0x14, 0x15, 0x16, 0x17] : List Byte) → ¬(code = 0x17 ∧ args.head? = some 0x02) →
    ∃ t, exec i s = .next t ∧ s.OnlyAuthority t
    ∧ (∀ k : Loader, indexOfByte 16 h.loader ≠ some k → s.Kept t k ∧ t.windows[k] = s.windows[k]
        ∧ t.builders[k] = s.builders[k])
    ∧ ∀ d : Chair, d ≠ c → t.chairs[d].presence = s.chairs[d].presence
        ∧ t.chairs[d].available = s.chairs[d].available ∧ t.chairs[d].missed = s.chairs[d].missed

/-! ## Management -/

/-- IDENT, READ_ENTRY and READ_STATE of an idle Agent (R145, R146, R165, R168, R169) place one response, with the layouts of
R146, and change nothing else; data, selectors and indexes out of range are answered with their status. -/
def Obligations.ManagementReads : Prop :=
  ∀ (s : State) (h : Header) (tag : Word16) (a b : Byte) (data : List Byte), s.agent.idle = true →
    let answer (operation : Byte) (status : MgmtStatus) (reply : List Byte) : State := s.placeResponse
      ⟨0x52, ⟨0, s.tables.device.station, h.source, 0xFF, 0, h.sequence⟩,
        [operation] ++ bytes16 tag ++ [a, b, status.code] ++ reply⟩
    let authority (l : Loader) : List Byte :=
      let r := s.auth[l].state
      let cause : Byte := match r.cause with
        | some cause => cause.code
        | none => 0
      let origin : Byte := match r.origin with
        | none => 0
        | some (.call _) => 1
        | some .direct => 2
      [r.code, byteOfIndex r.holder, byteOfIndex r.offeredChair, byteOfIndex r.candidate, origin]
        ++ bytes32 (r.stamp.getD 0) ++ bytes16 (r.number.getD 0) ++ [byteOfIndex r.offerer, s.auth[l].epoch, cause,
          byteOf (r.timer.getD 0), (if r.stamp.isSome then 1 else 0) ||| (if r.number.isSome then 2 else 0)]
    let chair (c : Chair) : List Byte :=
      let r := s.chairs[c]
      let state : Byte := match r.status with
        | .absent => 0
        | .idle => 1
        | .offered => 2
        | .candidate => 3
        | .holding => 4
      [state, byteOfBool r.available] ++ bytes32 r.idleSince ++ [byteOf r.presence, byteOf r.missed,
        byteOfIndex r.engaged] ++ bytes16 (r.lastEnded.getD 0) ++ [byteOfBool r.lastEnded.isSome]
        ++ bytes16 s.rep.noticeSeq[c]
    let queue : List Byte :=
      [byteOf s.callQueue.length] ++ s.callQueue.flatMap (fun e => byteOf e.loader.val :: byteOf e.cls :: bytes32 e.stamp)
        ++ [byteOf s.freeList.length] ++ s.freeList.flatMap fun c => byteOf c.val :: bytes32 s.chairs[c].idleSince
    let lines : List Byte :=
      allLines.flatMap (fun i =>
        let x := s.lines[i]
        let state : Byte := match x.status with
          | .active => 1
          | .clear => 2
          | .latched => 3
        ([state, (if x.raw = .opened then 1 else 0) ||| (if x.settled = .opened then 2 else 0)
          ||| (if x.startMark then 4 else 0)] : List Byte))
        ++ ([(if s.beacons[0] then 1 else 0) ||| (if s.beacons[1] then 2 else 0) ||| (if s.beacons[2] then 4 else 0)
          ||| (if s.beacons[3] then 8 else 0)] : List Byte)
    let links : List Byte :=
      allLoaders.flatMap fun l =>
        let st := s.status[l]
        let zone : Byte := match st.zone with
          | some z => byteOf z.val
          | none => 15
        [(if st.linkUp then 1 else 0) ||| (if st.degraded then 2 else 0), byteOf (st.linkWindow.count false),
          byteOf st.upRun, byteOf st.farEnd.sum, st.accepted.code, zone]
    (s.AdmitsMgmt (mgmtFrame h 0x01 tag a b data) → exec (.ident h tag a b data) s = .next (
      if data = [] then answer 0x01 .ok (bytes16 0x4816 ++ bytes16 s.tables.device.station
        ++ [byteOfBool s.agent.commissioning, byteOfBool s.config.phase.saving?] ++ bytes32 s.timer.number)
      else answer 0x01 .badValue []))
    ∧ (s.AdmitsMgmt (mgmtFrame h 0x02 tag a b data) → exec (.readEntry h tag a b data) s = .next (match entryRef a b with
      | .error status => answer 0x02 status []
      | .ok r => if data = [] then answer 0x02 .ok (byteOfBool (s.writes.marked r) :: s.tables.entryBytes r)
          else answer 0x02 .badValue []))
    ∧ (s.AdmitsMgmt (mgmtFrame h 0x04 tag a b data) → exec (.readState h tag a b data) s = .next (
      if data ≠ [] then answer 0x04 .badValue []
      else if a = 0x01 then
        if x : b.toNat < 16 then answer 0x04 .ok (authority ⟨b.toNat, x⟩) else answer 0x04 .badIndex []
      else if a = 0x02 then
        if x : b.toNat < 8 then answer 0x04 .ok (chair ⟨b.toNat, x⟩) else answer 0x04 .badIndex []
      else if a = 0x03 then answer 0x04 .ok queue
      else if a = 0x04 then answer 0x04 .ok lines
      else if a = 0x05 then answer 0x04 .ok links
      else answer 0x04 .badTable []))

/-- WRITE_ENTRY (R162–R165): a write that passes the checks in order becomes its entry's only pending write, and no applied
entry changes; one that fails is answered with the status of the first check it fails. A LOADERS write is IN_USE when it
changes station, port, slot or enabled flag of a loader that is not FREE, STANDING without a holder or STANDING(DISABLED), and a
CHAIRS write when it changes station or role of a present chair; a LOADERS write clashes with the port and slot of another
loader's enabled applied or pending entry; a MGMT_STATIONS write is DENIED outside commissioning when it would leave no station
listed. -/
def Obligations.WriteEntryLeavesAPendingWrite : Prop :=
  ∀ (s : State) (h : Header) (tag : Word16) (table index : Byte) (data : List Byte),
    s.AdmitsMgmt (mgmtFrame h 0x03 tag table index data) → s.agent.idle = true →
    let answer (status : MgmtStatus) : Frame :=
      responseFrame s.tables.device.station ⟨h.source, h.sequence, 0x03, tag, table, index, data⟩ status []
    let refused (status : MgmtStatus) : Prop :=
      exec (.writeEntry h tag table index data) s = .next (s.placeResponse (answer status))
    let inUse (w : EntryWrite) : Prop := match w with
      | .loader l e =>
        let old := s.tables.loaders[l]
        (e.station ≠ old.station ∨ e.port ≠ old.port ∨ e.slot ≠ old.slot ∨ e.enabled ≠ old.enabled)
          ∧ ¬(s.auth[l].state = .free ∨ s.auth[l].state.cause = some .disabled
            ∨ (s.auth[l].state.isStanding = true ∧ s.auth[l].state.holder = none))
      | .chair c e =>
        (e.station ≠ s.tables.chairs[c].station ∨ e.supervisor ≠ s.tables.chairs[c].supervisor) ∧ s.chairs[c].status ≠ .absent
      | _ => False
    let clash (w : EntryWrite) : Prop := match w with
      | .loader l e => e.enabled = true ∧ ∃ j : Loader, j ≠ l ∧ ∃ x ∈ s.tables.loaders[j] :: s.writes.loaders[j].toList,
          x.enabled = true ∧ x.port = e.port ∧ x.slot = e.slot
      | _ => False
    let denied (w : EntryWrite) : Prop := match w with
      | .mgmtStation i e => s.agent.commissioning = false ∧ e.listed = false
          ∧ ∀ j : Fin 2, j ≠ i → (s.writes.mgmt[j].getD s.tables.mgmt[j]).listed = false
      | _ => False
    match entryRef table index with
    | .error status => refused status
    | .ok r =>
      match readWrite r data with
      | none => refused .badValue
      | some w =>
        (inUse w → refused .inUse)
        ∧ (¬inUse w → clash w → refused .clash)
        ∧ (¬inUse w → ¬clash w → denied w → refused .denied)
        ∧ (¬inUse w → ¬clash w → ¬denied w → exec (.writeEntry h tag table index data) s
            = .next (State.placeResponse { s with writes := s.writes.put w } (answer .ok)))
        ∧ ∀ x : EntryRef, (s.writes.put w).marked x = (decide (x = r) || s.writes.marked x)

/-- READ_COUNTERS, FREEZE, UNFREEZE and CLEAR_ALL (R146, R179, R180): the group's values as they stood, with the clear asked
for; the Counter Bank frozen, unfrozen, or every counter 0 and the warning flag clear. A wrong length is BAD_VALUE, then a group
outside 0x01-0x03 BAD_TABLE, an index outside the loaders or chairs BAD_INDEX, and another clear flag BAD_VALUE (R169). -/
def Obligations.CountersAreReadAndControlled : Prop :=
  ∀ (s : State) (h : Header) (tag : Word16) (a b flag : Byte) (data : List Byte) (g : CounterGroup), s.agent.idle = true →
    s.rep.CountersRight →
    let answer (operation : Byte) (data reply : List Byte) : Frame :=
      responseFrame s.tables.device.station ⟨h.source, h.sequence, operation, tag, a, b, data⟩ .ok reply
    let bad (operation : Byte) (data : List Byte) (status : MgmtStatus) : State := s.placeResponse
      (responseFrame s.tables.device.station ⟨h.source, h.sequence, operation, tag, a, b, data⟩ status [])
    let values := ((s.rep.groupValues g).flatMap fun n => bytes16 (wordOf n))
    let outside : Bool := a = 0x01 && 16 ≤ b.toNat || a = 0x02 && 8 ≤ b.toNat
    (counterGroup a b = .ok g ↔ match g with
      | .loader l => a = 0x01 ∧ b.toNat = l.val
      | .chair c => a = 0x02 ∧ b.toNat = c.val
      | .device => a = 0x03)
    ∧ (s.AdmitsMgmt (mgmtFrame h 0x05 tag a b data) →
        data.length ≠ 1 ∨ a ∉ ([0x01, 0x02, 0x03] : List Byte) ∨ outside = true ∨ (data ≠ [0x00] ∧ data ≠ [0x01]) →
        exec (.readCounters h tag a b data) s = .next (bad 0x05 data (
          if data.length ≠ 1 then .badValue
          else if a ∉ ([0x01, 0x02, 0x03] : List Byte) then .badTable
          else if outside then .badIndex
          else .badValue)))
    ∧ (data ≠ [] →
        (s.AdmitsMgmt (mgmtFrame h 0x06 tag a b (0x01 :: data)) →
          exec (.freeze h tag a b data) s = .next (bad 0x06 (0x01 :: data) .badValue))
        ∧ (s.AdmitsMgmt (mgmtFrame h 0x06 tag a b (0x02 :: data)) →
          exec (.unfreeze h tag a b data) s = .next (bad 0x06 (0x02 :: data) .badValue))
        ∧ (s.AdmitsMgmt (mgmtFrame h 0x06 tag a b (0x03 :: data)) →
          exec (.clearAll h tag a b data) s = .next (bad 0x06 (0x03 :: data) .badValue)))
    ∧ (s.AdmitsMgmt (mgmtFrame h 0x05 tag a b [flag]) → counterGroup a b = .ok g →
      (flag = 0x00 → exec (.readCounters h tag a b [flag]) s
        = .next (s.placeResponse (answer 0x05 [flag] (values ++ [flagBits s.rep.frozen s.rep.warning false]))))
      ∧ (flag = 0x01 → ∃ t : State, exec (.readCounters h tag a b [flag]) s = .next (t.placeResponse
          (answer 0x05 [flag] (values ++ [flagBits s.rep.frozen t.rep.warning false])))
        ∧ (∀ x : CounterId, t.rep.counter x = if x.group = g then 0 else s.rep.counter x)
        ∧ t.rep.warning = t.rep.anyHigh
        ∧ t = { s with rep := { s.rep with
            loaderCounts := t.rep.loaderCounts, chairCounts := t.rep.chairCounts
            deviceCounts := t.rep.deviceCounts, warning := t.rep.warning } }))
    ∧ (s.AdmitsMgmt (mgmtFrame h 0x06 tag a b [0x01]) → exec (.freeze h tag a b []) s
        = .next (State.placeResponse { s with rep := { s.rep with frozen := true } } (answer 0x06 [0x01] [])))
    ∧ (s.AdmitsMgmt (mgmtFrame h 0x06 tag a b [0x02]) → exec (.unfreeze h tag a b []) s
        = .next (State.placeResponse { s with rep := { s.rep with frozen := false } } (answer 0x06 [0x02] [])))
    ∧ (s.AdmitsMgmt (mgmtFrame h 0x06 tag a b [0x03]) → ∃ t : State, exec (.clearAll h tag a b []) s
        = .next (t.placeResponse (answer 0x06 [0x03] []))
      ∧ (∀ id : CounterId, t.rep.counter id = 0) ∧ t.rep.warning = false
      ∧ t = { s with rep := { s.rep with
          loaderCounts := t.rep.loaderCounts, chairCounts := t.rep.chairCounts
          deviceCounts := t.rep.deviceCounts, warning := false } })

/-- READ_LOG (R175): the oldest entries leave the log with the overflow flag, which is cleared. ATTN_CLEAR (R176): ATTN is
off, the log and its flag untouched. RESET_AUTHORITY sets the reset mark alone (R170). SAVE_CONFIG takes a snapshot of the
applied tables, and is BUSY while a save is in flight (R172). An unknown operation, and data where none belongs, is BAD_VALUE
(R169). -/
def Obligations.LogAttnResetAndSave : Prop :=
  ∀ (s : State) (h : Header) (operation : Byte) (tag : Word16) (a b : Byte) (data : List Byte), s.agent.idle = true →
    let answer (operation : Byte) (status : MgmtStatus) (reply : List Byte) : Frame :=
      responseFrame s.tables.device.station ⟨h.source, h.sequence, operation, tag, a, b, data⟩ status reply
    let n := min b.toNat s.rep.log.length
    (s.AdmitsMgmt (mgmtFrame h 0x07 tag a b data) → exec (.readLog h tag a b data) s = .next (
      if data ≠ [] then s.placeResponse (answer 0x07 .badValue [])
      else if 1 ≤ b.toNat ∧ b.toNat ≤ 8 then
        State.placeResponse { s with rep := { s.rep with log := s.rep.log.drop n, overflow := false } }
          (answer 0x07 .ok ([byteOf n, byteOfBool s.rep.overflow] ++ (s.rep.log.take n).flatMap fun e =>
            bytes32 e.cycle ++ [byteOf e.position.val, byteOf e.event.name.code.val, byteOfIndex e.event.loader,
              byteOfIndex e.event.chair] ++ bytes16 e.event.detail))
      else s.placeResponse (answer 0x07 .badIndex [])))
    ∧ (s.AdmitsMgmt (mgmtFrame h 0x08 tag a b data) → exec (.attnClear h tag a b data) s = .next (
      if data = [] then State.placeResponse { s with rep := { s.rep with attn := false } } (answer 0x08 .ok [])
      else s.placeResponse (answer 0x08 .badValue [])))
    ∧ (s.AdmitsMgmt (mgmtFrame h 0x0A tag a b data) → exec (.resetAuthority h tag a b data) s = .next (
      if data = [] then State.placeResponse { s with agent := { s.agent with resetMark := true } } (answer 0x0A .ok [])
      else s.placeResponse (answer 0x0A .badValue [])))
    ∧ (s.AdmitsMgmt (mgmtFrame h 0x0B tag a b data) → exec (.saveConfig h tag a b data) s = .next (
      if data ≠ [] then s.placeResponse (answer 0x0B .badValue [])
      else if s.config.phase = .idle then
        State.placeResponse { s with config := { s.config with phase := .saving s.tables } } (answer 0x0B .ok [])
      else s.placeResponse (answer 0x0B .busy [])))
    ∧ (s.AdmitsMgmt (mgmtFrame h operation tag a b data) → operation ∉ operationCodes →
        exec (.unknownOperation h operation tag a b data) s = .next (s.placeResponse (answer operation .badValue [])))

/-- MGMT_REQUEST (R145, R157, R168): it is carried out by its operation code; while the Agent is not idle it joins the
waiting list, and beyond four it is dropped and counted. Serving a request (`State.serve`) is this carrying out, whatever waits
behind it. A response that finds the Response Queue full waits with the Agent. -/
def Obligations.ManagementRequestsWait : Prop :=
  ∀ (s : State) (h : Header) (operation : Byte) (tag : Word16) (a b : Byte) (data : List Byte),
    s.AdmitsMgmt (mgmtFrame h operation tag a b data) →
    let request : MgmtRequest := ⟨h.source, h.sequence, operation, tag, a, b, data⟩
    (∀ (u : State) (f : Frame), u.placeResponse f =
      if u.responses.length < 4 then { u with responses := u.responses ++ [f] }
      else { u with agent := { u.agent with response := some f } })
    ∧ (∃ t, exec (.mgmtRequest h operation tag a b data) s = .next t)
    ∧ (s.agent.idle = true → exec (.mgmtRequest h operation tag a b data) s = .next (s.serve request))
    ∧ (∀ (u : State) (r : MgmtRequest) (waiting : List MgmtRequest),
        let v := u.serve r
        State.serve { u with agent := { u.agent with waiting := waiting } } r
          = { v with agent := { v.agent with waiting := waiting } })
    ∧ exec (.mgmtRequest h operation tag a b data) s = (
      if s.agent.idle = false then .next (
        if s.agent.waiting.length < 4 then { s with agent := { s.agent with waiting := s.agent.waiting ++ [request] } }
        else s.count (.device mgmtDrops))
      else if operation = 0x01 then exec (.ident h tag a b data) s
      else if operation = 0x02 then exec (.readEntry h tag a b data) s
      else if operation = 0x03 then exec (.writeEntry h tag a b data) s
      else if operation = 0x04 then exec (.readState h tag a b data) s
      else if operation = 0x05 then exec (.readCounters h tag a b data) s
      else if operation = 0x06 then (match data with
        | 0x01 :: extra => exec (.freeze h tag a b extra) s
        | 0x02 :: extra => exec (.unfreeze h tag a b extra) s
        | 0x03 :: extra => exec (.clearAll h tag a b extra) s
        | _ => .next (s.placeResponse (responseFrame s.tables.device.station request .badValue [])))
      else if operation = 0x07 then exec (.readLog h tag a b data) s
      else if operation = 0x08 then exec (.attnClear h tag a b data) s
      else if operation = 0x09 then exec (.mgmtLineAck h tag a b data) s
      else if operation = 0x0A then exec (.resetAuthority h tag a b data) s
      else if operation = 0x0B then exec (.saveConfig h tag a b data) s
      else exec (.unknownOperation h operation tag a b data) s)

/-! ## The S-port -/

/-- S_PORT_TAKE (R157, R158): the idle transmitter takes the oldest frame of the Notice, Response or Forward Queue, in that
order, with the marker in force, and discards it while the link is DOWN; within a cycle start's event it takes none. Once a response is taken the waiting one is placed and
the Agent serves its list, oldest first, until a response waits again (R168). The take follows the event that placed the
frames: any other command finds it done, and while the link is DOWN finds the queues of notices and copies empty (the commands
of the start apart, and those that have no effect). The end of a transmission leaves the transmitter idle. -/
def Obligations.TransmitterTakesInOrder : Prop :=
  ∀ (s : State) (f : Frame) (rest : List Frame), (s.cycleStarting = true → exec .sPortTake s = .next s) ∧ (
    s.BeaconsShow → s.sending = none → s.cycleStarting = false →
    let out : Option Outgoing := if s.linkIsUp .surface then some ⟨s.tables.device.marker, f⟩ else none
    (s.rep.notices = f :: rest →
      exec .sPortTake s = .next { s with rep := { s.rep with notices := rest }, sending := out })
    ∧ (s.rep.notices = [] → s.responses = f :: rest → s.agent.response = none →
        exec .sPortTake s = .next { s with responses := rest, sending := out })
    ∧ (s.rep.notices = [] → s.responses = f :: rest → ∀ g : Frame, s.agent.response = some g →
        let u := { s with responses := rest ++ [g], sending := out, agent := { s.agent with response := none } }
        let after (n : Nat) : State := (s.agent.waiting.take n).foldl State.serve u
        ∃ n : Nat, n ≤ s.agent.waiting.length ∧ (∀ m : Nat, m < n → (after m).agent.response = none)
          ∧ (n < s.agent.waiting.length → (after n).agent.response.isSome = true)
          ∧ exec .sPortTake s = .next { after n with
              agent := { (after n).agent with waiting := s.agent.waiting.drop n } })
    ∧ (s.rep.notices = [] → s.responses = [] → s.forwards = f :: rest →
        exec .sPortTake s = .next { s with forwards := rest, sending := out })
    ∧ (s.rep.notices = [] → s.responses = [] → s.forwards = [] → exec .sPortTake s = .next s)
    ∧ (∀ i : Instr, (∀ cfgoff, i ≠ .powerOn cfgoff) → (∀ read, i ≠ .loadEnd read) → i ≠ .sPortTake →
        (∀ d, i.consequence = some d → d ∈ s.due) →
        (∀ t, s.linkIsUp .surface = true → exec .sPortTake s = .next t → exec i s = exec i t)
        ∧ (s.linkIsUp .surface = false → s.responses = [] →
            exec i s = exec i { s with rep := { s.rep with notices := [] }, forwards := [] }))
    ∧ ∀ o : Option Outgoing, State.Ready { s with sending := o } →
        exec .sPortTransmissionEnd { s with sending := o } = .next s)

/-! ## Events and counters -/

/-- An event with room in the log and the Notice Queue (R173, R174, R176, R177): ATTN, one log entry and one notice to each
present supervisor in ascending number, as its map entry says, and nothing else; with the log full it is dropped and the
overflow flag set. A notice takes the next number of its chair's sequence (R140); one that finds the queue full is dropped and
counted NOTICE_LOST, and where it is no EVENT notice the event NOTICE_LOST is raised (R157). -/
def Obligations.EventsActByTheirMap : Prop :=
  ∀ (s : State) (name : EventName) (loader : Option Loader) (chair : Option Chair) (detail : Word16),
    let e : Event := ⟨name, loader, chair, detail⟩
    let m := s.tables.events[name.code]
    let told := allChairs.filter fun c => s.chairs[c].status ≠ .absent && s.tables.chairs[c].supervisor
    let numbered (r : Report) (c : Chair) : Report := { r with noticeSeq := putAt r.noticeSeq c (r.noticeSeq[c] + 1) }
    (∀ (r : Report) (c : Chair) (n : Notice), r.notice s c n =
      if r.notices.length < 32 then
        { numbered r c with notices := r.notices ++ [noticeFrame s c n (r.noticeSeq[c] + 1)] }
      else ((numbered r c).count s (.device noticeLost) 1).raise s
        ⟨.noticeLost, n.loader, some c, n.name.code.setWidth 16⟩)
    ∧ (s.rep.log.length < 128 → 32 ≤ s.rep.notices.length →
      let logged : Report := { s.rep with
        attn := s.rep.attn || m.attn
        log := if m.log then s.rep.log ++ [⟨s.timer.number, s.timer.position, e⟩] else s.rep.log }
      let lost (r : Report) (c : Chair) : Report := (numbered r c).count s (.device noticeLost) 1
      s.raise name loader chair detail = { s with rep := if m.notify then told.foldl lost logged else logged })
    ∧ (s.rep.log.length < 128 → s.rep.notices.length + 8 ≤ 32 →
      s.raise name loader chair detail = { s with rep := { s.rep with
        attn := s.rep.attn || m.attn
        log := if m.log then s.rep.log ++ [⟨s.timer.number, s.timer.position, e⟩] else s.rep.log
        notices := if m.notify then
            s.rep.notices ++ told.map fun c => noticeFrame s c (eventNotice e) (s.rep.noticeSeq[c] + 1)
          else s.rep.notices
        noticeSeq := if m.notify then
            tabulate fun c => if c ∈ told then s.rep.noticeSeq[c] + 1 else s.rep.noticeSeq[c]
          else s.rep.noticeSeq } })
    ∧ (128 ≤ s.rep.log.length → (s.raise name loader chair detail).rep.log = s.rep.log
        ∧ (m.log = true → (s.raise name loader chair detail).rep.overflow = true))

/-- A count (R178–R180): it raises one counter and no other, never past 65535; nothing changes while FROZEN; the first
counter to reach 32768 sets the warning flag. -/
def Obligations.CountsSaturateAndFreeze : Prop :=
  ∀ (s : State) (id : CounterId) (n : Nat), s.rep.CountersRight →
    let t := s.count id n
    let value := min 65535 (s.rep.counter id + n)
    t.rep.CountersRight
    ∧ (s.rep.frozen = true → t = s)
    ∧ (s.rep.frozen = false → (s.rep.warning = true ∨ value < 32768 → t = { s with rep := s.rep.setCounter id value }
          ∧ ∀ x : CounterId, t.rep.counter x = if x = id then value else s.rep.counter x)
        ∧ (32768 ≤ value → t.rep.warning = true ∧ value ≤ t.rep.counter id))

/-! ## Arithmetic -/

/-- The governor scales THROTTLE toward zero by the zone's governor, or the unknown-zone governor, and leaves the other axes
(R79); the clamp limits each target to the axis limits (R80). -/
def Obligations.GovernorAndClamp : Prop :=
  ∀ (s : State) (l : Loader) (e : LoaderEntry) (x : AxisLimits) (g : Nat) (a : Axes) (v : Int), g ≤ 256 →
    (s.governor l = match s.status[l].zone with
      | some z => s.tables.zones[z].governor
      | none => s.tables.device.unknownGovernor)
    ∧ Tables.empty.device.unknownGovernor = 64
    ∧ govern g v = (v * g).tdiv 256 ∧ govern 256 v = v ∧ govern 0 v = 0 ∧ govern g (-v) = -govern g v
    ∧ (govern g v).natAbs ≤ v.natAbs
    ∧ targets e g a = ⟨e.throttle.clamp (govern g a.throttle), e.steer.clamp a.steer, e.boom.clamp a.boom,
        e.bucket.clamp a.bucket⟩
    ∧ x.clamp v = (if v < x.lo then x.lo else if v > x.hi then x.hi else v)
    ∧ (x.valid = true → -2047 ≤ x.clamp v ∧ x.clamp v ≤ 2047 ∧ x.clamp 0 = 0)

/-- The slew moves the output toward the target by at most the step limit and never past it (R81); a NOT_HELD deadman brings
THROTTLE to 0 and turns BRAKE_RELEASE off, HELD carries the slewed axes and the switches as given (R82, R83). -/
def Obligations.SlewAndDeadman : Prop :=
  ∀ (step : Nat) (y t : Int) (e : LoaderEntry) (g : Nat) (last : Axes) (m : Command),
    let out := slew step y t
    let o := synthesize e g last m
    out = (if t - y > step then y + step else if t - y < -(step : Int) then y - step else t)
    ∧ min y t ≤ out ∧ out ≤ max y t ∧ (out - y).natAbs ≤ step
    ∧ (-2047 ≤ y → y ≤ 2047 → -2047 ≤ t → t ≤ 2047 → slew 4095 y t = t)
    ∧ o.axes.steer = slew e.steer.step last.steer (e.steer.clamp m.axes.steer)
    ∧ o.axes.boom = slew e.boom.step last.boom (e.boom.clamp m.axes.boom)
    ∧ o.axes.bucket = slew e.bucket.step last.bucket (e.bucket.clamp m.axes.bucket)
    ∧ o.axes.throttle = (if m.held then slew e.throttle.step last.throttle (e.throttle.clamp (govern g m.axes.throttle))
        else 0)
    ∧ o.gear = m.gear ∧ o.held = m.held
    ∧ ∀ n : Nat, o.switches.getLsbD n = (m.switches.getLsbD n && (m.held || n ≠ 2))

/-- The phase generator (R124): a step moves every digit one place toward digit 0, the exclusive-or of digits 0, 2, 3 and 5
entering at digit 15; a register that does not hold 0 never comes to hold 0, and each step can be undone. A boundary's draw
takes the active RANDOM entries in order of chair and then of loader: each steps the register once and takes its phase from the
new value modulo its period; nothing else changes. -/
def Obligations.PhaseGeneratorSteps : Prop :=
  ∀ (r q : Word16) (s : State),
    (let t := s.drawPhases
     t.phaseGen = phaseAfter s.phaseGen s.drawn.length
     ∧ (∀ (c : Chair) (l : Loader), t.views[c][l] =
         if (c, l) ∈ s.drawn then { s.views[c][l] with
           phase := (phaseAfter s.phaseGen (s.drawn.idxOf (c, l) + 1)).toNat % s.views[c][l].period }
         else s.views[c][l])
     ∧ t = { s with views := t.views, phaseGen := t.phaseGen })
    ∧ (∀ n : Nat, n < 15 → (phaseStep r).getLsbD n = r.getLsbD (n + 1))
    ∧ (phaseStep r).getLsbD 15 = (r.getLsbD 0 ^^ r.getLsbD 2 ^^ r.getLsbD 3 ^^ r.getLsbD 5)
    ∧ (phaseStep r = phaseStep q → r = q) ∧ (r ≠ 0 → phaseStep r ≠ 0)

/-! ## What every step keeps -/

/-- Every step keeps the beacons showing their conditions with no walk left over but within a cycle start's event, every queue
within its capacity, every counter within its range with the warning flag right, and the phase generator off 0
(R52, R124, R135, R157, R166, R168, R174, R178, R180). A beacon is on exactly while a loader that is HELD, or OFFERED or MATCHING with
a holder, is in a zone that names it (R135). -/
def Obligations.EveryStepKeepsReportingRight : Prop :=
  ∀ s t : State, s.EndsRight ∧ s.QueuesBounded ∧ s.rep.CountersRight ∧ s.phaseGen ≠ 0 → step s = .next t →
    t.EndsRight ∧ t.QueuesBounded ∧ t.rep.CountersRight ∧ t.phaseGen ≠ 0
    ∧ ∀ n : Beacon, t.beacons[n] = true ↔ ∃ (l : Loader) (z : Zone), t.status[l].zone = some z
        ∧ t.tables.zones[z].beacon = some n ∧ t.auth[l].state.isStanding = false ∧ t.auth[l].state.holder.isSome = true

/-- Every step keeps the records of loaders, chairs, the Call Queue and the Free Chair List in agreement, so that no chair
ever has two places, a loader is queued exactly while it is CALLING, in its class, and no disabled loader moves
(R3, R12, R34, R44, R46, R48). Every step keeps enabled entries, applied and pending, off each other's port and slot (R163), a
disabled loader's Status Unit state and deadline and a disabled line's record at rest (R97, R103, R127, R133), and every enabled
loader that an ACTIVE or LATCHED line covers STANDING (R128). -/
def Obligations.EveryStepKeepsRecordsAgreeing : Prop :=
  ∀ s t : State, step s = .next t → (s.RecordsAgree → t.RecordsAgree) ∧ (s.SlotsApart → t.SlotsApart)
    ∧ (s.DisabledRest → t.DisabledRest) ∧ (s.RecordsAgree → s.InterlocksStand → t.InterlocksStand)

/-- An event advances a loader's epoch by at most one (R5), and an advance empties both mailboxes, but for the granting
command of a grant. -/
def Obligations.EpochAdvancesByOne : Prop :=
  ∀ (s t : State) (i : Instr) (l : Loader), s.RecordsAgree → s.Quiet ∨ (∃ d ∈ s.due, i.consequence = some d) →
    (∀ cfgoff, i ≠ .powerOn cfgoff) → (∀ read, i ≠ .loadEnd read) → exec i s = .next t →
    t.auth[l].epoch = s.auth[l].epoch
    ∨ (t.auth[l].epoch = s.auth[l].epoch + 1 ∧ t.builders[l].cand = none ∧ t.builders[l].lastCand = none
      ∧ t.builders[l].stale = 0
      ∧ (t.builders[l].holder = none ∨ (t.builders[l].fresh = true ∧ ∃ c, t.auth[l].state = .held c)))
end

