-- ==== Sys2Proof/Laws/Basic.lean ====
section
/-! SUPPORT. Reading and writing the fixed families: what `putAt`, `mapAll` and `tabulate` hold, and what a fold keeps. -/

namespace Sys2Proof

section families
variable {α β : Type} {n : Nat}

theorem putAt_nat (v : Vector α n) (i : Fin n) (x : α) (k : Nat) (h : k < n) :
    (putAt v i x)[k] = if i.val = k then x else v[k] := by
  simp [putAt, Vector.getElem_set]

@[simp] theorem putAt_same_nat (v : Vector α n) (i : Fin n) (x : α) : (putAt v i x)[i.val] = x := by
  simp [putAt_nat]

@[simp] theorem putAt_same (v : Vector α n) (i : Fin n) (x : α) : (putAt v i x)[i] = x := putAt_same_nat v i x

theorem putAt_get (v : Vector α n) (i j : Fin n) (x : α) : (putAt v i x)[j] = if i = j then x else v[j] := by
  simp only [Fin.ext_iff]
  exact putAt_nat v i x j.val j.isLt

theorem putAt_other (v : Vector α n) {i j : Fin n} (x : α) (h : i ≠ j) : (putAt v i x)[j] = v[j] := by
  rw [putAt_get, if_neg h]

@[simp] theorem mapAll_nat (f : α → β) (v : Vector α n) (k : Nat) (h : k < n) : (mapAll f v)[k] = f v[k] := by
  simp [mapAll]

@[simp] theorem mapAll_get (f : α → β) (v : Vector α n) (i : Fin n) : (mapAll f v)[i] = f v[i] :=
  mapAll_nat f v i.val i.isLt

@[simp] theorem tabulate_nat (f : Fin n → α) (k : Nat) (h : k < n) : (tabulate f)[k] = f ⟨k, h⟩ := by
  simp [tabulate]

@[simp] theorem tabulate_get (f : Fin n → α) (i : Fin n) : (tabulate f)[i] = f i := tabulate_nat f i.val i.isLt

theorem family_ext {v w : Vector α n} (h : ∀ i : Fin n, v[i] = w[i]) : v = w := by
  apply Vector.ext
  intro i hi
  exact h ⟨i, hi⟩

@[simp] theorem putAt_self (v : Vector α n) (i : Fin n) : putAt v i v[i] = v := by
  apply family_ext
  intro j
  rw [putAt_get]
  split
  · rename_i h; rw [h]
  · rfl

@[simp] theorem putAt_putAt (v : Vector α n) (i : Fin n) (x y : α) : putAt (putAt v i x) i y = putAt v i y := by
  apply family_ext
  intro j
  simp only [putAt_get]
  split <;> rfl

end families

/-- What every step of a fold keeps, the fold keeps. -/
theorem foldl_keeps {σ ι γ : Type} (f : σ → ι → σ) (p : σ → γ) (h : ∀ s i, p (f s i) = p s) (xs : List ι) (s : σ) :
    p (xs.foldl f s) = p s := by
  induction xs generalizing s with
  | nil => rfl
  | cons x xs ih => rw [List.foldl_cons, ih, h]

/-- A property that every step of a fold keeps, the fold keeps. -/
theorem foldl_inv {σ ι : Type} (f : σ → ι → σ) (P : σ → Prop) (h : ∀ s i, P s → P (f s i)) (xs : List ι) (s : σ)
    (hs : P s) : P (xs.foldl f s) := by
  induction xs generalizing s with
  | nil => exact hs
  | cons x xs ih => exact ih _ (h s x hs)

end Sys2Proof
end

