-- ==== Sys2Proof/Laws/Encoding.lean ====
section
/-! SUPPORT. The byte order and the check word: a 16-bit field read from its own two bytes, and the check word of bytes that
end in their own check word. -/

namespace Sys2Proof.Machine

open Sys2Proof

/-- A 16-bit field is read from its own bytes. -/
@[simp] theorem word16_own_bytes (w : Word16) : word16 (hiByte w) (loByte w) = w := by
  apply BitVec.eq_of_getLsbD_eq
  intro i hi
  simp only [word16, hiByte, loByte, BitVec.getLsbD_or, BitVec.getLsbD_shiftLeft, BitVec.getLsbD_setWidth,
    BitVec.getLsbD_ushiftRight]
  by_cases h : i < 8
  · simp [*]
  · have h8 : i - 8 < 8 := by omega
    have h16 : i - 8 < 16 := by omega
    have hs : 8 + (i - 8) = i := by omega
    simp [*]

/-- A length that fits a 16-bit field. -/
theorem wordOf_toNat {n : Nat} (h : n < 65536) : (wordOf n).toNat = n := by
  simpa [wordOf] using h

/-- A value that fits a byte. -/
theorem byteOf_toNat {n : Nat} (h : n < 256) : (byteOf n).toNat = n := by
  simpa [byteOf] using h

/-- The number of a member of a numbered family, read back. -/
theorem indexOfByte_byteOf {n : Nat} (hn : n ≤ 256) (i : Fin n) : indexOfByte n (byteOf i.val) = some i := by
  have h : (byteOf i.val).toNat = i.val := byteOf_toNat (by omega)
  simp [indexOfByte, h]

/-- A bit equal to the register's top digit shifts it and nothing else (R138). -/
theorem crcBit_top (r : Word16) : crcBit r r.msb = r <<< 1 := by simp [crcBit]

/-- The register's own upper byte shifts it out (R138). -/
theorem crcByte_upper (r : Word16) : crcByte r (hiByte r) = r <<< 8 := by
  have upper : ∀ i, i < 8 → (hiByte r).getLsbD i = r.getLsbD (i + 8) := by
    intro i hi
    simp [hiByte, hi, Nat.add_comm]
  have top : ∀ k, k < 8 → (r <<< k).msb = r.getLsbD (15 - k) := by
    intro k hk
    have hk' : ¬ 15 < k := by omega
    rw [BitVec.msb_eq_getLsbD_last]
    simp only [BitVec.getLsbD_shiftLeft, Nat.reduceSub, Nat.lt_add_one, decide_true, Bool.true_and, hk', decide_false,
      Bool.not_false]
  have bit : ∀ k, k < 8 → crcBit (r <<< k) ((hiByte r).getLsbD (7 - k)) = r <<< (k + 1) := by
    intro k hk
    have hi : 7 - k + 8 = 15 - k := by omega
    rw [upper _ (by omega), hi, ← top k hk, crcBit_top, ← BitVec.shiftLeft_add]
  have b0 := bit 0 (by omega)
  have b1 := bit 1 (by omega)
  have b2 := bit 2 (by omega)
  have b3 := bit 3 (by omega)
  have b4 := bit 4 (by omega)
  have b5 := bit 5 (by omega)
  have b6 := bit 6 (by omega)
  have b7 := bit 7 (by omega)
  simp only [BitVec.shiftLeft_zero, Nat.sub_zero, Nat.reduceSub, Nat.reduceAdd] at *
  simp only [crcByte, List.foldl, b0, b1, b2, b3, b4, b5, b6, b7]

/-- After the upper byte the lower byte is the upper one. -/
theorem hiByte_shifted (r : Word16) : hiByte (r <<< 8) = loByte r := by
  apply BitVec.eq_of_getLsbD_eq
  intro i hi
  have h : 8 + i < 16 := by omega
  have h' : ¬ 8 + i < 8 := by omega
  simp only [hiByte, loByte, BitVec.getLsbD_setWidth, BitVec.getLsbD_ushiftRight, BitVec.getLsbD_shiftLeft, hi, h, h',
    decide_true, decide_false, Bool.true_and, Bool.not_false, Nat.add_sub_cancel_left]

/-- Bytes followed by their own check word have the check word 0 (R138). -/
theorem checkWord_closed (bytes : List Byte) : checkWord (bytes ++ bytes16 (checkWord bytes)) = 0 := by
  simp only [checkWord, List.foldl_append, bytes16, List.foldl]
  rw [crcByte_upper, ← hiByte_shifted, crcByte_upper, ← BitVec.shiftLeft_add]
  exact BitVec.shiftLeft_eq_zero (by omega)

end Sys2Proof.Machine
end

