-- ==== Sys2Proof/Laws/State.lean ====
section
/-! SUPPORT. What each plain update of the state leaves: one lemma for each field, true by `rfl`: first for the fields
an operation does not write, generated from the list of operations and the fields each writes, then for those it writes. -/

namespace Sys2Proof.Machine

open Sys2Proof

section count
variable (s : State) (id : CounterId) (n : Nat)

@[simp] theorem State.count_timer : (s.count id n).timer = s.timer := rfl
@[simp] theorem State.count_deadlines : (s.count id n).deadlines = s.deadlines := rfl
@[simp] theorem State.count_auth : (s.count id n).auth = s.auth := rfl
@[simp] theorem State.count_offerCounter : (s.count id n).offerCounter = s.offerCounter := rfl
@[simp] theorem State.count_chairs : (s.count id n).chairs = s.chairs := rfl
@[simp] theorem State.count_freeList : (s.count id n).freeList = s.freeList := rfl
@[simp] theorem State.count_callQueue : (s.count id n).callQueue = s.callQueue := rfl
@[simp] theorem State.count_walkCalled : (s.count id n).walkCalled = s.walkCalled := rfl
@[simp] theorem State.count_windows : (s.count id n).windows = s.windows := rfl
@[simp] theorem State.count_builders : (s.count id n).builders = s.builders := rfl
@[simp] theorem State.count_status : (s.count id n).status = s.status := rfl
@[simp] theorem State.count_views : (s.count id n).views = s.views := rfl
@[simp] theorem State.count_phaseGen : (s.count id n).phaseGen = s.phaseGen := rfl
@[simp] theorem State.count_lines : (s.count id n).lines = s.lines := rfl
@[simp] theorem State.count_linePins : (s.count id n).linePins = s.linePins := rfl
@[simp] theorem State.count_beacons : (s.count id n).beacons = s.beacons := rfl
@[simp] theorem State.count_tables : (s.count id n).tables = s.tables := rfl
@[simp] theorem State.count_writes : (s.count id n).writes = s.writes := rfl
@[simp] theorem State.count_agent : (s.count id n).agent = s.agent := rfl
@[simp] theorem State.count_config : (s.count id n).config = s.config := rfl
@[simp] theorem State.count_portUp : (s.count id n).portUp = s.portUp := rfl
@[simp] theorem State.count_portSignal : (s.count id n).portSignal = s.portSignal := rfl
@[simp] theorem State.count_responses : (s.count id n).responses = s.responses := rfl
@[simp] theorem State.count_forwards : (s.count id n).forwards = s.forwards := rfl
@[simp] theorem State.count_sending : (s.count id n).sending = s.sending := rfl
@[simp] theorem State.count_lSending : (s.count id n).lSending = s.lSending := rfl
@[simp] theorem State.count_due : (s.count id n).due = s.due := rfl
@[simp] theorem State.count_choices : (s.count id n).choices = s.choices := rfl
@[simp] theorem State.count_pending : (s.count id n).pending = s.pending := rfl

end count

section raise
variable (s : State) (e : EventName) (l : Option Loader) (c : Option Chair) (d : Word16)

@[simp] theorem State.raise_timer : (s.raise e l c d).timer = s.timer := rfl
@[simp] theorem State.raise_deadlines : (s.raise e l c d).deadlines = s.deadlines := rfl
@[simp] theorem State.raise_auth : (s.raise e l c d).auth = s.auth := rfl
@[simp] theorem State.raise_offerCounter : (s.raise e l c d).offerCounter = s.offerCounter := rfl
@[simp] theorem State.raise_chairs : (s.raise e l c d).chairs = s.chairs := rfl
@[simp] theorem State.raise_freeList : (s.raise e l c d).freeList = s.freeList := rfl
@[simp] theorem State.raise_callQueue : (s.raise e l c d).callQueue = s.callQueue := rfl
@[simp] theorem State.raise_walkCalled : (s.raise e l c d).walkCalled = s.walkCalled := rfl
@[simp] theorem State.raise_windows : (s.raise e l c d).windows = s.windows := rfl
@[simp] theorem State.raise_builders : (s.raise e l c d).builders = s.builders := rfl
@[simp] theorem State.raise_status : (s.raise e l c d).status = s.status := rfl
@[simp] theorem State.raise_views : (s.raise e l c d).views = s.views := rfl
@[simp] theorem State.raise_phaseGen : (s.raise e l c d).phaseGen = s.phaseGen := rfl
@[simp] theorem State.raise_lines : (s.raise e l c d).lines = s.lines := rfl
@[simp] theorem State.raise_linePins : (s.raise e l c d).linePins = s.linePins := rfl
@[simp] theorem State.raise_beacons : (s.raise e l c d).beacons = s.beacons := rfl
@[simp] theorem State.raise_tables : (s.raise e l c d).tables = s.tables := rfl
@[simp] theorem State.raise_writes : (s.raise e l c d).writes = s.writes := rfl
@[simp] theorem State.raise_agent : (s.raise e l c d).agent = s.agent := rfl
@[simp] theorem State.raise_config : (s.raise e l c d).config = s.config := rfl
@[simp] theorem State.raise_portUp : (s.raise e l c d).portUp = s.portUp := rfl
@[simp] theorem State.raise_portSignal : (s.raise e l c d).portSignal = s.portSignal := rfl
@[simp] theorem State.raise_responses : (s.raise e l c d).responses = s.responses := rfl
@[simp] theorem State.raise_forwards : (s.raise e l c d).forwards = s.forwards := rfl
@[simp] theorem State.raise_sending : (s.raise e l c d).sending = s.sending := rfl
@[simp] theorem State.raise_lSending : (s.raise e l c d).lSending = s.lSending := rfl
@[simp] theorem State.raise_due : (s.raise e l c d).due = s.due := rfl
@[simp] theorem State.raise_choices : (s.raise e l c d).choices = s.choices := rfl
@[simp] theorem State.raise_pending : (s.raise e l c d).pending = s.pending := rfl

end raise

section notice
variable (s : State) (c : Chair) (n : Notice)

@[simp] theorem State.notice_timer : (s.notice c n).timer = s.timer := rfl
@[simp] theorem State.notice_deadlines : (s.notice c n).deadlines = s.deadlines := rfl
@[simp] theorem State.notice_auth : (s.notice c n).auth = s.auth := rfl
@[simp] theorem State.notice_offerCounter : (s.notice c n).offerCounter = s.offerCounter := rfl
@[simp] theorem State.notice_chairs : (s.notice c n).chairs = s.chairs := rfl
@[simp] theorem State.notice_freeList : (s.notice c n).freeList = s.freeList := rfl
@[simp] theorem State.notice_callQueue : (s.notice c n).callQueue = s.callQueue := rfl
@[simp] theorem State.notice_walkCalled : (s.notice c n).walkCalled = s.walkCalled := rfl
@[simp] theorem State.notice_windows : (s.notice c n).windows = s.windows := rfl
@[simp] theorem State.notice_builders : (s.notice c n).builders = s.builders := rfl
@[simp] theorem State.notice_status : (s.notice c n).status = s.status := rfl
@[simp] theorem State.notice_views : (s.notice c n).views = s.views := rfl
@[simp] theorem State.notice_phaseGen : (s.notice c n).phaseGen = s.phaseGen := rfl
@[simp] theorem State.notice_lines : (s.notice c n).lines = s.lines := rfl
@[simp] theorem State.notice_linePins : (s.notice c n).linePins = s.linePins := rfl
@[simp] theorem State.notice_beacons : (s.notice c n).beacons = s.beacons := rfl
@[simp] theorem State.notice_tables : (s.notice c n).tables = s.tables := rfl
@[simp] theorem State.notice_writes : (s.notice c n).writes = s.writes := rfl
@[simp] theorem State.notice_agent : (s.notice c n).agent = s.agent := rfl
@[simp] theorem State.notice_config : (s.notice c n).config = s.config := rfl
@[simp] theorem State.notice_portUp : (s.notice c n).portUp = s.portUp := rfl
@[simp] theorem State.notice_portSignal : (s.notice c n).portSignal = s.portSignal := rfl
@[simp] theorem State.notice_responses : (s.notice c n).responses = s.responses := rfl
@[simp] theorem State.notice_forwards : (s.notice c n).forwards = s.forwards := rfl
@[simp] theorem State.notice_sending : (s.notice c n).sending = s.sending := rfl
@[simp] theorem State.notice_lSending : (s.notice c n).lSending = s.lSending := rfl
@[simp] theorem State.notice_due : (s.notice c n).due = s.due := rfl
@[simp] theorem State.notice_choices : (s.notice c n).choices = s.choices := rfl
@[simp] theorem State.notice_pending : (s.notice c n).pending = s.pending := rfl

end notice

section setAuth
variable (s : State) (l : Loader) (a : AuthState)

@[simp] theorem State.setAuth_timer : (s.setAuth l a).timer = s.timer := rfl
@[simp] theorem State.setAuth_deadlines : (s.setAuth l a).deadlines = s.deadlines := rfl
@[simp] theorem State.setAuth_offerCounter : (s.setAuth l a).offerCounter = s.offerCounter := rfl
@[simp] theorem State.setAuth_chairs : (s.setAuth l a).chairs = s.chairs := rfl
@[simp] theorem State.setAuth_freeList : (s.setAuth l a).freeList = s.freeList := rfl
@[simp] theorem State.setAuth_callQueue : (s.setAuth l a).callQueue = s.callQueue := rfl
@[simp] theorem State.setAuth_walkCalled : (s.setAuth l a).walkCalled = s.walkCalled := rfl
@[simp] theorem State.setAuth_windows : (s.setAuth l a).windows = s.windows := rfl
@[simp] theorem State.setAuth_builders : (s.setAuth l a).builders = s.builders := rfl
@[simp] theorem State.setAuth_status : (s.setAuth l a).status = s.status := rfl
@[simp] theorem State.setAuth_views : (s.setAuth l a).views = s.views := rfl
@[simp] theorem State.setAuth_phaseGen : (s.setAuth l a).phaseGen = s.phaseGen := rfl
@[simp] theorem State.setAuth_lines : (s.setAuth l a).lines = s.lines := rfl
@[simp] theorem State.setAuth_linePins : (s.setAuth l a).linePins = s.linePins := rfl
@[simp] theorem State.setAuth_beacons : (s.setAuth l a).beacons = s.beacons := rfl
@[simp] theorem State.setAuth_tables : (s.setAuth l a).tables = s.tables := rfl
@[simp] theorem State.setAuth_writes : (s.setAuth l a).writes = s.writes := rfl
@[simp] theorem State.setAuth_agent : (s.setAuth l a).agent = s.agent := rfl
@[simp] theorem State.setAuth_config : (s.setAuth l a).config = s.config := rfl
@[simp] theorem State.setAuth_rep : (s.setAuth l a).rep = s.rep := rfl
@[simp] theorem State.setAuth_portUp : (s.setAuth l a).portUp = s.portUp := rfl
@[simp] theorem State.setAuth_portSignal : (s.setAuth l a).portSignal = s.portSignal := rfl
@[simp] theorem State.setAuth_responses : (s.setAuth l a).responses = s.responses := rfl
@[simp] theorem State.setAuth_forwards : (s.setAuth l a).forwards = s.forwards := rfl
@[simp] theorem State.setAuth_sending : (s.setAuth l a).sending = s.sending := rfl
@[simp] theorem State.setAuth_lSending : (s.setAuth l a).lSending = s.lSending := rfl
@[simp] theorem State.setAuth_due : (s.setAuth l a).due = s.due := rfl
@[simp] theorem State.setAuth_choices : (s.setAuth l a).choices = s.choices := rfl
@[simp] theorem State.setAuth_pending : (s.setAuth l a).pending = s.pending := rfl

end setAuth

section setChair
variable (s : State) (c : Chair) (r : ChairState)

@[simp] theorem State.setChair_timer : (s.setChair c r).timer = s.timer := rfl
@[simp] theorem State.setChair_deadlines : (s.setChair c r).deadlines = s.deadlines := rfl
@[simp] theorem State.setChair_auth : (s.setChair c r).auth = s.auth := rfl
@[simp] theorem State.setChair_offerCounter : (s.setChair c r).offerCounter = s.offerCounter := rfl
@[simp] theorem State.setChair_freeList : (s.setChair c r).freeList = s.freeList := rfl
@[simp] theorem State.setChair_callQueue : (s.setChair c r).callQueue = s.callQueue := rfl
@[simp] theorem State.setChair_walkCalled : (s.setChair c r).walkCalled = s.walkCalled := rfl
@[simp] theorem State.setChair_windows : (s.setChair c r).windows = s.windows := rfl
@[simp] theorem State.setChair_builders : (s.setChair c r).builders = s.builders := rfl
@[simp] theorem State.setChair_status : (s.setChair c r).status = s.status := rfl
@[simp] theorem State.setChair_views : (s.setChair c r).views = s.views := rfl
@[simp] theorem State.setChair_phaseGen : (s.setChair c r).phaseGen = s.phaseGen := rfl
@[simp] theorem State.setChair_lines : (s.setChair c r).lines = s.lines := rfl
@[simp] theorem State.setChair_linePins : (s.setChair c r).linePins = s.linePins := rfl
@[simp] theorem State.setChair_beacons : (s.setChair c r).beacons = s.beacons := rfl
@[simp] theorem State.setChair_tables : (s.setChair c r).tables = s.tables := rfl
@[simp] theorem State.setChair_writes : (s.setChair c r).writes = s.writes := rfl
@[simp] theorem State.setChair_agent : (s.setChair c r).agent = s.agent := rfl
@[simp] theorem State.setChair_config : (s.setChair c r).config = s.config := rfl
@[simp] theorem State.setChair_rep : (s.setChair c r).rep = s.rep := rfl
@[simp] theorem State.setChair_portUp : (s.setChair c r).portUp = s.portUp := rfl
@[simp] theorem State.setChair_portSignal : (s.setChair c r).portSignal = s.portSignal := rfl
@[simp] theorem State.setChair_responses : (s.setChair c r).responses = s.responses := rfl
@[simp] theorem State.setChair_forwards : (s.setChair c r).forwards = s.forwards := rfl
@[simp] theorem State.setChair_sending : (s.setChair c r).sending = s.sending := rfl
@[simp] theorem State.setChair_lSending : (s.setChair c r).lSending = s.lSending := rfl
@[simp] theorem State.setChair_due : (s.setChair c r).due = s.due := rfl
@[simp] theorem State.setChair_choices : (s.setChair c r).choices = s.choices := rfl
@[simp] theorem State.setChair_pending : (s.setChair c r).pending = s.pending := rfl

end setChair

section setBuilder
variable (s : State) (l : Loader) (b : Builder)

@[simp] theorem State.setBuilder_timer : (s.setBuilder l b).timer = s.timer := rfl
@[simp] theorem State.setBuilder_deadlines : (s.setBuilder l b).deadlines = s.deadlines := rfl
@[simp] theorem State.setBuilder_auth : (s.setBuilder l b).auth = s.auth := rfl
@[simp] theorem State.setBuilder_offerCounter : (s.setBuilder l b).offerCounter = s.offerCounter := rfl
@[simp] theorem State.setBuilder_chairs : (s.setBuilder l b).chairs = s.chairs := rfl
@[simp] theorem State.setBuilder_freeList : (s.setBuilder l b).freeList = s.freeList := rfl
@[simp] theorem State.setBuilder_callQueue : (s.setBuilder l b).callQueue = s.callQueue := rfl
@[simp] theorem State.setBuilder_walkCalled : (s.setBuilder l b).walkCalled = s.walkCalled := rfl
@[simp] theorem State.setBuilder_windows : (s.setBuilder l b).windows = s.windows := rfl
@[simp] theorem State.setBuilder_status : (s.setBuilder l b).status = s.status := rfl
@[simp] theorem State.setBuilder_views : (s.setBuilder l b).views = s.views := rfl
@[simp] theorem State.setBuilder_phaseGen : (s.setBuilder l b).phaseGen = s.phaseGen := rfl
@[simp] theorem State.setBuilder_lines : (s.setBuilder l b).lines = s.lines := rfl
@[simp] theorem State.setBuilder_linePins : (s.setBuilder l b).linePins = s.linePins := rfl
@[simp] theorem State.setBuilder_beacons : (s.setBuilder l b).beacons = s.beacons := rfl
@[simp] theorem State.setBuilder_tables : (s.setBuilder l b).tables = s.tables := rfl
@[simp] theorem State.setBuilder_writes : (s.setBuilder l b).writes = s.writes := rfl
@[simp] theorem State.setBuilder_agent : (s.setBuilder l b).agent = s.agent := rfl
@[simp] theorem State.setBuilder_config : (s.setBuilder l b).config = s.config := rfl
@[simp] theorem State.setBuilder_rep : (s.setBuilder l b).rep = s.rep := rfl
@[simp] theorem State.setBuilder_portUp : (s.setBuilder l b).portUp = s.portUp := rfl
@[simp] theorem State.setBuilder_portSignal : (s.setBuilder l b).portSignal = s.portSignal := rfl
@[simp] theorem State.setBuilder_responses : (s.setBuilder l b).responses = s.responses := rfl
@[simp] theorem State.setBuilder_forwards : (s.setBuilder l b).forwards = s.forwards := rfl
@[simp] theorem State.setBuilder_sending : (s.setBuilder l b).sending = s.sending := rfl
@[simp] theorem State.setBuilder_lSending : (s.setBuilder l b).lSending = s.lSending := rfl
@[simp] theorem State.setBuilder_due : (s.setBuilder l b).due = s.due := rfl
@[simp] theorem State.setBuilder_choices : (s.setBuilder l b).choices = s.choices := rfl
@[simp] theorem State.setBuilder_pending : (s.setBuilder l b).pending = s.pending := rfl

end setBuilder

section setStatus
variable (s : State) (l : Loader) (st : LoaderStatus)

@[simp] theorem State.setStatus_timer : (s.setStatus l st).timer = s.timer := rfl
@[simp] theorem State.setStatus_deadlines : (s.setStatus l st).deadlines = s.deadlines := rfl
@[simp] theorem State.setStatus_auth : (s.setStatus l st).auth = s.auth := rfl
@[simp] theorem State.setStatus_offerCounter : (s.setStatus l st).offerCounter = s.offerCounter := rfl
@[simp] theorem State.setStatus_chairs : (s.setStatus l st).chairs = s.chairs := rfl
@[simp] theorem State.setStatus_freeList : (s.setStatus l st).freeList = s.freeList := rfl
@[simp] theorem State.setStatus_callQueue : (s.setStatus l st).callQueue = s.callQueue := rfl
@[simp] theorem State.setStatus_walkCalled : (s.setStatus l st).walkCalled = s.walkCalled := rfl
@[simp] theorem State.setStatus_windows : (s.setStatus l st).windows = s.windows := rfl
@[simp] theorem State.setStatus_builders : (s.setStatus l st).builders = s.builders := rfl
@[simp] theorem State.setStatus_views : (s.setStatus l st).views = s.views := rfl
@[simp] theorem State.setStatus_phaseGen : (s.setStatus l st).phaseGen = s.phaseGen := rfl
@[simp] theorem State.setStatus_lines : (s.setStatus l st).lines = s.lines := rfl
@[simp] theorem State.setStatus_linePins : (s.setStatus l st).linePins = s.linePins := rfl
@[simp] theorem State.setStatus_beacons : (s.setStatus l st).beacons = s.beacons := rfl
@[simp] theorem State.setStatus_tables : (s.setStatus l st).tables = s.tables := rfl
@[simp] theorem State.setStatus_writes : (s.setStatus l st).writes = s.writes := rfl
@[simp] theorem State.setStatus_agent : (s.setStatus l st).agent = s.agent := rfl
@[simp] theorem State.setStatus_config : (s.setStatus l st).config = s.config := rfl
@[simp] theorem State.setStatus_rep : (s.setStatus l st).rep = s.rep := rfl
@[simp] theorem State.setStatus_portUp : (s.setStatus l st).portUp = s.portUp := rfl
@[simp] theorem State.setStatus_portSignal : (s.setStatus l st).portSignal = s.portSignal := rfl
@[simp] theorem State.setStatus_responses : (s.setStatus l st).responses = s.responses := rfl
@[simp] theorem State.setStatus_forwards : (s.setStatus l st).forwards = s.forwards := rfl
@[simp] theorem State.setStatus_sending : (s.setStatus l st).sending = s.sending := rfl
@[simp] theorem State.setStatus_lSending : (s.setStatus l st).lSending = s.lSending := rfl
@[simp] theorem State.setStatus_due : (s.setStatus l st).due = s.due := rfl
@[simp] theorem State.setStatus_choices : (s.setStatus l st).choices = s.choices := rfl
@[simp] theorem State.setStatus_pending : (s.setStatus l st).pending = s.pending := rfl

end setStatus

section setWindow
variable (s : State) (l : Loader) (w : List Bool)

@[simp] theorem State.setWindow_timer : (s.setWindow l w).timer = s.timer := rfl
@[simp] theorem State.setWindow_deadlines : (s.setWindow l w).deadlines = s.deadlines := rfl
@[simp] theorem State.setWindow_auth : (s.setWindow l w).auth = s.auth := rfl
@[simp] theorem State.setWindow_offerCounter : (s.setWindow l w).offerCounter = s.offerCounter := rfl
@[simp] theorem State.setWindow_chairs : (s.setWindow l w).chairs = s.chairs := rfl
@[simp] theorem State.setWindow_freeList : (s.setWindow l w).freeList = s.freeList := rfl
@[simp] theorem State.setWindow_callQueue : (s.setWindow l w).callQueue = s.callQueue := rfl
@[simp] theorem State.setWindow_walkCalled : (s.setWindow l w).walkCalled = s.walkCalled := rfl
@[simp] theorem State.setWindow_builders : (s.setWindow l w).builders = s.builders := rfl
@[simp] theorem State.setWindow_status : (s.setWindow l w).status = s.status := rfl
@[simp] theorem State.setWindow_views : (s.setWindow l w).views = s.views := rfl
@[simp] theorem State.setWindow_phaseGen : (s.setWindow l w).phaseGen = s.phaseGen := rfl
@[simp] theorem State.setWindow_lines : (s.setWindow l w).lines = s.lines := rfl
@[simp] theorem State.setWindow_linePins : (s.setWindow l w).linePins = s.linePins := rfl
@[simp] theorem State.setWindow_beacons : (s.setWindow l w).beacons = s.beacons := rfl
@[simp] theorem State.setWindow_tables : (s.setWindow l w).tables = s.tables := rfl
@[simp] theorem State.setWindow_writes : (s.setWindow l w).writes = s.writes := rfl
@[simp] theorem State.setWindow_agent : (s.setWindow l w).agent = s.agent := rfl
@[simp] theorem State.setWindow_config : (s.setWindow l w).config = s.config := rfl
@[simp] theorem State.setWindow_rep : (s.setWindow l w).rep = s.rep := rfl
@[simp] theorem State.setWindow_portUp : (s.setWindow l w).portUp = s.portUp := rfl
@[simp] theorem State.setWindow_portSignal : (s.setWindow l w).portSignal = s.portSignal := rfl
@[simp] theorem State.setWindow_responses : (s.setWindow l w).responses = s.responses := rfl
@[simp] theorem State.setWindow_forwards : (s.setWindow l w).forwards = s.forwards := rfl
@[simp] theorem State.setWindow_sending : (s.setWindow l w).sending = s.sending := rfl
@[simp] theorem State.setWindow_lSending : (s.setWindow l w).lSending = s.lSending := rfl
@[simp] theorem State.setWindow_due : (s.setWindow l w).due = s.due := rfl
@[simp] theorem State.setWindow_choices : (s.setWindow l w).choices = s.choices := rfl
@[simp] theorem State.setWindow_pending : (s.setWindow l w).pending = s.pending := rfl

end setWindow

section setLine
variable (s : State) (i : Line) (x : LineState)

@[simp] theorem State.setLine_timer : (s.setLine i x).timer = s.timer := rfl
@[simp] theorem State.setLine_deadlines : (s.setLine i x).deadlines = s.deadlines := rfl
@[simp] theorem State.setLine_auth : (s.setLine i x).auth = s.auth := rfl
@[simp] theorem State.setLine_offerCounter : (s.setLine i x).offerCounter = s.offerCounter := rfl
@[simp] theorem State.setLine_chairs : (s.setLine i x).chairs = s.chairs := rfl
@[simp] theorem State.setLine_freeList : (s.setLine i x).freeList = s.freeList := rfl
@[simp] theorem State.setLine_callQueue : (s.setLine i x).callQueue = s.callQueue := rfl
@[simp] theorem State.setLine_walkCalled : (s.setLine i x).walkCalled = s.walkCalled := rfl
@[simp] theorem State.setLine_windows : (s.setLine i x).windows = s.windows := rfl
@[simp] theorem State.setLine_builders : (s.setLine i x).builders = s.builders := rfl
@[simp] theorem State.setLine_status : (s.setLine i x).status = s.status := rfl
@[simp] theorem State.setLine_views : (s.setLine i x).views = s.views := rfl
@[simp] theorem State.setLine_phaseGen : (s.setLine i x).phaseGen = s.phaseGen := rfl
@[simp] theorem State.setLine_linePins : (s.setLine i x).linePins = s.linePins := rfl
@[simp] theorem State.setLine_beacons : (s.setLine i x).beacons = s.beacons := rfl
@[simp] theorem State.setLine_tables : (s.setLine i x).tables = s.tables := rfl
@[simp] theorem State.setLine_writes : (s.setLine i x).writes = s.writes := rfl
@[simp] theorem State.setLine_agent : (s.setLine i x).agent = s.agent := rfl
@[simp] theorem State.setLine_config : (s.setLine i x).config = s.config := rfl
@[simp] theorem State.setLine_rep : (s.setLine i x).rep = s.rep := rfl
@[simp] theorem State.setLine_portUp : (s.setLine i x).portUp = s.portUp := rfl
@[simp] theorem State.setLine_portSignal : (s.setLine i x).portSignal = s.portSignal := rfl
@[simp] theorem State.setLine_responses : (s.setLine i x).responses = s.responses := rfl
@[simp] theorem State.setLine_forwards : (s.setLine i x).forwards = s.forwards := rfl
@[simp] theorem State.setLine_sending : (s.setLine i x).sending = s.sending := rfl
@[simp] theorem State.setLine_lSending : (s.setLine i x).lSending = s.lSending := rfl
@[simp] theorem State.setLine_due : (s.setLine i x).due = s.due := rfl
@[simp] theorem State.setLine_choices : (s.setLine i x).choices = s.choices := rfl
@[simp] theorem State.setLine_pending : (s.setLine i x).pending = s.pending := rfl

end setLine

section setView
variable (s : State) (c : Chair) (l : Loader) (e : ViewEntry)

@[simp] theorem State.setView_timer : (s.setView c l e).timer = s.timer := rfl
@[simp] theorem State.setView_deadlines : (s.setView c l e).deadlines = s.deadlines := rfl
@[simp] theorem State.setView_auth : (s.setView c l e).auth = s.auth := rfl
@[simp] theorem State.setView_offerCounter : (s.setView c l e).offerCounter = s.offerCounter := rfl
@[simp] theorem State.setView_chairs : (s.setView c l e).chairs = s.chairs := rfl
@[simp] theorem State.setView_freeList : (s.setView c l e).freeList = s.freeList := rfl
@[simp] theorem State.setView_callQueue : (s.setView c l e).callQueue = s.callQueue := rfl
@[simp] theorem State.setView_walkCalled : (s.setView c l e).walkCalled = s.walkCalled := rfl
@[simp] theorem State.setView_windows : (s.setView c l e).windows = s.windows := rfl
@[simp] theorem State.setView_builders : (s.setView c l e).builders = s.builders := rfl
@[simp] theorem State.setView_status : (s.setView c l e).status = s.status := rfl
@[simp] theorem State.setView_phaseGen : (s.setView c l e).phaseGen = s.phaseGen := rfl
@[simp] theorem State.setView_lines : (s.setView c l e).lines = s.lines := rfl
@[simp] theorem State.setView_linePins : (s.setView c l e).linePins = s.linePins := rfl
@[simp] theorem State.setView_beacons : (s.setView c l e).beacons = s.beacons := rfl
@[simp] theorem State.setView_tables : (s.setView c l e).tables = s.tables := rfl
@[simp] theorem State.setView_writes : (s.setView c l e).writes = s.writes := rfl
@[simp] theorem State.setView_agent : (s.setView c l e).agent = s.agent := rfl
@[simp] theorem State.setView_config : (s.setView c l e).config = s.config := rfl
@[simp] theorem State.setView_rep : (s.setView c l e).rep = s.rep := rfl
@[simp] theorem State.setView_portUp : (s.setView c l e).portUp = s.portUp := rfl
@[simp] theorem State.setView_portSignal : (s.setView c l e).portSignal = s.portSignal := rfl
@[simp] theorem State.setView_responses : (s.setView c l e).responses = s.responses := rfl
@[simp] theorem State.setView_forwards : (s.setView c l e).forwards = s.forwards := rfl
@[simp] theorem State.setView_sending : (s.setView c l e).sending = s.sending := rfl
@[simp] theorem State.setView_lSending : (s.setView c l e).lSending = s.lSending := rfl
@[simp] theorem State.setView_due : (s.setView c l e).due = s.due := rfl
@[simp] theorem State.setView_choices : (s.setView c l e).choices = s.choices := rfl
@[simp] theorem State.setView_pending : (s.setView c l e).pending = s.pending := rfl

end setView

section callWalk
variable (s : State)

@[simp] theorem State.callWalk_timer : (s.callWalk).timer = s.timer := rfl
@[simp] theorem State.callWalk_deadlines : (s.callWalk).deadlines = s.deadlines := rfl
@[simp] theorem State.callWalk_auth : (s.callWalk).auth = s.auth := rfl
@[simp] theorem State.callWalk_offerCounter : (s.callWalk).offerCounter = s.offerCounter := rfl
@[simp] theorem State.callWalk_chairs : (s.callWalk).chairs = s.chairs := rfl
@[simp] theorem State.callWalk_freeList : (s.callWalk).freeList = s.freeList := rfl
@[simp] theorem State.callWalk_callQueue : (s.callWalk).callQueue = s.callQueue := rfl
@[simp] theorem State.callWalk_windows : (s.callWalk).windows = s.windows := rfl
@[simp] theorem State.callWalk_builders : (s.callWalk).builders = s.builders := rfl
@[simp] theorem State.callWalk_status : (s.callWalk).status = s.status := rfl
@[simp] theorem State.callWalk_views : (s.callWalk).views = s.views := rfl
@[simp] theorem State.callWalk_phaseGen : (s.callWalk).phaseGen = s.phaseGen := rfl
@[simp] theorem State.callWalk_lines : (s.callWalk).lines = s.lines := rfl
@[simp] theorem State.callWalk_linePins : (s.callWalk).linePins = s.linePins := rfl
@[simp] theorem State.callWalk_beacons : (s.callWalk).beacons = s.beacons := rfl
@[simp] theorem State.callWalk_tables : (s.callWalk).tables = s.tables := rfl
@[simp] theorem State.callWalk_writes : (s.callWalk).writes = s.writes := rfl
@[simp] theorem State.callWalk_agent : (s.callWalk).agent = s.agent := rfl
@[simp] theorem State.callWalk_config : (s.callWalk).config = s.config := rfl
@[simp] theorem State.callWalk_rep : (s.callWalk).rep = s.rep := rfl
@[simp] theorem State.callWalk_portUp : (s.callWalk).portUp = s.portUp := rfl
@[simp] theorem State.callWalk_portSignal : (s.callWalk).portSignal = s.portSignal := rfl
@[simp] theorem State.callWalk_responses : (s.callWalk).responses = s.responses := rfl
@[simp] theorem State.callWalk_forwards : (s.callWalk).forwards = s.forwards := rfl
@[simp] theorem State.callWalk_sending : (s.callWalk).sending = s.sending := rfl
@[simp] theorem State.callWalk_lSending : (s.callWalk).lSending = s.lSending := rfl
@[simp] theorem State.callWalk_due : (s.callWalk).due = s.due := rfl
@[simp] theorem State.callWalk_choices : (s.callWalk).choices = s.choices := rfl
@[simp] theorem State.callWalk_pending : (s.callWalk).pending = s.pending := rfl

end callWalk

section leaveList
variable (s : State) (c : Chair)

@[simp] theorem State.leaveList_timer : (s.leaveList c).timer = s.timer := rfl
@[simp] theorem State.leaveList_deadlines : (s.leaveList c).deadlines = s.deadlines := rfl
@[simp] theorem State.leaveList_auth : (s.leaveList c).auth = s.auth := rfl
@[simp] theorem State.leaveList_offerCounter : (s.leaveList c).offerCounter = s.offerCounter := rfl
@[simp] theorem State.leaveList_chairs : (s.leaveList c).chairs = s.chairs := rfl
@[simp] theorem State.leaveList_callQueue : (s.leaveList c).callQueue = s.callQueue := rfl
@[simp] theorem State.leaveList_walkCalled : (s.leaveList c).walkCalled = s.walkCalled := rfl
@[simp] theorem State.leaveList_windows : (s.leaveList c).windows = s.windows := rfl
@[simp] theorem State.leaveList_builders : (s.leaveList c).builders = s.builders := rfl
@[simp] theorem State.leaveList_status : (s.leaveList c).status = s.status := rfl
@[simp] theorem State.leaveList_views : (s.leaveList c).views = s.views := rfl
@[simp] theorem State.leaveList_phaseGen : (s.leaveList c).phaseGen = s.phaseGen := rfl
@[simp] theorem State.leaveList_lines : (s.leaveList c).lines = s.lines := rfl
@[simp] theorem State.leaveList_linePins : (s.leaveList c).linePins = s.linePins := rfl
@[simp] theorem State.leaveList_beacons : (s.leaveList c).beacons = s.beacons := rfl
@[simp] theorem State.leaveList_tables : (s.leaveList c).tables = s.tables := rfl
@[simp] theorem State.leaveList_writes : (s.leaveList c).writes = s.writes := rfl
@[simp] theorem State.leaveList_agent : (s.leaveList c).agent = s.agent := rfl
@[simp] theorem State.leaveList_config : (s.leaveList c).config = s.config := rfl
@[simp] theorem State.leaveList_rep : (s.leaveList c).rep = s.rep := rfl
@[simp] theorem State.leaveList_portUp : (s.leaveList c).portUp = s.portUp := rfl
@[simp] theorem State.leaveList_portSignal : (s.leaveList c).portSignal = s.portSignal := rfl
@[simp] theorem State.leaveList_responses : (s.leaveList c).responses = s.responses := rfl
@[simp] theorem State.leaveList_forwards : (s.leaveList c).forwards = s.forwards := rfl
@[simp] theorem State.leaveList_sending : (s.leaveList c).sending = s.sending := rfl
@[simp] theorem State.leaveList_lSending : (s.leaveList c).lSending = s.lSending := rfl
@[simp] theorem State.leaveList_due : (s.leaveList c).due = s.due := rfl
@[simp] theorem State.leaveList_choices : (s.leaveList c).choices = s.choices := rfl
@[simp] theorem State.leaveList_pending : (s.leaveList c).pending = s.pending := rfl

end leaveList

section joinList
variable (s : State) (c : Chair)

@[simp] theorem State.joinList_timer : (s.joinList c).timer = s.timer := rfl
@[simp] theorem State.joinList_deadlines : (s.joinList c).deadlines = s.deadlines := rfl
@[simp] theorem State.joinList_auth : (s.joinList c).auth = s.auth := rfl
@[simp] theorem State.joinList_offerCounter : (s.joinList c).offerCounter = s.offerCounter := rfl
@[simp] theorem State.joinList_callQueue : (s.joinList c).callQueue = s.callQueue := rfl
@[simp] theorem State.joinList_windows : (s.joinList c).windows = s.windows := rfl
@[simp] theorem State.joinList_builders : (s.joinList c).builders = s.builders := rfl
@[simp] theorem State.joinList_status : (s.joinList c).status = s.status := rfl
@[simp] theorem State.joinList_views : (s.joinList c).views = s.views := rfl
@[simp] theorem State.joinList_phaseGen : (s.joinList c).phaseGen = s.phaseGen := rfl
@[simp] theorem State.joinList_lines : (s.joinList c).lines = s.lines := rfl
@[simp] theorem State.joinList_linePins : (s.joinList c).linePins = s.linePins := rfl
@[simp] theorem State.joinList_beacons : (s.joinList c).beacons = s.beacons := rfl
@[simp] theorem State.joinList_tables : (s.joinList c).tables = s.tables := rfl
@[simp] theorem State.joinList_writes : (s.joinList c).writes = s.writes := rfl
@[simp] theorem State.joinList_agent : (s.joinList c).agent = s.agent := rfl
@[simp] theorem State.joinList_config : (s.joinList c).config = s.config := rfl
@[simp] theorem State.joinList_rep : (s.joinList c).rep = s.rep := rfl
@[simp] theorem State.joinList_portUp : (s.joinList c).portUp = s.portUp := rfl
@[simp] theorem State.joinList_portSignal : (s.joinList c).portSignal = s.portSignal := rfl
@[simp] theorem State.joinList_responses : (s.joinList c).responses = s.responses := rfl
@[simp] theorem State.joinList_forwards : (s.joinList c).forwards = s.forwards := rfl
@[simp] theorem State.joinList_sending : (s.joinList c).sending = s.sending := rfl
@[simp] theorem State.joinList_lSending : (s.joinList c).lSending = s.lSending := rfl
@[simp] theorem State.joinList_due : (s.joinList c).due = s.due := rfl
@[simp] theorem State.joinList_choices : (s.joinList c).choices = s.choices := rfl
@[simp] theorem State.joinList_pending : (s.joinList c).pending = s.pending := rfl

end joinList

section dequeue
variable (s : State) (l : Loader)

@[simp] theorem State.dequeue_timer : (s.dequeue l).timer = s.timer := rfl
@[simp] theorem State.dequeue_deadlines : (s.dequeue l).deadlines = s.deadlines := rfl
@[simp] theorem State.dequeue_auth : (s.dequeue l).auth = s.auth := rfl
@[simp] theorem State.dequeue_offerCounter : (s.dequeue l).offerCounter = s.offerCounter := rfl
@[simp] theorem State.dequeue_chairs : (s.dequeue l).chairs = s.chairs := rfl
@[simp] theorem State.dequeue_freeList : (s.dequeue l).freeList = s.freeList := rfl
@[simp] theorem State.dequeue_walkCalled : (s.dequeue l).walkCalled = s.walkCalled := rfl
@[simp] theorem State.dequeue_windows : (s.dequeue l).windows = s.windows := rfl
@[simp] theorem State.dequeue_builders : (s.dequeue l).builders = s.builders := rfl
@[simp] theorem State.dequeue_status : (s.dequeue l).status = s.status := rfl
@[simp] theorem State.dequeue_views : (s.dequeue l).views = s.views := rfl
@[simp] theorem State.dequeue_phaseGen : (s.dequeue l).phaseGen = s.phaseGen := rfl
@[simp] theorem State.dequeue_lines : (s.dequeue l).lines = s.lines := rfl
@[simp] theorem State.dequeue_linePins : (s.dequeue l).linePins = s.linePins := rfl
@[simp] theorem State.dequeue_beacons : (s.dequeue l).beacons = s.beacons := rfl
@[simp] theorem State.dequeue_tables : (s.dequeue l).tables = s.tables := rfl
@[simp] theorem State.dequeue_writes : (s.dequeue l).writes = s.writes := rfl
@[simp] theorem State.dequeue_agent : (s.dequeue l).agent = s.agent := rfl
@[simp] theorem State.dequeue_config : (s.dequeue l).config = s.config := rfl
@[simp] theorem State.dequeue_rep : (s.dequeue l).rep = s.rep := rfl
@[simp] theorem State.dequeue_portUp : (s.dequeue l).portUp = s.portUp := rfl
@[simp] theorem State.dequeue_portSignal : (s.dequeue l).portSignal = s.portSignal := rfl
@[simp] theorem State.dequeue_responses : (s.dequeue l).responses = s.responses := rfl
@[simp] theorem State.dequeue_forwards : (s.dequeue l).forwards = s.forwards := rfl
@[simp] theorem State.dequeue_sending : (s.dequeue l).sending = s.sending := rfl
@[simp] theorem State.dequeue_lSending : (s.dequeue l).lSending = s.lSending := rfl
@[simp] theorem State.dequeue_due : (s.dequeue l).due = s.due := rfl
@[simp] theorem State.dequeue_choices : (s.dequeue l).choices = s.choices := rfl
@[simp] theorem State.dequeue_pending : (s.dequeue l).pending = s.pending := rfl

end dequeue

section enqueue
variable (s : State) (l : Loader) (w : Word32)

@[simp] theorem State.enqueue_timer : (s.enqueue l w).timer = s.timer := rfl
@[simp] theorem State.enqueue_deadlines : (s.enqueue l w).deadlines = s.deadlines := rfl
@[simp] theorem State.enqueue_auth : (s.enqueue l w).auth = s.auth := rfl
@[simp] theorem State.enqueue_offerCounter : (s.enqueue l w).offerCounter = s.offerCounter := rfl
@[simp] theorem State.enqueue_chairs : (s.enqueue l w).chairs = s.chairs := rfl
@[simp] theorem State.enqueue_freeList : (s.enqueue l w).freeList = s.freeList := rfl
@[simp] theorem State.enqueue_walkCalled : (s.enqueue l w).walkCalled = s.walkCalled := rfl
@[simp] theorem State.enqueue_windows : (s.enqueue l w).windows = s.windows := rfl
@[simp] theorem State.enqueue_builders : (s.enqueue l w).builders = s.builders := rfl
@[simp] theorem State.enqueue_status : (s.enqueue l w).status = s.status := rfl
@[simp] theorem State.enqueue_views : (s.enqueue l w).views = s.views := rfl
@[simp] theorem State.enqueue_phaseGen : (s.enqueue l w).phaseGen = s.phaseGen := rfl
@[simp] theorem State.enqueue_lines : (s.enqueue l w).lines = s.lines := rfl
@[simp] theorem State.enqueue_linePins : (s.enqueue l w).linePins = s.linePins := rfl
@[simp] theorem State.enqueue_beacons : (s.enqueue l w).beacons = s.beacons := rfl
@[simp] theorem State.enqueue_tables : (s.enqueue l w).tables = s.tables := rfl
@[simp] theorem State.enqueue_writes : (s.enqueue l w).writes = s.writes := rfl
@[simp] theorem State.enqueue_agent : (s.enqueue l w).agent = s.agent := rfl
@[simp] theorem State.enqueue_config : (s.enqueue l w).config = s.config := rfl
@[simp] theorem State.enqueue_rep : (s.enqueue l w).rep = s.rep := rfl
@[simp] theorem State.enqueue_portUp : (s.enqueue l w).portUp = s.portUp := rfl
@[simp] theorem State.enqueue_portSignal : (s.enqueue l w).portSignal = s.portSignal := rfl
@[simp] theorem State.enqueue_responses : (s.enqueue l w).responses = s.responses := rfl
@[simp] theorem State.enqueue_forwards : (s.enqueue l w).forwards = s.forwards := rfl
@[simp] theorem State.enqueue_sending : (s.enqueue l w).sending = s.sending := rfl
@[simp] theorem State.enqueue_lSending : (s.enqueue l w).lSending = s.lSending := rfl
@[simp] theorem State.enqueue_due : (s.enqueue l w).due = s.due := rfl
@[simp] theorem State.enqueue_choices : (s.enqueue l w).choices = s.choices := rfl
@[simp] theorem State.enqueue_pending : (s.enqueue l w).pending = s.pending := rfl

end enqueue

section advanceEpoch
variable (s : State) (l : Loader)

@[simp] theorem State.advanceEpoch_timer : (s.advanceEpoch l).timer = s.timer := rfl
@[simp] theorem State.advanceEpoch_deadlines : (s.advanceEpoch l).deadlines = s.deadlines := rfl
@[simp] theorem State.advanceEpoch_offerCounter : (s.advanceEpoch l).offerCounter = s.offerCounter := rfl
@[simp] theorem State.advanceEpoch_chairs : (s.advanceEpoch l).chairs = s.chairs := rfl
@[simp] theorem State.advanceEpoch_freeList : (s.advanceEpoch l).freeList = s.freeList := rfl
@[simp] theorem State.advanceEpoch_callQueue : (s.advanceEpoch l).callQueue = s.callQueue := rfl
@[simp] theorem State.advanceEpoch_walkCalled : (s.advanceEpoch l).walkCalled = s.walkCalled := rfl
@[simp] theorem State.advanceEpoch_windows : (s.advanceEpoch l).windows = s.windows := rfl
@[simp] theorem State.advanceEpoch_status : (s.advanceEpoch l).status = s.status := rfl
@[simp] theorem State.advanceEpoch_views : (s.advanceEpoch l).views = s.views := rfl
@[simp] theorem State.advanceEpoch_phaseGen : (s.advanceEpoch l).phaseGen = s.phaseGen := rfl
@[simp] theorem State.advanceEpoch_lines : (s.advanceEpoch l).lines = s.lines := rfl
@[simp] theorem State.advanceEpoch_linePins : (s.advanceEpoch l).linePins = s.linePins := rfl
@[simp] theorem State.advanceEpoch_beacons : (s.advanceEpoch l).beacons = s.beacons := rfl
@[simp] theorem State.advanceEpoch_tables : (s.advanceEpoch l).tables = s.tables := rfl
@[simp] theorem State.advanceEpoch_writes : (s.advanceEpoch l).writes = s.writes := rfl
@[simp] theorem State.advanceEpoch_agent : (s.advanceEpoch l).agent = s.agent := rfl
@[simp] theorem State.advanceEpoch_config : (s.advanceEpoch l).config = s.config := rfl
@[simp] theorem State.advanceEpoch_rep : (s.advanceEpoch l).rep = s.rep := rfl
@[simp] theorem State.advanceEpoch_portUp : (s.advanceEpoch l).portUp = s.portUp := rfl
@[simp] theorem State.advanceEpoch_portSignal : (s.advanceEpoch l).portSignal = s.portSignal := rfl
@[simp] theorem State.advanceEpoch_responses : (s.advanceEpoch l).responses = s.responses := rfl
@[simp] theorem State.advanceEpoch_forwards : (s.advanceEpoch l).forwards = s.forwards := rfl
@[simp] theorem State.advanceEpoch_sending : (s.advanceEpoch l).sending = s.sending := rfl
@[simp] theorem State.advanceEpoch_lSending : (s.advanceEpoch l).lSending = s.lSending := rfl
@[simp] theorem State.advanceEpoch_due : (s.advanceEpoch l).due = s.due := rfl
@[simp] theorem State.advanceEpoch_choices : (s.advanceEpoch l).choices = s.choices := rfl
@[simp] theorem State.advanceEpoch_pending : (s.advanceEpoch l).pending = s.pending := rfl

end advanceEpoch

section clearMatch
variable (s : State) (l : Loader)

@[simp] theorem State.clearMatch_timer : (s.clearMatch l).timer = s.timer := rfl
@[simp] theorem State.clearMatch_deadlines : (s.clearMatch l).deadlines = s.deadlines := rfl
@[simp] theorem State.clearMatch_auth : (s.clearMatch l).auth = s.auth := rfl
@[simp] theorem State.clearMatch_offerCounter : (s.clearMatch l).offerCounter = s.offerCounter := rfl
@[simp] theorem State.clearMatch_chairs : (s.clearMatch l).chairs = s.chairs := rfl
@[simp] theorem State.clearMatch_freeList : (s.clearMatch l).freeList = s.freeList := rfl
@[simp] theorem State.clearMatch_callQueue : (s.clearMatch l).callQueue = s.callQueue := rfl
@[simp] theorem State.clearMatch_walkCalled : (s.clearMatch l).walkCalled = s.walkCalled := rfl
@[simp] theorem State.clearMatch_status : (s.clearMatch l).status = s.status := rfl
@[simp] theorem State.clearMatch_views : (s.clearMatch l).views = s.views := rfl
@[simp] theorem State.clearMatch_phaseGen : (s.clearMatch l).phaseGen = s.phaseGen := rfl
@[simp] theorem State.clearMatch_lines : (s.clearMatch l).lines = s.lines := rfl
@[simp] theorem State.clearMatch_linePins : (s.clearMatch l).linePins = s.linePins := rfl
@[simp] theorem State.clearMatch_beacons : (s.clearMatch l).beacons = s.beacons := rfl
@[simp] theorem State.clearMatch_tables : (s.clearMatch l).tables = s.tables := rfl
@[simp] theorem State.clearMatch_writes : (s.clearMatch l).writes = s.writes := rfl
@[simp] theorem State.clearMatch_agent : (s.clearMatch l).agent = s.agent := rfl
@[simp] theorem State.clearMatch_config : (s.clearMatch l).config = s.config := rfl
@[simp] theorem State.clearMatch_rep : (s.clearMatch l).rep = s.rep := rfl
@[simp] theorem State.clearMatch_portUp : (s.clearMatch l).portUp = s.portUp := rfl
@[simp] theorem State.clearMatch_portSignal : (s.clearMatch l).portSignal = s.portSignal := rfl
@[simp] theorem State.clearMatch_responses : (s.clearMatch l).responses = s.responses := rfl
@[simp] theorem State.clearMatch_forwards : (s.clearMatch l).forwards = s.forwards := rfl
@[simp] theorem State.clearMatch_sending : (s.clearMatch l).sending = s.sending := rfl
@[simp] theorem State.clearMatch_lSending : (s.clearMatch l).lSending = s.lSending := rfl
@[simp] theorem State.clearMatch_due : (s.clearMatch l).due = s.due := rfl
@[simp] theorem State.clearMatch_choices : (s.clearMatch l).choices = s.choices := rfl
@[simp] theorem State.clearMatch_pending : (s.clearMatch l).pending = s.pending := rfl

end clearMatch

section engage
variable (s : State) (c : Chair) (st : ChairStatus) (l : Loader)

@[simp] theorem State.engage_timer : (s.engage c st l).timer = s.timer := rfl
@[simp] theorem State.engage_deadlines : (s.engage c st l).deadlines = s.deadlines := rfl
@[simp] theorem State.engage_auth : (s.engage c st l).auth = s.auth := rfl
@[simp] theorem State.engage_offerCounter : (s.engage c st l).offerCounter = s.offerCounter := rfl
@[simp] theorem State.engage_callQueue : (s.engage c st l).callQueue = s.callQueue := rfl
@[simp] theorem State.engage_walkCalled : (s.engage c st l).walkCalled = s.walkCalled := rfl
@[simp] theorem State.engage_windows : (s.engage c st l).windows = s.windows := rfl
@[simp] theorem State.engage_builders : (s.engage c st l).builders = s.builders := rfl
@[simp] theorem State.engage_status : (s.engage c st l).status = s.status := rfl
@[simp] theorem State.engage_views : (s.engage c st l).views = s.views := rfl
@[simp] theorem State.engage_phaseGen : (s.engage c st l).phaseGen = s.phaseGen := rfl
@[simp] theorem State.engage_lines : (s.engage c st l).lines = s.lines := rfl
@[simp] theorem State.engage_linePins : (s.engage c st l).linePins = s.linePins := rfl
@[simp] theorem State.engage_beacons : (s.engage c st l).beacons = s.beacons := rfl
@[simp] theorem State.engage_tables : (s.engage c st l).tables = s.tables := rfl
@[simp] theorem State.engage_writes : (s.engage c st l).writes = s.writes := rfl
@[simp] theorem State.engage_agent : (s.engage c st l).agent = s.agent := rfl
@[simp] theorem State.engage_config : (s.engage c st l).config = s.config := rfl
@[simp] theorem State.engage_rep : (s.engage c st l).rep = s.rep := rfl
@[simp] theorem State.engage_portUp : (s.engage c st l).portUp = s.portUp := rfl
@[simp] theorem State.engage_portSignal : (s.engage c st l).portSignal = s.portSignal := rfl
@[simp] theorem State.engage_responses : (s.engage c st l).responses = s.responses := rfl
@[simp] theorem State.engage_forwards : (s.engage c st l).forwards = s.forwards := rfl
@[simp] theorem State.engage_sending : (s.engage c st l).sending = s.sending := rfl
@[simp] theorem State.engage_lSending : (s.engage c st l).lSending = s.lSending := rfl
@[simp] theorem State.engage_due : (s.engage c st l).due = s.due := rfl
@[simp] theorem State.engage_choices : (s.engage c st l).choices = s.choices := rfl
@[simp] theorem State.engage_pending : (s.engage c st l).pending = s.pending := rfl

end engage

section refuse
variable (s : State) (c : Chair) (tag : Word16) (l : Option Loader) (why : Reason)

@[simp] theorem State.refuse_timer : (s.refuse c tag l why).timer = s.timer := rfl
@[simp] theorem State.refuse_deadlines : (s.refuse c tag l why).deadlines = s.deadlines := rfl
@[simp] theorem State.refuse_auth : (s.refuse c tag l why).auth = s.auth := rfl
@[simp] theorem State.refuse_offerCounter : (s.refuse c tag l why).offerCounter = s.offerCounter := rfl
@[simp] theorem State.refuse_chairs : (s.refuse c tag l why).chairs = s.chairs := rfl
@[simp] theorem State.refuse_freeList : (s.refuse c tag l why).freeList = s.freeList := rfl
@[simp] theorem State.refuse_callQueue : (s.refuse c tag l why).callQueue = s.callQueue := rfl
@[simp] theorem State.refuse_walkCalled : (s.refuse c tag l why).walkCalled = s.walkCalled := rfl
@[simp] theorem State.refuse_windows : (s.refuse c tag l why).windows = s.windows := rfl
@[simp] theorem State.refuse_builders : (s.refuse c tag l why).builders = s.builders := rfl
@[simp] theorem State.refuse_status : (s.refuse c tag l why).status = s.status := rfl
@[simp] theorem State.refuse_views : (s.refuse c tag l why).views = s.views := rfl
@[simp] theorem State.refuse_phaseGen : (s.refuse c tag l why).phaseGen = s.phaseGen := rfl
@[simp] theorem State.refuse_lines : (s.refuse c tag l why).lines = s.lines := rfl
@[simp] theorem State.refuse_linePins : (s.refuse c tag l why).linePins = s.linePins := rfl
@[simp] theorem State.refuse_beacons : (s.refuse c tag l why).beacons = s.beacons := rfl
@[simp] theorem State.refuse_tables : (s.refuse c tag l why).tables = s.tables := rfl
@[simp] theorem State.refuse_writes : (s.refuse c tag l why).writes = s.writes := rfl
@[simp] theorem State.refuse_agent : (s.refuse c tag l why).agent = s.agent := rfl
@[simp] theorem State.refuse_config : (s.refuse c tag l why).config = s.config := rfl
@[simp] theorem State.refuse_portUp : (s.refuse c tag l why).portUp = s.portUp := rfl
@[simp] theorem State.refuse_portSignal : (s.refuse c tag l why).portSignal = s.portSignal := rfl
@[simp] theorem State.refuse_responses : (s.refuse c tag l why).responses = s.responses := rfl
@[simp] theorem State.refuse_forwards : (s.refuse c tag l why).forwards = s.forwards := rfl
@[simp] theorem State.refuse_sending : (s.refuse c tag l why).sending = s.sending := rfl
@[simp] theorem State.refuse_lSending : (s.refuse c tag l why).lSending = s.lSending := rfl
@[simp] theorem State.refuse_due : (s.refuse c tag l why).due = s.due := rfl
@[simp] theorem State.refuse_choices : (s.refuse c tag l why).choices = s.choices := rfl
@[simp] theorem State.refuse_pending : (s.refuse c tag l why).pending = s.pending := rfl

end refuse

section done
variable (s : State) (c : Chair) (tag : Word16) (l : Loader) (e : Byte) (n : Word16) (m : Nat)

@[simp] theorem State.done_timer : (s.done c tag l e n m).timer = s.timer := rfl
@[simp] theorem State.done_deadlines : (s.done c tag l e n m).deadlines = s.deadlines := rfl
@[simp] theorem State.done_auth : (s.done c tag l e n m).auth = s.auth := rfl
@[simp] theorem State.done_offerCounter : (s.done c tag l e n m).offerCounter = s.offerCounter := rfl
@[simp] theorem State.done_chairs : (s.done c tag l e n m).chairs = s.chairs := rfl
@[simp] theorem State.done_freeList : (s.done c tag l e n m).freeList = s.freeList := rfl
@[simp] theorem State.done_callQueue : (s.done c tag l e n m).callQueue = s.callQueue := rfl
@[simp] theorem State.done_walkCalled : (s.done c tag l e n m).walkCalled = s.walkCalled := rfl
@[simp] theorem State.done_windows : (s.done c tag l e n m).windows = s.windows := rfl
@[simp] theorem State.done_builders : (s.done c tag l e n m).builders = s.builders := rfl
@[simp] theorem State.done_status : (s.done c tag l e n m).status = s.status := rfl
@[simp] theorem State.done_views : (s.done c tag l e n m).views = s.views := rfl
@[simp] theorem State.done_phaseGen : (s.done c tag l e n m).phaseGen = s.phaseGen := rfl
@[simp] theorem State.done_lines : (s.done c tag l e n m).lines = s.lines := rfl
@[simp] theorem State.done_linePins : (s.done c tag l e n m).linePins = s.linePins := rfl
@[simp] theorem State.done_beacons : (s.done c tag l e n m).beacons = s.beacons := rfl
@[simp] theorem State.done_tables : (s.done c tag l e n m).tables = s.tables := rfl
@[simp] theorem State.done_writes : (s.done c tag l e n m).writes = s.writes := rfl
@[simp] theorem State.done_agent : (s.done c tag l e n m).agent = s.agent := rfl
@[simp] theorem State.done_config : (s.done c tag l e n m).config = s.config := rfl
@[simp] theorem State.done_portUp : (s.done c tag l e n m).portUp = s.portUp := rfl
@[simp] theorem State.done_portSignal : (s.done c tag l e n m).portSignal = s.portSignal := rfl
@[simp] theorem State.done_responses : (s.done c tag l e n m).responses = s.responses := rfl
@[simp] theorem State.done_forwards : (s.done c tag l e n m).forwards = s.forwards := rfl
@[simp] theorem State.done_sending : (s.done c tag l e n m).sending = s.sending := rfl
@[simp] theorem State.done_lSending : (s.done c tag l e n m).lSending = s.lSending := rfl
@[simp] theorem State.done_due : (s.done c tag l e n m).due = s.due := rfl
@[simp] theorem State.done_choices : (s.done c tag l e n m).choices = s.choices := rfl
@[simp] theorem State.done_pending : (s.done c tag l e n m).pending = s.pending := rfl

end done

section doneNone
variable (s : State) (c : Chair) (tag : Word16)

@[simp] theorem State.doneNone_timer : (s.doneNone c tag).timer = s.timer := rfl
@[simp] theorem State.doneNone_deadlines : (s.doneNone c tag).deadlines = s.deadlines := rfl
@[simp] theorem State.doneNone_auth : (s.doneNone c tag).auth = s.auth := rfl
@[simp] theorem State.doneNone_offerCounter : (s.doneNone c tag).offerCounter = s.offerCounter := rfl
@[simp] theorem State.doneNone_chairs : (s.doneNone c tag).chairs = s.chairs := rfl
@[simp] theorem State.doneNone_freeList : (s.doneNone c tag).freeList = s.freeList := rfl
@[simp] theorem State.doneNone_callQueue : (s.doneNone c tag).callQueue = s.callQueue := rfl
@[simp] theorem State.doneNone_walkCalled : (s.doneNone c tag).walkCalled = s.walkCalled := rfl
@[simp] theorem State.doneNone_windows : (s.doneNone c tag).windows = s.windows := rfl
@[simp] theorem State.doneNone_builders : (s.doneNone c tag).builders = s.builders := rfl
@[simp] theorem State.doneNone_status : (s.doneNone c tag).status = s.status := rfl
@[simp] theorem State.doneNone_views : (s.doneNone c tag).views = s.views := rfl
@[simp] theorem State.doneNone_phaseGen : (s.doneNone c tag).phaseGen = s.phaseGen := rfl
@[simp] theorem State.doneNone_lines : (s.doneNone c tag).lines = s.lines := rfl
@[simp] theorem State.doneNone_linePins : (s.doneNone c tag).linePins = s.linePins := rfl
@[simp] theorem State.doneNone_beacons : (s.doneNone c tag).beacons = s.beacons := rfl
@[simp] theorem State.doneNone_tables : (s.doneNone c tag).tables = s.tables := rfl
@[simp] theorem State.doneNone_writes : (s.doneNone c tag).writes = s.writes := rfl
@[simp] theorem State.doneNone_agent : (s.doneNone c tag).agent = s.agent := rfl
@[simp] theorem State.doneNone_config : (s.doneNone c tag).config = s.config := rfl
@[simp] theorem State.doneNone_portUp : (s.doneNone c tag).portUp = s.portUp := rfl
@[simp] theorem State.doneNone_portSignal : (s.doneNone c tag).portSignal = s.portSignal := rfl
@[simp] theorem State.doneNone_responses : (s.doneNone c tag).responses = s.responses := rfl
@[simp] theorem State.doneNone_forwards : (s.doneNone c tag).forwards = s.forwards := rfl
@[simp] theorem State.doneNone_sending : (s.doneNone c tag).sending = s.sending := rfl
@[simp] theorem State.doneNone_lSending : (s.doneNone c tag).lSending = s.lSending := rfl
@[simp] theorem State.doneNone_due : (s.doneNone c tag).due = s.due := rfl
@[simp] theorem State.doneNone_choices : (s.doneNone c tag).choices = s.choices := rfl
@[simp] theorem State.doneNone_pending : (s.doneNone c tag).pending = s.pending := rfl

end doneNone

section withdrawn
variable (s : State) (l : Loader) (c : Chair) (n : Word16) (why : Handover)

@[simp] theorem State.withdrawn_timer : (s.withdrawn l c n why).timer = s.timer := rfl
@[simp] theorem State.withdrawn_deadlines : (s.withdrawn l c n why).deadlines = s.deadlines := rfl
@[simp] theorem State.withdrawn_auth : (s.withdrawn l c n why).auth = s.auth := rfl
@[simp] theorem State.withdrawn_offerCounter : (s.withdrawn l c n why).offerCounter = s.offerCounter := rfl
@[simp] theorem State.withdrawn_chairs : (s.withdrawn l c n why).chairs = s.chairs := rfl
@[simp] theorem State.withdrawn_freeList : (s.withdrawn l c n why).freeList = s.freeList := rfl
@[simp] theorem State.withdrawn_callQueue : (s.withdrawn l c n why).callQueue = s.callQueue := rfl
@[simp] theorem State.withdrawn_walkCalled : (s.withdrawn l c n why).walkCalled = s.walkCalled := rfl
@[simp] theorem State.withdrawn_windows : (s.withdrawn l c n why).windows = s.windows := rfl
@[simp] theorem State.withdrawn_builders : (s.withdrawn l c n why).builders = s.builders := rfl
@[simp] theorem State.withdrawn_status : (s.withdrawn l c n why).status = s.status := rfl
@[simp] theorem State.withdrawn_views : (s.withdrawn l c n why).views = s.views := rfl
@[simp] theorem State.withdrawn_phaseGen : (s.withdrawn l c n why).phaseGen = s.phaseGen := rfl
@[simp] theorem State.withdrawn_lines : (s.withdrawn l c n why).lines = s.lines := rfl
@[simp] theorem State.withdrawn_linePins : (s.withdrawn l c n why).linePins = s.linePins := rfl
@[simp] theorem State.withdrawn_beacons : (s.withdrawn l c n why).beacons = s.beacons := rfl
@[simp] theorem State.withdrawn_tables : (s.withdrawn l c n why).tables = s.tables := rfl
@[simp] theorem State.withdrawn_writes : (s.withdrawn l c n why).writes = s.writes := rfl
@[simp] theorem State.withdrawn_agent : (s.withdrawn l c n why).agent = s.agent := rfl
@[simp] theorem State.withdrawn_config : (s.withdrawn l c n why).config = s.config := rfl
@[simp] theorem State.withdrawn_portUp : (s.withdrawn l c n why).portUp = s.portUp := rfl
@[simp] theorem State.withdrawn_portSignal : (s.withdrawn l c n why).portSignal = s.portSignal := rfl
@[simp] theorem State.withdrawn_responses : (s.withdrawn l c n why).responses = s.responses := rfl
@[simp] theorem State.withdrawn_forwards : (s.withdrawn l c n why).forwards = s.forwards := rfl
@[simp] theorem State.withdrawn_sending : (s.withdrawn l c n why).sending = s.sending := rfl
@[simp] theorem State.withdrawn_lSending : (s.withdrawn l c n why).lSending = s.lSending := rfl
@[simp] theorem State.withdrawn_due : (s.withdrawn l c n why).due = s.due := rfl
@[simp] theorem State.withdrawn_choices : (s.withdrawn l c n why).choices = s.choices := rfl
@[simp] theorem State.withdrawn_pending : (s.withdrawn l c n why).pending = s.pending := rfl

end withdrawn

section aborted
variable (s : State) (l : Loader) (c : Chair) (why : Handover)

@[simp] theorem State.aborted_timer : (s.aborted l c why).timer = s.timer := rfl
@[simp] theorem State.aborted_deadlines : (s.aborted l c why).deadlines = s.deadlines := rfl
@[simp] theorem State.aborted_auth : (s.aborted l c why).auth = s.auth := rfl
@[simp] theorem State.aborted_offerCounter : (s.aborted l c why).offerCounter = s.offerCounter := rfl
@[simp] theorem State.aborted_chairs : (s.aborted l c why).chairs = s.chairs := rfl
@[simp] theorem State.aborted_freeList : (s.aborted l c why).freeList = s.freeList := rfl
@[simp] theorem State.aborted_callQueue : (s.aborted l c why).callQueue = s.callQueue := rfl
@[simp] theorem State.aborted_walkCalled : (s.aborted l c why).walkCalled = s.walkCalled := rfl
@[simp] theorem State.aborted_windows : (s.aborted l c why).windows = s.windows := rfl
@[simp] theorem State.aborted_builders : (s.aborted l c why).builders = s.builders := rfl
@[simp] theorem State.aborted_status : (s.aborted l c why).status = s.status := rfl
@[simp] theorem State.aborted_views : (s.aborted l c why).views = s.views := rfl
@[simp] theorem State.aborted_phaseGen : (s.aborted l c why).phaseGen = s.phaseGen := rfl
@[simp] theorem State.aborted_lines : (s.aborted l c why).lines = s.lines := rfl
@[simp] theorem State.aborted_linePins : (s.aborted l c why).linePins = s.linePins := rfl
@[simp] theorem State.aborted_beacons : (s.aborted l c why).beacons = s.beacons := rfl
@[simp] theorem State.aborted_tables : (s.aborted l c why).tables = s.tables := rfl
@[simp] theorem State.aborted_writes : (s.aborted l c why).writes = s.writes := rfl
@[simp] theorem State.aborted_agent : (s.aborted l c why).agent = s.agent := rfl
@[simp] theorem State.aborted_config : (s.aborted l c why).config = s.config := rfl
@[simp] theorem State.aborted_portUp : (s.aborted l c why).portUp = s.portUp := rfl
@[simp] theorem State.aborted_portSignal : (s.aborted l c why).portSignal = s.portSignal := rfl
@[simp] theorem State.aborted_responses : (s.aborted l c why).responses = s.responses := rfl
@[simp] theorem State.aborted_forwards : (s.aborted l c why).forwards = s.forwards := rfl
@[simp] theorem State.aborted_sending : (s.aborted l c why).sending = s.sending := rfl
@[simp] theorem State.aborted_lSending : (s.aborted l c why).lSending = s.lSending := rfl
@[simp] theorem State.aborted_due : (s.aborted l c why).due = s.due := rfl
@[simp] theorem State.aborted_choices : (s.aborted l c why).choices = s.choices := rfl
@[simp] theorem State.aborted_pending : (s.aborted l c why).pending = s.pending := rfl

end aborted

section enterCalling
variable (s : State) (l : Loader) (w d)

@[simp] theorem State.enterCalling_timer : (s.enterCalling l w d).timer = s.timer := rfl
@[simp] theorem State.enterCalling_deadlines : (s.enterCalling l w d).deadlines = s.deadlines := rfl
@[simp] theorem State.enterCalling_offerCounter : (s.enterCalling l w d).offerCounter = s.offerCounter := rfl
@[simp] theorem State.enterCalling_chairs : (s.enterCalling l w d).chairs = s.chairs := rfl
@[simp] theorem State.enterCalling_freeList : (s.enterCalling l w d).freeList = s.freeList := rfl
@[simp] theorem State.enterCalling_windows : (s.enterCalling l w d).windows = s.windows := rfl
@[simp] theorem State.enterCalling_builders : (s.enterCalling l w d).builders = s.builders := rfl
@[simp] theorem State.enterCalling_status : (s.enterCalling l w d).status = s.status := rfl
@[simp] theorem State.enterCalling_views : (s.enterCalling l w d).views = s.views := rfl
@[simp] theorem State.enterCalling_phaseGen : (s.enterCalling l w d).phaseGen = s.phaseGen := rfl
@[simp] theorem State.enterCalling_lines : (s.enterCalling l w d).lines = s.lines := rfl
@[simp] theorem State.enterCalling_linePins : (s.enterCalling l w d).linePins = s.linePins := rfl
@[simp] theorem State.enterCalling_beacons : (s.enterCalling l w d).beacons = s.beacons := rfl
@[simp] theorem State.enterCalling_tables : (s.enterCalling l w d).tables = s.tables := rfl
@[simp] theorem State.enterCalling_writes : (s.enterCalling l w d).writes = s.writes := rfl
@[simp] theorem State.enterCalling_agent : (s.enterCalling l w d).agent = s.agent := rfl
@[simp] theorem State.enterCalling_config : (s.enterCalling l w d).config = s.config := rfl
@[simp] theorem State.enterCalling_portUp : (s.enterCalling l w d).portUp = s.portUp := rfl
@[simp] theorem State.enterCalling_portSignal : (s.enterCalling l w d).portSignal = s.portSignal := rfl
@[simp] theorem State.enterCalling_responses : (s.enterCalling l w d).responses = s.responses := rfl
@[simp] theorem State.enterCalling_forwards : (s.enterCalling l w d).forwards = s.forwards := rfl
@[simp] theorem State.enterCalling_sending : (s.enterCalling l w d).sending = s.sending := rfl
@[simp] theorem State.enterCalling_lSending : (s.enterCalling l w d).lSending = s.lSending := rfl
@[simp] theorem State.enterCalling_due : (s.enterCalling l w d).due = s.due := rfl
@[simp] theorem State.enterCalling_choices : (s.enterCalling l w d).choices = s.choices := rfl
@[simp] theorem State.enterCalling_pending : (s.enterCalling l w d).pending = s.pending := rfl

end enterCalling

section setBeacons
variable (s : State)

@[simp] theorem State.setBeacons_timer : (s.setBeacons).timer = s.timer := rfl
@[simp] theorem State.setBeacons_deadlines : (s.setBeacons).deadlines = s.deadlines := rfl
@[simp] theorem State.setBeacons_auth : (s.setBeacons).auth = s.auth := rfl
@[simp] theorem State.setBeacons_offerCounter : (s.setBeacons).offerCounter = s.offerCounter := rfl
@[simp] theorem State.setBeacons_chairs : (s.setBeacons).chairs = s.chairs := rfl
@[simp] theorem State.setBeacons_freeList : (s.setBeacons).freeList = s.freeList := rfl
@[simp] theorem State.setBeacons_callQueue : (s.setBeacons).callQueue = s.callQueue := rfl
@[simp] theorem State.setBeacons_walkCalled : (s.setBeacons).walkCalled = s.walkCalled := rfl
@[simp] theorem State.setBeacons_windows : (s.setBeacons).windows = s.windows := rfl
@[simp] theorem State.setBeacons_builders : (s.setBeacons).builders = s.builders := rfl
@[simp] theorem State.setBeacons_status : (s.setBeacons).status = s.status := rfl
@[simp] theorem State.setBeacons_views : (s.setBeacons).views = s.views := rfl
@[simp] theorem State.setBeacons_phaseGen : (s.setBeacons).phaseGen = s.phaseGen := rfl
@[simp] theorem State.setBeacons_lines : (s.setBeacons).lines = s.lines := rfl
@[simp] theorem State.setBeacons_linePins : (s.setBeacons).linePins = s.linePins := rfl
@[simp] theorem State.setBeacons_tables : (s.setBeacons).tables = s.tables := rfl
@[simp] theorem State.setBeacons_writes : (s.setBeacons).writes = s.writes := rfl
@[simp] theorem State.setBeacons_agent : (s.setBeacons).agent = s.agent := rfl
@[simp] theorem State.setBeacons_config : (s.setBeacons).config = s.config := rfl
@[simp] theorem State.setBeacons_rep : (s.setBeacons).rep = s.rep := rfl
@[simp] theorem State.setBeacons_portUp : (s.setBeacons).portUp = s.portUp := rfl
@[simp] theorem State.setBeacons_portSignal : (s.setBeacons).portSignal = s.portSignal := rfl
@[simp] theorem State.setBeacons_responses : (s.setBeacons).responses = s.responses := rfl
@[simp] theorem State.setBeacons_forwards : (s.setBeacons).forwards = s.forwards := rfl
@[simp] theorem State.setBeacons_sending : (s.setBeacons).sending = s.sending := rfl
@[simp] theorem State.setBeacons_lSending : (s.setBeacons).lSending = s.lSending := rfl
@[simp] theorem State.setBeacons_due : (s.setBeacons).due = s.due := rfl
@[simp] theorem State.setBeacons_choices : (s.setBeacons).choices = s.choices := rfl
@[simp] theorem State.setBeacons_pending : (s.setBeacons).pending = s.pending := rfl

end setBeacons

section setPin
variable (s : State) (i : Line) (v : Level)

@[simp] theorem State.setPin_timer : (s.setPin i v).timer = s.timer := rfl
@[simp] theorem State.setPin_deadlines : (s.setPin i v).deadlines = s.deadlines := rfl
@[simp] theorem State.setPin_auth : (s.setPin i v).auth = s.auth := rfl
@[simp] theorem State.setPin_offerCounter : (s.setPin i v).offerCounter = s.offerCounter := rfl
@[simp] theorem State.setPin_chairs : (s.setPin i v).chairs = s.chairs := rfl
@[simp] theorem State.setPin_freeList : (s.setPin i v).freeList = s.freeList := rfl
@[simp] theorem State.setPin_callQueue : (s.setPin i v).callQueue = s.callQueue := rfl
@[simp] theorem State.setPin_walkCalled : (s.setPin i v).walkCalled = s.walkCalled := rfl
@[simp] theorem State.setPin_windows : (s.setPin i v).windows = s.windows := rfl
@[simp] theorem State.setPin_builders : (s.setPin i v).builders = s.builders := rfl
@[simp] theorem State.setPin_status : (s.setPin i v).status = s.status := rfl
@[simp] theorem State.setPin_views : (s.setPin i v).views = s.views := rfl
@[simp] theorem State.setPin_phaseGen : (s.setPin i v).phaseGen = s.phaseGen := rfl
@[simp] theorem State.setPin_lines : (s.setPin i v).lines = s.lines := rfl
@[simp] theorem State.setPin_beacons : (s.setPin i v).beacons = s.beacons := rfl
@[simp] theorem State.setPin_tables : (s.setPin i v).tables = s.tables := rfl
@[simp] theorem State.setPin_writes : (s.setPin i v).writes = s.writes := rfl
@[simp] theorem State.setPin_agent : (s.setPin i v).agent = s.agent := rfl
@[simp] theorem State.setPin_config : (s.setPin i v).config = s.config := rfl
@[simp] theorem State.setPin_rep : (s.setPin i v).rep = s.rep := rfl
@[simp] theorem State.setPin_portUp : (s.setPin i v).portUp = s.portUp := rfl
@[simp] theorem State.setPin_portSignal : (s.setPin i v).portSignal = s.portSignal := rfl
@[simp] theorem State.setPin_responses : (s.setPin i v).responses = s.responses := rfl
@[simp] theorem State.setPin_forwards : (s.setPin i v).forwards = s.forwards := rfl
@[simp] theorem State.setPin_sending : (s.setPin i v).sending = s.sending := rfl
@[simp] theorem State.setPin_lSending : (s.setPin i v).lSending = s.lSending := rfl
@[simp] theorem State.setPin_due : (s.setPin i v).due = s.due := rfl
@[simp] theorem State.setPin_choices : (s.setPin i v).choices = s.choices := rfl
@[simp] theorem State.setPin_pending : (s.setPin i v).pending = s.pending := rfl

end setPin

section setSignal
variable (s : State) (p : Port) (b : Bool)

@[simp] theorem State.setSignal_timer : (s.setSignal p b).timer = s.timer := rfl
@[simp] theorem State.setSignal_deadlines : (s.setSignal p b).deadlines = s.deadlines := rfl
@[simp] theorem State.setSignal_auth : (s.setSignal p b).auth = s.auth := rfl
@[simp] theorem State.setSignal_offerCounter : (s.setSignal p b).offerCounter = s.offerCounter := rfl
@[simp] theorem State.setSignal_chairs : (s.setSignal p b).chairs = s.chairs := rfl
@[simp] theorem State.setSignal_freeList : (s.setSignal p b).freeList = s.freeList := rfl
@[simp] theorem State.setSignal_callQueue : (s.setSignal p b).callQueue = s.callQueue := rfl
@[simp] theorem State.setSignal_walkCalled : (s.setSignal p b).walkCalled = s.walkCalled := rfl
@[simp] theorem State.setSignal_windows : (s.setSignal p b).windows = s.windows := rfl
@[simp] theorem State.setSignal_builders : (s.setSignal p b).builders = s.builders := rfl
@[simp] theorem State.setSignal_status : (s.setSignal p b).status = s.status := rfl
@[simp] theorem State.setSignal_views : (s.setSignal p b).views = s.views := rfl
@[simp] theorem State.setSignal_phaseGen : (s.setSignal p b).phaseGen = s.phaseGen := rfl
@[simp] theorem State.setSignal_lines : (s.setSignal p b).lines = s.lines := rfl
@[simp] theorem State.setSignal_linePins : (s.setSignal p b).linePins = s.linePins := rfl
@[simp] theorem State.setSignal_beacons : (s.setSignal p b).beacons = s.beacons := rfl
@[simp] theorem State.setSignal_tables : (s.setSignal p b).tables = s.tables := rfl
@[simp] theorem State.setSignal_writes : (s.setSignal p b).writes = s.writes := rfl
@[simp] theorem State.setSignal_agent : (s.setSignal p b).agent = s.agent := rfl
@[simp] theorem State.setSignal_config : (s.setSignal p b).config = s.config := rfl
@[simp] theorem State.setSignal_rep : (s.setSignal p b).rep = s.rep := rfl
@[simp] theorem State.setSignal_portUp : (s.setSignal p b).portUp = s.portUp := rfl
@[simp] theorem State.setSignal_responses : (s.setSignal p b).responses = s.responses := rfl
@[simp] theorem State.setSignal_forwards : (s.setSignal p b).forwards = s.forwards := rfl
@[simp] theorem State.setSignal_sending : (s.setSignal p b).sending = s.sending := rfl
@[simp] theorem State.setSignal_lSending : (s.setSignal p b).lSending = s.lSending := rfl
@[simp] theorem State.setSignal_due : (s.setSignal p b).due = s.due := rfl
@[simp] theorem State.setSignal_choices : (s.setSignal p b).choices = s.choices := rfl
@[simp] theorem State.setSignal_pending : (s.setSignal p b).pending = s.pending := rfl

end setSignal

section setLink
variable (s : State) (p : Port) (b : Bool)

@[simp] theorem State.setLink_timer : (s.setLink p b).timer = s.timer := rfl
@[simp] theorem State.setLink_deadlines : (s.setLink p b).deadlines = s.deadlines := rfl
@[simp] theorem State.setLink_auth : (s.setLink p b).auth = s.auth := rfl
@[simp] theorem State.setLink_offerCounter : (s.setLink p b).offerCounter = s.offerCounter := rfl
@[simp] theorem State.setLink_chairs : (s.setLink p b).chairs = s.chairs := rfl
@[simp] theorem State.setLink_freeList : (s.setLink p b).freeList = s.freeList := rfl
@[simp] theorem State.setLink_callQueue : (s.setLink p b).callQueue = s.callQueue := rfl
@[simp] theorem State.setLink_walkCalled : (s.setLink p b).walkCalled = s.walkCalled := rfl
@[simp] theorem State.setLink_windows : (s.setLink p b).windows = s.windows := rfl
@[simp] theorem State.setLink_builders : (s.setLink p b).builders = s.builders := rfl
@[simp] theorem State.setLink_status : (s.setLink p b).status = s.status := rfl
@[simp] theorem State.setLink_views : (s.setLink p b).views = s.views := rfl
@[simp] theorem State.setLink_phaseGen : (s.setLink p b).phaseGen = s.phaseGen := rfl
@[simp] theorem State.setLink_lines : (s.setLink p b).lines = s.lines := rfl
@[simp] theorem State.setLink_linePins : (s.setLink p b).linePins = s.linePins := rfl
@[simp] theorem State.setLink_beacons : (s.setLink p b).beacons = s.beacons := rfl
@[simp] theorem State.setLink_tables : (s.setLink p b).tables = s.tables := rfl
@[simp] theorem State.setLink_writes : (s.setLink p b).writes = s.writes := rfl
@[simp] theorem State.setLink_agent : (s.setLink p b).agent = s.agent := rfl
@[simp] theorem State.setLink_config : (s.setLink p b).config = s.config := rfl
@[simp] theorem State.setLink_rep : (s.setLink p b).rep = s.rep := rfl
@[simp] theorem State.setLink_portSignal : (s.setLink p b).portSignal = s.portSignal := rfl
@[simp] theorem State.setLink_responses : (s.setLink p b).responses = s.responses := rfl
@[simp] theorem State.setLink_forwards : (s.setLink p b).forwards = s.forwards := rfl
@[simp] theorem State.setLink_sending : (s.setLink p b).sending = s.sending := rfl
@[simp] theorem State.setLink_lSending : (s.setLink p b).lSending = s.lSending := rfl
@[simp] theorem State.setLink_due : (s.setLink p b).due = s.due := rfl
@[simp] theorem State.setLink_choices : (s.setLink p b).choices = s.choices := rfl
@[simp] theorem State.setLink_pending : (s.setLink p b).pending = s.pending := rfl

end setLink

section undue
variable (s : State) (d : Due)

@[simp] theorem State.undue_timer : (s.undue d).timer = s.timer := rfl
@[simp] theorem State.undue_deadlines : (s.undue d).deadlines = s.deadlines := rfl
@[simp] theorem State.undue_auth : (s.undue d).auth = s.auth := rfl
@[simp] theorem State.undue_offerCounter : (s.undue d).offerCounter = s.offerCounter := rfl
@[simp] theorem State.undue_chairs : (s.undue d).chairs = s.chairs := rfl
@[simp] theorem State.undue_freeList : (s.undue d).freeList = s.freeList := rfl
@[simp] theorem State.undue_callQueue : (s.undue d).callQueue = s.callQueue := rfl
@[simp] theorem State.undue_walkCalled : (s.undue d).walkCalled = s.walkCalled := rfl
@[simp] theorem State.undue_windows : (s.undue d).windows = s.windows := rfl
@[simp] theorem State.undue_builders : (s.undue d).builders = s.builders := rfl
@[simp] theorem State.undue_status : (s.undue d).status = s.status := rfl
@[simp] theorem State.undue_views : (s.undue d).views = s.views := rfl
@[simp] theorem State.undue_phaseGen : (s.undue d).phaseGen = s.phaseGen := rfl
@[simp] theorem State.undue_lines : (s.undue d).lines = s.lines := rfl
@[simp] theorem State.undue_linePins : (s.undue d).linePins = s.linePins := rfl
@[simp] theorem State.undue_beacons : (s.undue d).beacons = s.beacons := rfl
@[simp] theorem State.undue_tables : (s.undue d).tables = s.tables := rfl
@[simp] theorem State.undue_writes : (s.undue d).writes = s.writes := rfl
@[simp] theorem State.undue_agent : (s.undue d).agent = s.agent := rfl
@[simp] theorem State.undue_config : (s.undue d).config = s.config := rfl
@[simp] theorem State.undue_rep : (s.undue d).rep = s.rep := rfl
@[simp] theorem State.undue_portUp : (s.undue d).portUp = s.portUp := rfl
@[simp] theorem State.undue_portSignal : (s.undue d).portSignal = s.portSignal := rfl
@[simp] theorem State.undue_responses : (s.undue d).responses = s.responses := rfl
@[simp] theorem State.undue_forwards : (s.undue d).forwards = s.forwards := rfl
@[simp] theorem State.undue_sending : (s.undue d).sending = s.sending := rfl
@[simp] theorem State.undue_lSending : (s.undue d).lSending = s.lSending := rfl
@[simp] theorem State.undue_choices : (s.undue d).choices = s.choices := rfl
@[simp] theorem State.undue_pending : (s.undue d).pending = s.pending := rfl

end undue

section setInService
variable (s : State) (r : Option MgmtRequest)

@[simp] theorem State.setInService_timer : (s.setInService r).timer = s.timer := rfl
@[simp] theorem State.setInService_deadlines : (s.setInService r).deadlines = s.deadlines := rfl
@[simp] theorem State.setInService_auth : (s.setInService r).auth = s.auth := rfl
@[simp] theorem State.setInService_offerCounter : (s.setInService r).offerCounter = s.offerCounter := rfl
@[simp] theorem State.setInService_chairs : (s.setInService r).chairs = s.chairs := rfl
@[simp] theorem State.setInService_freeList : (s.setInService r).freeList = s.freeList := rfl
@[simp] theorem State.setInService_callQueue : (s.setInService r).callQueue = s.callQueue := rfl
@[simp] theorem State.setInService_walkCalled : (s.setInService r).walkCalled = s.walkCalled := rfl
@[simp] theorem State.setInService_windows : (s.setInService r).windows = s.windows := rfl
@[simp] theorem State.setInService_builders : (s.setInService r).builders = s.builders := rfl
@[simp] theorem State.setInService_status : (s.setInService r).status = s.status := rfl
@[simp] theorem State.setInService_views : (s.setInService r).views = s.views := rfl
@[simp] theorem State.setInService_phaseGen : (s.setInService r).phaseGen = s.phaseGen := rfl
@[simp] theorem State.setInService_lines : (s.setInService r).lines = s.lines := rfl
@[simp] theorem State.setInService_linePins : (s.setInService r).linePins = s.linePins := rfl
@[simp] theorem State.setInService_beacons : (s.setInService r).beacons = s.beacons := rfl
@[simp] theorem State.setInService_tables : (s.setInService r).tables = s.tables := rfl
@[simp] theorem State.setInService_writes : (s.setInService r).writes = s.writes := rfl
@[simp] theorem State.setInService_config : (s.setInService r).config = s.config := rfl
@[simp] theorem State.setInService_rep : (s.setInService r).rep = s.rep := rfl
@[simp] theorem State.setInService_portUp : (s.setInService r).portUp = s.portUp := rfl
@[simp] theorem State.setInService_portSignal : (s.setInService r).portSignal = s.portSignal := rfl
@[simp] theorem State.setInService_responses : (s.setInService r).responses = s.responses := rfl
@[simp] theorem State.setInService_forwards : (s.setInService r).forwards = s.forwards := rfl
@[simp] theorem State.setInService_sending : (s.setInService r).sending = s.sending := rfl
@[simp] theorem State.setInService_lSending : (s.setInService r).lSending = s.lSending := rfl
@[simp] theorem State.setInService_due : (s.setInService r).due = s.due := rfl
@[simp] theorem State.setInService_choices : (s.setInService r).choices = s.choices := rfl
@[simp] theorem State.setInService_pending : (s.setInService r).pending = s.pending := rfl

end setInService

section seek
variable (s : State) (instant : Nat)

@[simp] theorem State.seek_deadlines : (s.seek instant).deadlines = s.deadlines := rfl
@[simp] theorem State.seek_auth : (s.seek instant).auth = s.auth := rfl
@[simp] theorem State.seek_offerCounter : (s.seek instant).offerCounter = s.offerCounter := rfl
@[simp] theorem State.seek_chairs : (s.seek instant).chairs = s.chairs := rfl
@[simp] theorem State.seek_freeList : (s.seek instant).freeList = s.freeList := rfl
@[simp] theorem State.seek_callQueue : (s.seek instant).callQueue = s.callQueue := rfl
@[simp] theorem State.seek_walkCalled : (s.seek instant).walkCalled = s.walkCalled := rfl
@[simp] theorem State.seek_windows : (s.seek instant).windows = s.windows := rfl
@[simp] theorem State.seek_builders : (s.seek instant).builders = s.builders := rfl
@[simp] theorem State.seek_status : (s.seek instant).status = s.status := rfl
@[simp] theorem State.seek_views : (s.seek instant).views = s.views := rfl
@[simp] theorem State.seek_phaseGen : (s.seek instant).phaseGen = s.phaseGen := rfl
@[simp] theorem State.seek_lines : (s.seek instant).lines = s.lines := rfl
@[simp] theorem State.seek_linePins : (s.seek instant).linePins = s.linePins := rfl
@[simp] theorem State.seek_beacons : (s.seek instant).beacons = s.beacons := rfl
@[simp] theorem State.seek_tables : (s.seek instant).tables = s.tables := rfl
@[simp] theorem State.seek_writes : (s.seek instant).writes = s.writes := rfl
@[simp] theorem State.seek_agent : (s.seek instant).agent = s.agent := rfl
@[simp] theorem State.seek_config : (s.seek instant).config = s.config := rfl
@[simp] theorem State.seek_rep : (s.seek instant).rep = s.rep := rfl
@[simp] theorem State.seek_portUp : (s.seek instant).portUp = s.portUp := rfl
@[simp] theorem State.seek_portSignal : (s.seek instant).portSignal = s.portSignal := rfl
@[simp] theorem State.seek_responses : (s.seek instant).responses = s.responses := rfl
@[simp] theorem State.seek_forwards : (s.seek instant).forwards = s.forwards := rfl
@[simp] theorem State.seek_sending : (s.seek instant).sending = s.sending := rfl
@[simp] theorem State.seek_lSending : (s.seek instant).lSending = s.lSending := rfl
@[simp] theorem State.seek_due : (s.seek instant).due = s.due := rfl
@[simp] theorem State.seek_choices : (s.seek instant).choices = s.choices := rfl
@[simp] theorem State.seek_pending : (s.seek instant).pending = s.pending := rfl

end seek

section written
variable (s : State)

@[simp] theorem State.count_rep (id n) : (s.count id n).rep = s.rep.count s id n := rfl
@[simp] theorem State.raise_rep (name l c d) : (s.raise name l c d).rep = s.rep.raise s ⟨name, l, c, d⟩ := rfl
@[simp] theorem State.notice_rep (c n) : (s.notice c n).rep = s.rep.notice s c n := rfl
@[simp] theorem State.setAuth_auth (l a) : (s.setAuth l a).auth = putAt s.auth l { s.auth[l] with state := a } := rfl
@[simp] theorem State.setChair_chairs (c r) : (s.setChair c r).chairs = putAt s.chairs c r := rfl
@[simp] theorem State.setBuilder_builders (l b) : (s.setBuilder l b).builders = putAt s.builders l b := rfl
@[simp] theorem State.setStatus_status (l st) : (s.setStatus l st).status = putAt s.status l st := rfl
@[simp] theorem State.setWindow_windows (l w) : (s.setWindow l w).windows = putAt s.windows l w := rfl
@[simp] theorem State.setLine_lines (i x) : (s.setLine i x).lines = putAt s.lines i x := rfl
@[simp] theorem State.setView_views (c l e) : (s.setView c l e).views = putAt s.views c (putAt s.views[c] l e) := rfl
@[simp] theorem State.callWalk_walkCalled : s.callWalk.walkCalled = true := rfl
@[simp] theorem State.leaveList_freeList (c) : (s.leaveList c).freeList = s.freeList.filter (· ≠ c) := rfl
@[simp] theorem State.joinList_freeList (c) : (s.joinList c).freeList = s.freeList.filter (· ≠ c) ++ [c] := rfl
@[simp] theorem State.joinList_chairs (c) :
    (s.joinList c).chairs = putAt s.chairs c { s.chairs[c] with idleSince := s.timer.number } := rfl
@[simp] theorem State.joinList_walkCalled (c) : (s.joinList c).walkCalled = true := rfl
@[simp] theorem State.dequeue_callQueue (l) : (s.dequeue l).callQueue = s.callQueue.filter (·.loader ≠ l) := rfl
@[simp] theorem State.enqueue_callQueue (l w) :
    (s.enqueue l w).callQueue = insertCall s.timer.number ⟨l, s.callClass l, w⟩ (s.callQueue.filter (·.loader ≠ l)) := rfl
@[simp] theorem State.advanceEpoch_auth (l) :
    (s.advanceEpoch l).auth = putAt s.auth l { s.auth[l] with epoch := s.auth[l].epoch + 1 } := rfl
@[simp] theorem State.advanceEpoch_builders (l) :
    (s.advanceEpoch l).builders = putAt s.builders l s.builders[l].emptied := rfl
@[simp] theorem State.clearMatch_windows (l) : (s.clearMatch l).windows = putAt s.windows l [] := rfl
@[simp] theorem State.clearMatch_builders (l) :
    (s.clearMatch l).builders = putAt s.builders l s.builders[l].candEmptied := rfl
@[simp] theorem State.engage_chairs (c st l) :
    (s.engage c st l).chairs = putAt s.chairs c { s.chairs[c] with status := st, engaged := some l } := rfl
@[simp] theorem State.engage_freeList (c st l) : (s.engage c st l).freeList = s.freeList.filter (· ≠ c) := rfl
@[simp] theorem State.enterCalling_auth (l w d) :
    (s.enterCalling l w d).auth = putAt s.auth l { s.auth[l] with state := .calling w } := rfl
@[simp] theorem State.enterCalling_walkCalled (l w d) : (s.enterCalling l w d).walkCalled = true := rfl
@[simp] theorem State.setBeacons_beacons : s.setBeacons.beacons = tabulate s.beaconOn := rfl
@[simp] theorem State.setPin_linePins (i v) : (s.setPin i v).linePins = putAt s.linePins i v := rfl
@[simp] theorem State.setSignal_portSignal (p v) :
    (s.setSignal p v).portSignal = putAt s.portSignal (Port.index p) v := rfl
@[simp] theorem State.setLink_portUp (p v) : (s.setLink p v).portUp = putAt s.portUp (Port.index p) v := rfl
@[simp] theorem State.undue_due (d) : (s.undue d).due = s.due.erase d := rfl
@[simp] theorem State.setInService_agent (r) : (s.setInService r).agent = { s.agent with inService := r } := rfl

end written

end Sys2Proof.Machine
end

