-- ==== Sys2Proof/Laws/Frame.lean ====
section
/-! SUPPORT. What the operations on authority leave alone. `State.rest` gathers the fields that no operation of the
Authority Table, the Chair Table or the Chair Arbiter writes; each operation has one lemma saying that it keeps them. -/

namespace Sys2Proof.Machine

open Sys2Proof

/-- The fields that requests and stands never write. -/
structure Rest where
  timer : Timer
  deadlines : Vector (Option Deadline) 16
  status : Vector LoaderStatus 16
  views : Vector (Vector ViewEntry 16) 8
  phaseGen : Word16
  lines : Vector LineState 8
  linePins : Vector Level 8
  tables : Tables
  writes : Writes
  agent : Agent
  config : ConfigLoader
  portUp : Vector Bool 3
  portSignal : Vector Bool 3
  responses : List Frame
  forwards : List Frame
  sending : Option Outgoing
  lSending : Vector (Option Outgoing) 2
  due : List Due
  choices : Nat
  pending : List Instr

/-- The fields of a state that requests and stands never write. -/
def State.rest (s : State) : Rest :=
  ⟨s.timer, s.deadlines, s.status, s.views, s.phaseGen, s.lines, s.linePins, s.tables, s.writes, s.agent, s.config,
    s.portUp, s.portSignal, s.responses, s.forwards, s.sending, s.lSending, s.due, s.choices, s.pending⟩

section plain
variable (s : State)

@[simp] theorem State.count_rest (id n) : (s.count id n).rest = s.rest := rfl
@[simp] theorem State.raise_rest (e l c d) : (s.raise e l c d).rest = s.rest := rfl
@[simp] theorem State.notice_rest (c n) : (s.notice c n).rest = s.rest := rfl
@[simp] theorem State.setAuth_rest (l a) : (s.setAuth l a).rest = s.rest := rfl
@[simp] theorem State.setChair_rest (c r) : (s.setChair c r).rest = s.rest := rfl
@[simp] theorem State.setBuilder_rest (l b) : (s.setBuilder l b).rest = s.rest := rfl
@[simp] theorem State.setWindow_rest (l w) : (s.setWindow l w).rest = s.rest := rfl
@[simp] theorem State.callWalk_rest : s.callWalk.rest = s.rest := rfl
@[simp] theorem State.leaveList_rest (c) : (s.leaveList c).rest = s.rest := rfl
@[simp] theorem State.joinList_rest (c) : (s.joinList c).rest = s.rest := rfl
@[simp] theorem State.dequeue_rest (l) : (s.dequeue l).rest = s.rest := rfl
@[simp] theorem State.enqueue_rest (l w) : (s.enqueue l w).rest = s.rest := rfl
@[simp] theorem State.advanceEpoch_rest (l) : (s.advanceEpoch l).rest = s.rest := rfl
@[simp] theorem State.clearMatch_rest (l) : (s.clearMatch l).rest = s.rest := rfl
@[simp] theorem State.engage_rest (c st l) : (s.engage c st l).rest = s.rest := rfl
@[simp] theorem State.refuse_rest (c tag l why) : (s.refuse c tag l why).rest = s.rest := rfl
@[simp] theorem State.done_rest (c tag l e n m) : (s.done c tag l e n m).rest = s.rest := rfl
@[simp] theorem State.doneNone_rest (c tag) : (s.doneNone c tag).rest = s.rest := rfl
@[simp] theorem State.withdrawn_rest (l c n why) : (s.withdrawn l c n why).rest = s.rest := rfl
@[simp] theorem State.aborted_rest (l c why) : (s.aborted l c why).rest = s.rest := rfl
@[simp] theorem State.lost_rest (l r t e why) : (s.lost l r t e why).rest = s.rest := rfl
@[simp] theorem State.enterCalling_rest (l w d) : (s.enterCalling l w d).rest = s.rest := rfl
@[simp] theorem State.makeOffer_rest (l c o) : (s.makeOffer l c o).rest = s.rest := by simp [State.makeOffer]; rfl
@[simp] theorem State.beginMatching_rest (l h c o r) : (s.beginMatching l h c o r).rest = s.rest := by simp [State.beginMatching]
@[simp] theorem State.setBeacons_rest : s.setBeacons.rest = s.rest := rfl

end plain

section branching
variable (s : State)

@[simp] theorem State.noticeIfPresent_rest (c n) : (s.noticeIfPresent c n).rest = s.rest := by
  simp only [State.noticeIfPresent]; repeat' split
  all_goals simp

@[simp] theorem State.release_rest (c) : (s.release c).rest = s.rest := by
  simp only [State.release]; repeat' split
  all_goals simp

@[simp] theorem State.releaseOpt_rest (c) : (s.releaseOpt c).rest = s.rest := by
  unfold State.releaseOpt; split <;> simp

@[simp] theorem State.enterFree_rest (l) : (s.enterFree l).rest = s.rest := by
  simp only [State.enterFree]; split <;> simp

@[simp] theorem State.resort_rest (l) : (s.resort l).rest = s.rest := by
  unfold State.resort; split <;> simp

@[simp] theorem State.offerGone_rest (c n) : (s.offerGone c n).rest = s.rest := by
  simp [State.offerGone]

@[simp] theorem State.endOffer_rest (l c n w) (go : State → State) (h : ∀ s, (go s).rest = s.rest) :
    (s.endOffer l c n w go).rest = s.rest := by
  simp [State.endOffer, h]

@[simp] theorem State.endMatching_rest (l c) : (s.endMatching l c).rest = s.rest := by
  simp [State.endMatching]

@[simp] theorem State.returnLoader_rest (l) : (s.returnLoader l).rest = s.rest := by
  simp only [State.returnLoader]; repeat' split
  all_goals simp

@[simp] theorem State.reportStand_rest (l h c) : (s.reportStand l h c).rest = s.rest := by
  simp only [State.reportStand]; split <;> simp

@[simp] theorem State.standHolder_rest (l c) : (s.standHolder l c).rest = s.rest := by
  simp only [State.standHolder]; repeat' split
  all_goals simp

@[simp] theorem State.standParties_rest (l) : (s.standParties l).rest = s.rest := by
  unfold State.standParties; split <;> simp

@[simp] theorem State.standEntry_rest (l c) : (s.standEntry l c).rest = s.rest := by
  simp [State.standEntry]

@[simp] theorem State.stand_rest (l c) : (s.stand l c).rest = s.rest := by
  simp only [State.stand]; repeat' split
  all_goals simp

@[simp] theorem State.dropRetained_rest (l) : (s.dropRetained l).rest = s.rest := by
  unfold State.dropRetained; split <;> simp

@[simp] theorem State.dropTaken_rest (c l h) : (s.dropTaken c l h).rest = s.rest := by
  simp [State.dropTaken]

@[simp] theorem State.walkOne_rest (e) : (s.walkOne e).rest = s.rest := by
  unfold State.walkOne; split <;> simp

@[simp] theorem State.walk_rest : s.walk.rest = s.rest := foldl_keeps _ State.rest (fun s e => s.walkOne_rest e) _ _

@[simp] theorem State.walkIfCalled_rest : s.walkIfCalled.rest = s.rest := by
  unfold State.walkIfCalled; split
  · exact s.walk_rest
  · rfl

@[simp] theorem State.finish_rest : s.finish.rest = s.rest := by
  simp only [State.finish, State.setBeacons_rest]
  split <;> simp

@[simp] theorem State.takeOperator_rest (c tag l) : (s.takeOperator c tag l).rest = s.rest := by
  simp [State.takeOperator]

@[simp] theorem State.takeSupervisor_rest (c tag l) : (s.takeSupervisor c tag l).rest = s.rest := by
  simp only [State.takeSupervisor]; split <;> simp

@[simp] theorem State.releaseToAuto_rest (c tag l) : (s.releaseToAuto c tag l).rest = s.rest := by
  simp [State.releaseToAuto]

@[simp] theorem State.grant_rest (l p c o m) : (s.grant l p c o m).rest = s.rest := by
  simp only [State.grant]; split <;> simp

@[simp] theorem State.refreshPresence_rest (c) : (s.refreshPresence c).rest = s.rest := by
  unfold State.refreshPresence; split <;> simp

@[simp] theorem State.missOffer_rest (c) : (s.missOffer c).rest = s.rest := by
  simp only [State.missOffer]; split <;> simp

@[simp] theorem State.authorityRequest_rest (c b tag fits) (k : State → Loader → State)
    (h : ∀ s l, (k s l).rest = s.rest) : (s.authorityRequest c b tag fits k).rest = s.rest := by
  simp only [State.authorityRequest]; repeat' split
  all_goals simp [h]

end branching

end Sys2Proof.Machine
end

