-- ==== Sys2Proof/Laws/Run.lean ====
section
/-! SUPPORT. How a command runs when nothing waits: settling changes nothing, a frame that is admitted reaches its owner,
and the end of an event that called for no walk only sets the beacons. -/

namespace Sys2Proof.Machine

open Sys2Proof

/-! ## Settling -/

theorem State.takesN_idle {s : State} (h : s.canTake = false) (n : Nat) : State.takesN n s = s := by
  cases n <;> simp [State.takesN, h]

/-- A transmitter that is busy or finds no frame takes none. -/
theorem State.takes_idle {s : State} (h : s.canTake = false) : s.takes = s := State.takesN_idle h _

/-- With nothing to choose from, taking events is the transmitter's takes alone. -/
theorem State.settleN_idle {s : State} {events : State → List Due} (ht : s.canTake = false) (he : events s = []) (n : Nat) :
    State.settleN events n s = s := by
  cases n <;> simp [State.settleN, State.takes_idle ht, he]

theorem State.conclude_idle {s : State} (ht : s.canTake = false) (hf : s.following = []) : s.conclude = s :=
  State.settleN_idle ht hf _

theorem State.Quiet.settle {s : State} (h : s.Quiet) : s.settle = s :=
  State.settleN_idle h.2.1 (by simp [State.nextDue, State.following, h.1]) _

theorem State.Quiet.conclude {s : State} (h : s.Quiet) : s.conclude = s :=
  State.conclude_idle h.2.1 (by simp [State.following, h.1])

/-- A Ready state is ready for an event at any instant. -/
theorem State.Ready.readyAt {s : State} (h : s.Ready) (instant : Nat) : s.ReadyAt instant :=
  ⟨h.2, h.1.2.2, ⟨h.1.2.1, by simp [State.following, h.1.1]⟩, .inl h.1.1⟩

/-- A command of the sender that finds nothing waiting runs at once. -/
theorem State.Ready.run {s : State} (h : s.Ready) (body : State → State) : s.run body = (body s).finish := by
  simp [State.run, h.1.settle, h.2]

theorem State.Quiet.arriveAt {s : State} (h : s.Quiet) (instant : Option Nat) : s.arriveAt instant = s := by
  simp [State.arriveAt, h.settle, h.conclude]

/-- A command of the Cycle Timer that finds nothing waiting runs at once, whatever its instant. -/
theorem State.Ready.runAt {s : State} (h : s.Ready) (instant : State → Option Nat) (body : State → State) :
    s.runAt instant body = (body s).finish := by
  simp [State.runAt, h.1.arriveAt, h.2]

/-- A command of the Cycle Timer at the instant of the events that wait, the last of them whole, runs at once. -/
theorem State.ReadyAt.runAt {s : State} {instant : State → Option Nat} {n : Nat} (h : s.ReadyAt n) (hi : instant s = some n)
    (body : State → State) : s.runAt instant body = (body s).finish := by
  obtain ⟨hr, hb, hw, hd | hn⟩ := h
  · exact State.Ready.runAt ⟨⟨hd, hw.1, hb⟩, hr⟩ instant body
  · simp [State.runAt, State.arriveAt, hr, hi, hn, State.conclude_idle hw.1 hw.2]

/-- An event that waits and follows from the last one is taken once the transmitter has taken what it can. -/
theorem State.runDue_follows {s : State} {d : Due} (h : d ∈ s.due) (hf : d.follows = true) (ht : s.canTake = false)
    (body : State → State) : s.runDue d body = (body (s.undue d)).finish := by
  simp [State.runDue, State.upTo, h, hf, State.takes_idle ht]

/-- An action of a cycle start that waits is taken at once: no take of the transmitter comes within that event. -/
theorem State.runDue_ofCycleStart {s : State} {d : Due} (h : d ∈ s.due) (hc : d.ofCycleStart = true)
    (body : State → State) : s.runDue d body = (body (s.undue d)).finish := by
  have hs : s.cycleStarting = true := List.any_eq_true.mpr ⟨d, h, hc⟩
  have hf : d.follows = true := by cases d <;> simp_all [Due.ofCycleStart, Due.follows]
  exact State.runDue_follows h hf (by simp [State.canTake, hs]) body

/-- An event that waits is taken once the last one is whole. -/
theorem State.runDue_whole {s : State} {d : Due} (h : d ∈ s.due) (hw : s.Whole) (body : State → State) :
    s.runDue d body = (body (s.undue d)).finish := by
  simp [State.runDue, State.upTo, h, State.takes_idle hw.1, State.conclude_idle hw.1 hw.2]

/-- An event of the present instant that does not wait has no effect. -/
theorem State.runDue_idle {s : State} {d : Due} (h : d ∉ s.due) (body : State → State) : s.runDue d body = s := by
  simp [State.runDue, h]

/-! ## The end of an event -/

theorem State.walkIfCalled_idle {s : State} (h : s.walkCalled = false) : s.walkIfCalled = s := by
  simp [State.walkIfCalled, h]

/-- The end of an event: within a cycle start the beacons alone; else the walk that was called for, and the beacons (R52,
R166). -/
theorem State.finish_cases (s : State) :
    (s.cycleStarting = true ∧ s.finish = s.setBeacons)
      ∨ (s.cycleStarting = false ∧ s.walkCalled = false ∧ s.finish = s.setBeacons)
      ∨ (s.cycleStarting = false ∧ s.walkCalled = true ∧ s.finish = { s.walk with walkCalled := false }.setBeacons) := by
  cases hc : s.cycleStarting <;> cases hw : s.walkCalled <;> simp [State.finish, State.walkIfCalled, hc, hw]

/-- An event that called for no walk ends by setting the beacons. -/
theorem State.finish_idle {s : State} (h : s.walkCalled = false) : s.finish = s.setBeacons := by
  simp [State.finish, State.walkIfCalled_idle h]

/-- Within a cycle start's event a row makes no walk: the one called for waits (R166). -/
theorem State.finish_within {s : State} (h : s.cycleStarting = true) : s.finish = s.setBeacons := by
  simp [State.finish, h]

/-- With no action of a cycle start to come, an event ends with the walk it called for. -/
theorem State.finish_over {s : State} (h : s.cycleStarting = false) : s.finish = s.walkIfCalled.setBeacons := by
  simp [State.finish, h]

/-- With nothing that follows from the last event, no cycle start goes on. -/
theorem State.cycleStarting_of_following {s : State} (h : s.following = []) : s.cycleStarting = false := by
  simp only [State.following, List.filter_eq_nil_iff] at h
  simp only [State.cycleStarting, List.any_eq_false]
  intro d hd hc
  apply h d hd
  cases d <;> simp_all [Due.ofCycleStart, Due.follows]

/-- The beacon conditions depend on the records, the zones and the applied Zones table alone (R135). -/
theorem State.beaconOn_congr {s t : State} (ha : t.auth = s.auth) (hs : t.status = s.status) (ht : t.tables = s.tables) :
    t.beaconOn = s.beaconOn := by
  funext n
  simp [State.beaconOn, ha, hs, ht]

/-- Setting beacons that already show their conditions changes nothing. -/
theorem State.setBeacons_shown {s t : State} (h : s.beacons = tabulate s.beaconOn) (hb : t.beacons = s.beacons)
    (ha : t.auth = s.auth) (hs : t.status = s.status) (ht : t.tables = s.tables) : t.setBeacons = t := by
  have h2 : tabulate t.beaconOn = t.beacons := by rw [State.beaconOn_congr ha hs ht, ← h, hb]
  simp only [State.setBeacons, h2]

/-- An event that called for no walk and changed no record, zone or table changes nothing at its end. -/
theorem State.finish_quiet {s t : State} (h : s.Quiet) (hw : t.walkCalled = s.walkCalled) (hb : t.beacons = s.beacons)
    (ha : t.auth = s.auth) (hs : t.status = s.status) (ht : t.tables = s.tables) : t.finish = t := by
  rw [State.finish_idle (hw.trans h.2.2.1), State.setBeacons_shown h.2.2.2 hb ha hs ht]

/-- After a row a walk is still called for only within a cycle start's event (R52, R166). -/
theorem State.finish_walkCalled {s : State} (h : s.finish.walkCalled = true) : s.cycleStarting = true := by
  obtain ⟨hc, -⟩ | ⟨-, hw, hf⟩ | ⟨-, -, hf⟩ := s.finish_cases
  · exact hc
  · rw [hf] at h
    exact absurd (hw.symm.trans h) (by decide)
  · rw [hf] at h
    exact absurd h Bool.false_ne_true

/-- After every event the beacons show their conditions. -/
theorem State.finish_beacons (s : State) : s.finish.beacons = tabulate s.finish.beaconOn := rfl

/-! ## Frames that reach their owner -/

theorem State.throughRules_passes {s : State} {f : Frame} (h : s.Passes f) (c : Option Chair)
    (dispatch : State → State) : s.throughRules f c dispatch = dispatch s := by
  unfold State.throughRules
  cases hd : s.decidingRule f with
  | none => rfl
  | some i => simp only [h i hd]

theorem State.arrival_fits {s : State} {p : Port} {f : Frame} (hl : s.linkIsUp p = true)
    (hf : f.payload.length ≤ maxPayload) (k : State → State) : s.arrival p f k = k s := by
  simp [State.arrival, hl, Nat.not_lt.mpr hf]

/-- An admitted frame of a chair refreshes its presence and reaches its owner (R37, R156). -/
theorem State.Admits.fromChair {s : State} {f : Frame} {c : Chair} (h : s.Admits f c) (owner : State → Chair → State) :
    (s.run fun s => s.arrival .surface f fun s => s.fromChair f owner) = (owner (s.refreshPresence c) c).finish := by
  obtain ⟨hr, hl, hf, hc, hp⟩ := h
  rw [hr.run, State.arrival_fits hl hf]
  simp only [State.fromChair, hc]
  rw [State.throughRules_passes hp]

/-- An admitted chair request reaches its owner. -/
theorem State.Admits.chairCommand {s : State} {h : Header} {code : Byte} {tag : Word16} {args : List Byte} {c : Chair}
    (ha : s.Admits (requestFrame h code tag args) c) (owner : State → Chair → State) :
    s.chairCommand h code tag args owner = (owner (s.refreshPresence c) c).finish :=
  ha.fromChair owner

/-- An admitted STATUS frame reaches the Status Unit. -/
theorem State.AdmitsStatus.fromLoader {s : State} {p : Port} {f : Frame} {l : Loader} (h : s.AdmitsStatus p f l)
    (owner : State → Loader → State) :
    (s.run fun s => s.arrival p f fun s => s.fromLoader p f owner) = (owner s l).finish := by
  obtain ⟨hr, hl, hf, hc, hp⟩ := h
  rw [hr.run, State.arrival_fits hl hf]
  simp only [State.fromLoader, hc]
  rw [State.throughRules_passes hp]

/-- An admitted management request reaches the Agent. -/
theorem State.AdmitsMgmt.mgmtCommand {s : State} {h : Header} {op : Byte} {tag : Word16} {sel idx : Byte}
    {data : List Byte} (ha : s.AdmitsMgmt (mgmtFrame h op tag sel idx data)) :
    s.mgmtCommand h op tag sel idx data = (s.mgmtArrival (mgmtRequestOf h op tag sel idx data)).finish := by
  obtain ⟨hr, hl, hf, hc, hp⟩ := ha
  simp only [State.mgmtCommand]
  rw [hr.run, State.arrival_fits hl hf]
  simp only [State.fromStation, hc, if_true]
  rw [State.throughRules_passes hp]

end Sys2Proof.Machine
end

