-- ==== Sys2Proof/Laws/Ops.lean ====
section
/-! SUPPORT. One lemma for each shared operation of Machine/Ops.lean, saying all it can do: reporting reads the timer, the
tables and who is present alone; a release, an offer, a stand, a return and a walk change the records named here and no
other. -/

namespace Sys2Proof.Machine

open Sys2Proof

/-! ## Reporting -/

/-- Two states with the same timer, tables and present chairs report alike. -/
structure State.SameReporting (s t : State) : Prop where
  timer : t.timer = s.timer
  tables : t.tables = s.tables
  present : ∀ c : Chair, (t.chairs[c].status = .absent) ↔ (s.chairs[c].status = .absent)

theorem noticeFrame_same {s t : State} (h : s.SameReporting t) (c : Chair) (n : Notice) (q : Word16) :
    noticeFrame t c n q = noticeFrame s c n q := by
  simp [noticeFrame, h.timer, h.tables]

theorem State.presentSupervisor_same {s t : State} (h : s.SameReporting t) (c : Chair) :
    t.presentSupervisor c = s.presentSupervisor c := by
  have hc := h.present c
  simp only [State.presentSupervisor, h.tables, ne_eq, hc]

theorem Report.offerEventNotice_same {s t : State} (h : s.SameReporting t) (cnt : CounterId → Report → Report) (c : Chair)
    (n : Notice) (r : Report) : r.offerEventNotice cnt t c n = r.offerEventNotice cnt s c n := by
  simp [Report.offerEventNotice, Report.place, noticeFrame_same h]

theorem Report.record_same {s t : State} (h : s.SameReporting t) (cnt : CounterId → Report → Report) (e : Event) :
    Report.record cnt t e = Report.record cnt s e := by
  funext r
  simp only [Report.record, h.timer]

theorem Report.notifyAll_same {s t : State} (h : s.SameReporting t) (cnt : CounterId → Report → Report) (e : Event) :
    Report.notifyAll cnt t e = Report.notifyAll cnt s e := by
  funext r
  simp only [Report.notifyAll, State.presentSupervisor_same h, Report.offerEventNotice_same h]

theorem Report.raiseWith_same {s t : State} (h : s.SameReporting t) (cnt : CounterId → Report → Report) (e : Event)
    (r : Report) : r.raiseWith cnt t e = r.raiseWith cnt s e := by
  have he : t.eventEntry e = s.eventEntry e := by simp only [State.eventEntry, h.tables]
  simp only [Report.raiseWith, he, Report.record_same h, Report.notifyAll_same h]

theorem Report.count_same {s t : State} (h : s.SameReporting t) (id : CounterId) (n : Nat) (r : Report) :
    r.count t id n = r.count s id n := by
  simp only [Report.count, Report.raiseWith_same h]

theorem Report.raise_same {s t : State} (h : s.SameReporting t) (e : Event) (r : Report) : r.raise t e = r.raise s e := by
  simp only [Report.raise, Report.raiseWith_same h, Report.count_same h]

theorem Report.notice_same {s t : State} (h : s.SameReporting t) (c : Chair) (n : Notice) (r : Report) :
    r.notice t c n = r.notice s c n := by
  simp only [Report.notice, Report.place, noticeFrame_same h, Report.count_same h, Report.raise_same h]

/-- A presence reload changes nothing that reporting reads. -/
theorem State.refreshPresence_same (s : State) (c : Chair) : s.SameReporting (s.refreshPresence c) := by
  refine ⟨?_, ?_, fun d => ?_⟩
  · unfold State.refreshPresence; split <;> rfl
  · unfold State.refreshPresence; split <;> rfl
  · unfold State.refreshPresence
    split
    · rfl
    · simp only [State.setChair, putAt_get]
      split
      · next h => subst h; rfl
      · rfl

/-- A notice that finds room is appended, with the next number of its chair's notice sequence (R140, R157). -/
theorem Report.notice_room {s : State} {r : Report} (h : r.notices.length < noticeCapacity) (c : Chair) (n : Notice) :
    r.notice s c n = { r with
      notices := r.notices ++ [noticeFrame s c n (r.noticeSeq[c] + 1)]
      noticeSeq := putAt r.noticeSeq c (r.noticeSeq[c] + 1) } := by
  simp [Report.notice, Report.takeNumber, Report.place, h]

/-! ## Places and the Free Chair List (R3, R45) -/

/-- A release of an absent chair. -/
theorem State.release_absent {s : State} {c : Chair} (h : s.chairs[c].status = .absent) :
    s.release c = s.setChair c { s.chairs[c] with engaged := none } := by
  simp only [State.release, h, if_true]

/-- A release of a present chair that is not available. -/
theorem State.release_unavailable {s : State} {c : Chair} (h : s.chairs[c].status ≠ .absent)
    (ha : s.chairs[c].available = false) :
    s.release c = s.setChair c { s.chairs[c] with status := .idle, engaged := none } := by
  simp only [State.release, h, if_false, State.setChair_chairs, putAt_same, ha, Bool.false_eq_true]

/-- A release of a present, available chair: it joins the tail of the list and the arbiter is called. -/
theorem State.release_available {s : State} {c : Chair} (h : s.chairs[c].status ≠ .absent)
    (ha : s.chairs[c].available = true) :
    s.release c = (s.setChair c { s.chairs[c] with status := .idle, engaged := none }).joinList c := by
  simp only [State.release, h, if_false, State.setChair_chairs, putAt_same, ha, if_true]

section release
variable (s : State) (c : Chair)

@[simp] theorem State.release_auth : (s.release c).auth = s.auth := by
  simp only [State.release]; repeat' split
  all_goals rfl

@[simp] theorem State.release_offerCounter : (s.release c).offerCounter = s.offerCounter := by
  simp only [State.release]; repeat' split
  all_goals rfl

@[simp] theorem State.release_callQueue : (s.release c).callQueue = s.callQueue := by
  simp only [State.release]; repeat' split
  all_goals rfl

@[simp] theorem State.release_windows : (s.release c).windows = s.windows := by
  simp only [State.release]; repeat' split
  all_goals rfl

@[simp] theorem State.release_builders : (s.release c).builders = s.builders := by
  simp only [State.release]; repeat' split
  all_goals rfl

@[simp] theorem State.release_rep : (s.release c).rep = s.rep := by
  simp only [State.release]; repeat' split
  all_goals rfl

@[simp] theorem State.release_beacons : (s.release c).beacons = s.beacons := by
  simp only [State.release]; repeat' split
  all_goals rfl

/-- A release writes its chair's record alone. -/
theorem State.release_chairs : ∃ r, (s.release c).chairs = putAt s.chairs c r := by
  by_cases h : s.chairs[c].status = .absent
  · exact ⟨_, by rw [State.release_absent h]; rfl⟩
  · cases ha : s.chairs[c].available
    · exact ⟨_, by rw [State.release_unavailable h ha]; rfl⟩
    · exact ⟨_, by rw [State.release_available h ha]; exact putAt_putAt _ _ _ _⟩

/-- A release leaves every other chair. -/
theorem State.release_other {d : Chair} (h : d ≠ c) : (s.release c).chairs[d] = s.chairs[d] := by
  obtain ⟨r, hr⟩ := s.release_chairs c
  simp only [hr, putAt_other _ _ (Ne.symm h)]

end release

/-! ## The end of an offer or a matching (R19, R68) -/

section endOffer
variable (s : State) (l : Loader) (c : Chair) (n : Word16) (w : OfferEnd) (go : State → State)

/-- The end of an offer: the chair's part, the loader's, the event, and the arbiter's call. -/
theorem State.endOffer_eq :
    s.endOffer l c n w go = ((go (s.offerGone c n)).raise .offerEnded (some l) (some c) w.detail).callWalk := rfl

@[simp] theorem State.offerGone_auth : (s.offerGone c n).auth = s.auth := by simp [State.offerGone]

@[simp] theorem State.offerGone_callQueue : (s.offerGone c n).callQueue = s.callQueue := by simp [State.offerGone]

@[simp] theorem State.offerGone_builders : (s.offerGone c n).builders = s.builders := by simp [State.offerGone]

@[simp] theorem State.offerGone_windows : (s.offerGone c n).windows = s.windows := by simp [State.offerGone]

@[simp] theorem State.endOffer_auth : (s.endOffer l c n w go).auth = (go (s.offerGone c n)).auth := by
  simp [State.endOffer_eq]

@[simp] theorem State.endOffer_callQueue :
    (s.endOffer l c n w go).callQueue = (go (s.offerGone c n)).callQueue := by simp [State.endOffer_eq]

@[simp] theorem State.endOffer_builders :
    (s.endOffer l c n w go).builders = (go (s.offerGone c n)).builders := by simp [State.endOffer_eq]

@[simp] theorem State.endOffer_windows :
    (s.endOffer l c n w go).windows = (go (s.offerGone c n)).windows := by simp [State.endOffer_eq]

@[simp] theorem State.endOffer_walkCalled : (s.endOffer l c n w go).walkCalled = true := rfl

end endOffer

@[simp] theorem State.endMatching_auth (s : State) (l c) : (s.endMatching l c).auth = s.auth := by
  simp [State.endMatching]

@[simp] theorem State.endMatching_callQueue (s : State) (l c) : (s.endMatching l c).callQueue = s.callQueue := by
  simp [State.endMatching]

@[simp] theorem State.endMatching_windows (s : State) (l c) :
    (s.endMatching l c).windows = putAt s.windows l [] := by
  simp [State.endMatching, State.clearMatch, State.setWindow]

@[simp] theorem State.endMatching_builders (s : State) (l c) :
    (s.endMatching l c).builders = putAt s.builders l s.builders[l].candEmptied := by
  simp [State.endMatching, State.clearMatch, State.setBuilder]

/-! ## The authority record of one loader -/

/-- Entering FREE, or CALLING where the accepted request is a call (R11). -/
theorem State.enterFree_auth (s : State) (l : Loader) :
    (s.enterFree l).auth = putAt s.auth l { s.auth[l] with
      state := if s.status[l].accepted.isCall then .calling s.timer.number else .free } := by
  simp only [State.enterFree]
  split
  · next h => simp only [State.setAuth_status] at h; simp [-Fin.getElem_fin, h]
  · next h => simp only [State.setAuth_status] at h; simp [-Fin.getElem_fin, h]

/-- Returning a loader (R20) writes its record alone, with the epoch kept. -/
theorem State.returnLoader_auth (s : State) (l : Loader) :
    ∃ a, (s.returnLoader l).auth = putAt s.auth l { s.auth[l] with state := a } := by
  simp only [State.returnLoader]
  repeat' split
  · exact ⟨_, rfl⟩
  · exact ⟨_, rfl⟩
  · exact ⟨_, State.enterFree_auth s l⟩
  · exact ⟨_, State.enterFree_auth s l⟩

/-- Making an offer writes the loader's record (R14). -/
@[simp] theorem State.makeOffer_auth (s : State) (l : Loader) (c : Chair) (o : Option Chair) :
    (s.makeOffer l c o).auth = putAt s.auth l { s.auth[l] with
      state := .offered s.auth[l].state.holder c s.auth[l].state.offerOrigin (s.offerCounter + 1) o
        s.tables.device.offerTimeout } := by
  simp only [State.makeOffer, State.raise_auth, State.notice_auth, State.engage_auth, State.setAuth_auth, State.dequeue_auth]

@[simp] theorem State.makeOffer_callQueue (s : State) (l : Loader) (c : Chair) (o : Option Chair) :
    (s.makeOffer l c o).callQueue = s.callQueue.filter (·.loader ≠ l) := rfl

/-- Beginning a matching writes the loader's record (R16, R22, R24, R27). -/
@[simp] theorem State.beginMatching_auth (s : State) (l : Loader) (h : Option Chair) (c : Chair) (o : Origin)
    (r : Option Chair) :
    (s.beginMatching l h c o r).auth =
      putAt s.auth l { s.auth[l] with state := .matching h c o r s.tables.device.matchTimeout } := by
  simp [State.beginMatching]

/-! ## Standing (R8, R9) -/

@[simp] theorem State.noticeIfPresent_auth (s : State) (c n) : (s.noticeIfPresent c n).auth = s.auth := by
  simp only [State.noticeIfPresent]; repeat' split
  all_goals simp

@[simp] theorem State.reportStand_auth (s : State) (l h c) : (s.reportStand l h c).auth = s.auth := by
  simp only [State.reportStand]; split <;> simp

/-- The holder's part of a stand (R8 part 1): the epoch advances exactly when a holder is removed. -/
theorem State.standHolder_auth (s : State) (l : Loader) (cause : Cause) :
    (s.standHolder l cause).auth =
      if s.auth[l].state.holder.isSome ∧ cause.retains = false then
        putAt s.auth l { s.auth[l] with epoch := s.auth[l].epoch + 1 }
      else s.auth := by
  simp only [State.standHolder]
  cases h : s.auth[l].state.holder <;> cases hr : cause.retains <;> simp

@[simp] theorem State.standParties_auth (s : State) (l : Loader) : (s.standParties l).auth = s.auth := by
  unfold State.standParties
  split <;> simp

/-- Entry into STANDING (R8): the loader's record and its epoch; every other record is kept. -/
theorem State.standEntry_auth (s : State) (l : Loader) (cause : Cause) :
    (s.standEntry l cause).auth = putAt s.auth l
      ⟨.standing (if cause.retains then s.auth[l].state.holder else none) cause,
        if s.auth[l].state.holder.isSome ∧ cause.retains = false then s.auth[l].epoch + 1 else s.auth[l].epoch⟩ := by
  simp only [State.standEntry, State.reportStand_auth, State.setAuth_auth, State.standParties_auth,
    State.standHolder_auth]
  split <;> simp

/-- A stand cause that reaches a loader (R8, R9) writes its record alone. -/
theorem State.stand_auth (s : State) (l : Loader) (cause : Cause) :
    ∃ r, (s.stand l cause).auth = putAt s.auth l r := by
  unfold State.stand
  split
  · split
    · exact ⟨_, by rw [State.reportStand_auth]; rfl⟩
    · exact ⟨s.auth[l], (putAt_self _ _).symm⟩
  · exact ⟨_, s.standEntry_auth l cause⟩

theorem State.stand_auth_other (s : State) {l k : Loader} (cause : Cause) (h : k ≠ l) :
    (s.stand l cause).auth[k] = s.auth[k] := by
  obtain ⟨r, hr⟩ := s.stand_auth l cause
  simp only [hr, putAt_other _ _ (Ne.symm h)]

/-- A retained holder dropped (R5): the epoch advances and the cause stays. -/
theorem State.dropRetained_auth (s : State) (l : Loader) :
    (s.dropRetained l).auth = match s.auth[l].state with
      | .standing (some _) cause => putAt s.auth l ⟨.standing none cause, s.auth[l].epoch + 1⟩
      | _ => s.auth := by
  unfold State.dropRetained
  cases h : s.auth[l].state
  case standing r cause => cases r <;> simp [-Fin.getElem_fin, h]
  all_goals rfl

/-! ## The walk (R52-R54) -/

/-- One entry of the walk leaves every loader but its own. -/
theorem State.walkOne_auth_other (s : State) (e : CallEntry) {k : Loader} (h : k ≠ e.loader) :
    (s.walkOne e).auth[k] = s.auth[k] := by
  unfold State.walkOne
  split
  · simp only [State.makeOffer_auth, putAt_other _ _ (Ne.symm h)]
  · rfl

/-- The walk leaves every loader that is not in the Call Queue. -/
theorem State.walk_auth_other (s : State) {k : Loader} (h : ∀ e ∈ s.callQueue, e.loader ≠ k) :
    s.walk.auth[k] = s.auth[k] := by
  have fold : ∀ (q : List CallEntry) (u : State), (∀ e ∈ q, e.loader ≠ k) →
      (q.foldl State.walkOne u).auth[k] = u.auth[k] := by
    intro q
    induction q with
    | nil => intro u _; rfl
    | cons e q ih =>
      intro u hq
      rw [List.foldl_cons, ih _ fun x hx => hq x (List.mem_cons_of_mem _ hx)]
      exact State.walkOne_auth_other u e (Ne.symm (hq e List.mem_cons_self))
  exact fold s.callQueue s h

/-- The end of an event leaves every loader that is not in the Call Queue. -/
theorem State.finish_auth_other (s : State) {k : Loader} (h : ∀ e ∈ s.callQueue, e.loader ≠ k) :
    s.finish.auth[k] = s.auth[k] := by
  obtain ⟨-, hf⟩ | ⟨-, -, hf⟩ | ⟨-, -, hf⟩ := s.finish_cases
  · rw [hf, State.setBeacons_auth]
  · rw [hf, State.setBeacons_auth]
  · rw [hf, State.setBeacons_auth]
    exact s.walk_auth_other h

/-! ## Events that a disable of the same instant leaves nothing to do -/

theorem State.deadline_disabled {s : State} {l : Loader} (h : s.enabled l = false) : s.deadline l = s := by
  simp [State.deadline, h]

theorem State.linkDownTest_disabled {s : State} {l : Loader} (h : s.enabled l = false) : s.linkDownTest l = s := by
  simp [State.linkDownTest, h]

theorem State.linkUpTest_disabled {s : State} {l : Loader} (h : s.enabled l = false) : s.linkUpTest l = s := by
  simp [State.linkUpTest, h]

theorem State.settleLine_disabled {s : State} {i : Line} (h : s.tables.lines[i].enabled = false) : s.settleLine i = s := by
  rw [State.settleLine, if_neg (by rw [h]; exact Bool.false_ne_true)]

/-! ## Takes and settling -/

/-- What taking a frame keeps, the transmitter's takes keep. -/
theorem State.takes_keeps (P : State → Prop) (ht : ∀ s, P s → P s.takeFrame.finish) (s : State) (h : P s) : P s.takes := by
  have all : ∀ n s, P s → P (State.takesN n s) := by
    intro n
    induction n with
    | zero => intro s hs; exact hs
    | succ n ih =>
      intro s hs
      simp only [State.takesN]
      split
      · exact ih _ (ht _ hs)
      · exact hs
  exact all _ s h

/-- What taking an event of the present instant and taking a frame keep, taking events one by one keeps. -/
theorem State.settleN_keeps (P : State → Prop) (hc : ∀ s n, P s → P { s with choices := n })
    (hd : ∀ s d, P s → P (s.takeDue d)) (ht : ∀ s, P s → P s.takeFrame.finish) (events : State → List Due) (n : Nat)
    (s : State) (h : P s) : P (State.settleN events n s) := by
  induction n generalizing s with
  | zero => exact s.takes_keeps P ht h
  | succ n ih =>
    have hs := s.takes_keeps P ht h
    simp only [State.settleN]
    split
    · exact hs
    · apply ih
      rcases events s.takes with _ | ⟨d, _ | ⟨d', rest⟩⟩
      · exact hs
      · exact hd _ _ hs
      · exact hd _ _ (hc _ _ hs)

theorem State.settle_keeps (P : State → Prop) (hc : ∀ s n, P s → P { s with choices := n })
    (hd : ∀ s d, P s → P (s.takeDue d)) (ht : ∀ s, P s → P s.takeFrame.finish) (s : State) (h : P s) : P s.settle :=
  State.settleN_keeps P hc hd ht _ _ s h

theorem State.conclude_keeps (P : State → Prop) (hc : ∀ s n, P s → P { s with choices := n })
    (hd : ∀ s d, P s → P (s.takeDue d)) (ht : ∀ s, P s → P s.takeFrame.finish) (s : State) (h : P s) : P s.conclude :=
  State.settleN_keeps P hc hd ht _ _ s h

end Sys2Proof.Machine
end

