-- ==== Sys2Proof/Tests/Slice0.lean ====
section
/-! SUPPORT. Tests: the checks of WellFormed refuse an ill-formed term each; the worked figures of the spec; one step of the
commands; and, for every statement with hypotheses, states and operands that meet them (`witness_<statement>`). Expected
values come from the spec's tables and worked examples, named in each docstring. -/

open Sys2Proof Sys2Proof.Machine

-- One declaration at a time: the kernel checks below would else each hold a thread with its stack.
set_option Elab.async false

namespace Sys2Proof.Tests

/-! ## States for the tests -/

/-- Chairs 0-7 at stations 0x0110-0x0117, chair 6 a supervisor; loaders 0 and 1 enabled on Level Port A; one management
station. -/
def demoTables : Tables :=
  { Tables.empty with
    mgmt := #v[⟨true, 0x0F01⟩, ⟨false, 0xFFFD⟩]
    chairs := tabulate fun c =>
      ⟨BitVec.ofNat 16 (0x0110 + c.val), decide (c = 6), true, true, if c = 7 then 0 else 0xFFFF, 0x00FF⟩
    loaders := tabulate fun l => { LoaderEntry.empty l with
      enabled := decide (l.val < 2)
      throttle := ⟨-1600, 1600, 200, 120⟩ } }

/-- The place a chair has in an authority state. -/
def placeIn (a : AuthState) (c : Chair) : Option ChairStatus :=
  if a.holder = some c then some .holding
  else if a.offeredChair = some c then some .offered
  else if a.candidate = some c then some .candidate
  else none

/-- Loader 0 in the given authority state at epoch 9, its link UP; every chair present and available. -/
def demo (a : AuthState) : State :=
  let s := State.powerOnValues demoTables false ⟨.idle, false⟩ (Vector.replicate 8 .opened) (Vector.replicate 3 true)
  { s with
    auth := putAt s.auth 0 ⟨a, 9⟩
    status := putAt s.status 0 { LoaderStatus.initial with linkUp := true }
    chairs := tabulate fun c => ⟨(placeIn a c).getD .idle, true, 0, 20, 0, (placeIn a c).map fun _ => 0, none⟩
    freeList := allChairs.filter fun c => (placeIn a c).isNone
    callQueue := match a with
      | .calling w => [⟨0, 3, w⟩]
      | _ => [] }

/-- A chair's header about a loader. -/
def hdr (c : Chair) (l : Byte) (epoch : Byte) : Header := ⟨0, BitVec.ofNat 16 (0x0110 + c.val), 1, l, epoch, 5⟩

/-- The management station's header. -/
def mgmtHdr : Header := ⟨0, 0x0F01, 1, 0xFF, 0, 5⟩

/-- The next state, where there is one. -/
def stateAfter (i : Instr) (s : State) : State :=
  match exec i s with
  | .next t => t
  | _ => s

/-- A state in which one event of the present instant waits. -/
def waiting (d : Due) (a : AuthState) : State := { demo a with due := [d] }

/-- A COMMAND payload of zeros. -/
def still : CommandPayload := ⟨0, 0, 0, 0, 0, 0, 0xA5, 0⟩

/-- A status frame's header from loader 0. -/
def fromLoader0 : Header := ⟨0, 0xFFE0, 1, 0, 0, 5⟩

/-- A STATUS payload with a mode, a request and a zone. -/
def report (mode request zone : Byte) : StatusPayload := ⟨mode, request, zone, 0, Vector.replicate 8 0⟩

/-! ## WellFormed -/

theorem test_wf_refuses_long_read : (Instr.loadEnd (.bytes (List.replicate 1039 0))).wf = false := by decide +kernel

theorem test_wf_refuses_long_save_read : (Instr.saveEnd (.bytes (List.replicate 1039 0))).wf = false := by decide +kernel

theorem test_wf_refuses_repeated_entry : (Instr.tableApplied [.device, .device] true).wf = false := by decide +kernel

theorem test_wf_refuses_long_request : (Instr.take (hdr 0 0 0) 1 (List.replicate 254 0)).wf = false := by decide +kernel

theorem test_wf_refuses_long_management_data : (Instr.ident mgmtHdr 1 0 0 (List.replicate 252 0)).wf = false := by
  decide +kernel

theorem test_wf_refuses_known_chair_code : (Instr.unknownChairRequest (hdr 0 0 0) 0x10 1 []).wf = false := by
  decide +kernel

theorem test_wf_refuses_known_operation : (Instr.unknownOperation mgmtHdr 0x01 1 0 0 []).wf = false := by decide +kernel

theorem test_wf_accepts_full_request : (Instr.take (hdr 0 0 0) 1 (List.replicate 253 0)).wf = true := by decide +kernel

/-! ## Worked figures of the spec -/

/-- R138: over the characters "123456789" the check word is 0x29B1. -/
theorem test_check_word : checkWord [0x31, 0x32, 0x33, 0x34, 0x35, 0x36, 0x37, 0x38, 0x39] = 0x29B1 := by decide +kernel

/-- 4.10, Governor and clamp: rows of the table. -/
theorem test_governor :
    govern 192 1201 = 900 ∧ govern 192 (-1201) = -900 ∧ govern 64 1201 = 300 ∧ govern 1 (-2047) = -7
      ∧ AxisLimits.clamp ⟨-1600, 1600, 1, 0⟩ (govern 255 2047) = 1600 := by decide +kernel

/-- 4.10, Slew: rows of the table. -/
theorem test_slew :
    slew 200 600 900 = 800 ∧ slew 200 300 (-600) = 100 ∧ slew 200 (-200) 0 = 0 ∧ slew 4095 (-2047) 2047 = 2047
      ∧ slew 1 2047 (-2047) = 2046 := by decide +kernel

/-- 4.10, Reading chair values: rows of the table. -/
theorem test_clamp_axis : clampAxis 2048 = 2047 ∧ clampAxis (-2048) = -2047 ∧ clampAxis (-32768) = -2047 := by decide +kernel

/-- 6.13: the three draws at the boundary of cycle 4096. -/
theorem test_phase_generator :
    phaseStep phaseSeed = 22128 ∧ phaseStep 22128 = 43832 ∧ phaseStep 43832 = 21916 ∧ 43832 % 5 = 2 ∧ 21916 % 3 = 1 := by
  decide +kernel

/-- 00_scope.md: b is newer than a when (b - a) modulo 65536 lies in 1-32767. -/
theorem test_newer : newer 0 65535 = true ∧ newer 32767 0 = true ∧ newer 32768 0 = false ∧ newer 5 5 = false := by
  decide +kernel

/-- R148: bytes 4 to 1035 of the image are the entries, 1032 bytes. -/
theorem test_image_body_length : Tables.empty.encode.length = 1032 := by decide +kernel

/-- R147: a LOADERS entry's 38 bytes. -/
theorem test_loader_entry :
    (LoaderEntry.empty 3).encode.length = 38 ∧ LoaderEntry.decode (LoaderEntry.empty 3).encode = some (LoaderEntry.empty 3) := by
  decide +kernel

/-- R161, R162: the DEVICE defaults pass the value checks, and a cycle length of 9 ms does not. -/
theorem test_device_entry :
    DeviceEntry.decode DeviceEntry.default.encode = some .default
      ∧ DeviceEntry.decode { DeviceEntry.default with period := 9 }.encode = none := by decide +kernel

/-! ## One step of the commands -/

/-- R22: an operator's TAKE of a FREE loader. -/
theorem test_take : (stateAfter (.take (hdr 0 0 0) 1 []) (demo .free)).auth[0] = ⟨.matching none 0 .direct none 100, 9⟩ := by
  decide +kernel

/-- R24: a supervisor's TAKE of a standing loader drops its retained holder, with the epoch advanced. -/
theorem test_take_supervisor :
    (stateAfter (.take (hdr 6 0 0) 1 []) (demo (.standing (some 0) .stop))).auth[0]
      = ⟨.matching none 6 .direct none 100, 10⟩ := by decide +kernel

/-- R14, R15: a holder offers its loader. -/
theorem test_offer :
    (stateAfter (.offer (hdr 0 0 0) 1 2 []) (demo (.held 0))).auth[0] = ⟨.offered (some 0) 2 .direct 1 (some 0) 150, 9⟩ := by
  decide +kernel

/-- R16. -/
theorem test_accept :
    (stateAfter (.accept (hdr 2 0 0) 1 7 []) (demo (.offered (some 0) 2 .direct 7 (some 0) 4))).auth[0]
      = ⟨.matching (some 0) 2 .direct (some 0) 100, 9⟩ := by decide +kernel

/-- R17, R20: a declined offer returns to its holder. -/
theorem test_decline :
    (stateAfter (.decline (hdr 2 0 0) 1 7 []) (demo (.offered (some 0) 2 .direct 7 (some 0) 4))).auth[0]
      = ⟨.held 0, 9⟩ := by decide +kernel

/-- R21. -/
theorem test_cancel :
    (stateAfter (.cancel (hdr 2 0 0) 1 []) (demo (.matching (some 0) 2 .direct (some 0) 4))).auth[0] = ⟨.held 0, 9⟩ := by
  decide +kernel

/-- R25. -/
theorem test_release :
    (stateAfter (.releaseAuto (hdr 0 0 0) 1 []) (demo (.held 0))).auth[0] = ⟨.releasing 100, 10⟩
      ∧ (stateAfter (.releaseStand (hdr 0 0 0) 1 []) (demo (.held 0))).auth[0] = ⟨.standing none .operator, 10⟩ := by
  decide +kernel

/-- R27: the retained holder recovers its loader; the epoch is unchanged. -/
theorem test_recover :
    (stateAfter (.recover (hdr 0 0 0) 1 []) (demo (.standing (some 0) .stale))).auth[0]
      = ⟨.matching none 0 .direct none 100, 9⟩ := by decide +kernel

/-- R8, R28: STOP keeps the holder as retained holder. -/
theorem test_stop :
    (stateAfter (.stopLoader (hdr 2 0 0) 1 0 []) (demo (.held 0))).auth[0] = ⟨.standing (some 0) .stop, 9⟩ := by
  decide +kernel

/-- 2.7, cycle 8205, and R19: a call that ends while OFFERED raises CALL_WITHDRAWN (2) ahead of OFFER_ENDED (4). -/
theorem test_offer_end_order :
    let s := demo (.offered none 2 (.call 3) 4 none 9)
    let s := s.setStatus 0 { s.status[0] with accepted := .none }
    (s.requestChanged 0).rep.log.map (·.event.name.code.val) = [2, 4] := by decide +kernel

/-- R27: a loader that enters FREE follows R11, here into the Call Queue (CALL_QUEUED, 1), and then RECOVERED (19) is raised. -/
theorem test_recovered_order :
    let s := demo (.standing none .operator)
    let s := s.setStatus 0 { s.status[0] with accepted := .call }
    ((s.recoverRequest 2 0 1 []).rep.log.map (·.event.name.code.val)) = [1, 19] := by decide +kernel

/-- R39, R40: a holder that leaves loses its loader, with the epoch advanced. -/
theorem test_leave :
    (stateAfter (.leave (hdr 0 0 0) 1 []) (demo (.held 0))).auth[0] = ⟨.standing none .chairLost, 10⟩ := by decide +kernel

/-- R13: the first failing check gives the reason; NOT_PERMITTED is 0x02 (R144). -/
theorem test_refused :
    (stateAfter (.take (hdr 7 0 0) 0x0102 []) (demo .free)).rep.notices.map (·.payload.take 8)
      = [[0x02, 0x01, 0x02, 0, 7, 9, 0x02, 0]] := by decide +kernel

/-- R73: a holder frame with the loader's epoch fills the mailbox; R72: its axis is clamped and its deadman read. -/
theorem test_command :
    (stateAfter (.command (hdr 0 0 9) ⟨3000, 0, 0, 0, 1, 0, 0xA5, 0⟩) (demo (.held 0))).builders[0].holder
      = some ⟨⟨2047, 0, 0, 0⟩, .forward, 0, true, 5⟩ := by decide +kernel

/-- R64: a grant of loader 0, offered by its holder 0, to chair 2 at epoch 10 sends GRANT (0x04) and then LOST (0x05) with reason
TRANSFERRED (0x27), and one GRANTS is counted. -/
theorem test_grant_told :
    let s := demo (.matching (some 0) 2 .direct (some 0) 50)
    let t := stateAfter (.command (hdr 2 0 10) still) (s.setWindow 0 (List.replicate 6 true))
    t.rep.notices.map (fun f => (f.header.destination, f.payload.take 7))
        = [(0x0112, [0x04, 0, 0, 0, 2, 10, 0]), (0x0110, [0x05, 0, 0, 0, 2, 10, 0x27])]
      ∧ t.rep.loaderCounts[0][6] = 1 := by decide +kernel

/-- R8 part 6: STOP by chair 2 answers it with DONE (0x01) and sends the holder STAND (0x09) with the cause STOP (0x06). -/
theorem test_stop_told :
    (stateAfter (.stopLoader (hdr 2 0 0) 1 0 []) (demo (.held 0))).rep.notices.map
        (fun f => (f.header.destination, f.payload.take 7))
      = [(0x0112, [0x01, 0, 1, 0, 2, 9, 0]), (0x0110, [0x09, 0, 0, 0, 0, 9, 0x06])] := by decide +kernel

/-- R86, R141: the stand frame of a loader that stands for START. -/
theorem test_slot :
    (stateAfter (.slotEvent .a 0) (demo (.standing none .start))).lSending[0].map (·.frame.payload)
      = some [0, 0, 0, 0, 0, 0, 0, 0, 0, 0, 0, 0x01] := by decide +kernel

/-- R89, R96: slot 0 comes ahead of its cycle start or after it, here one with a marked reset: ahead of it the frame is built
from the record as it was (NO_OPERATOR), and after it, the whole of its event taken, it is a stand frame with cause RESET (0x0A). -/
theorem test_slot_and_cycle_start :
    let s := demo .free
    let s := { s with agent := { s.agent with resetMark := true } }
    (stateAfter (.slotEvent .a 16) s).lSending[0].map (·.frame.header.flags) = some 0x02
      ∧ (stateAfter (.slotEvent .a 0) (stateAfter (.cycleStart true) s)).lSending[0].map (·.frame.payload.getLast?)
          = some (some 0x0A) := by decide +kernel

/-- R52, R166: a boundary at which chair 2's presence expires, so that loader 0 is queued again, and a write by which chair 0 takes no
calls is applied, in either order: the one walk at its end offers the loader to chair 1. Until then no offer is made and the
transmitter takes nothing (R158). -/
theorem test_boundary_walk :
    let s := demo (.offered none 2 (.call 7) 4 none 9)
    let s := s.setStatus 0 { s.status[0] with accepted := .call }
    let s := { s.setChair 2 { s.chairs[2] with presence := 0 } with
      due := [.presenceExpiry 2, .tableApplied]
      writes := { s.writes with chairs := putAt s.writes.chairs 0 (some { s.tables.chairs[0] with takesCalls := false }) } }
    let expired := stateAfter (.presenceExpiry 2) s
    let applied := stateAfter (.tableApplied [] true) s
    expired.auth[0].state = .calling 7 ∧ (stateAfter .sPortTake expired).sending = none
      ∧ (stateAfter (.tableApplied [] true) expired).auth[0].state = .offered none 1 (.call 7) 1 none 150
      ∧ applied.auth[0].state = .offered none 2 (.call 7) 4 none 9
      ∧ (stateAfter (.presenceExpiry 2) applied).auth[0].state = .offered none 1 (.call 7) 1 none 150 := by decide +kernel

/-- R98: a slot 0 ahead of its cycle start reads position 15. R97: its deadline is half the new period after it when the
boundary then applies 10 ms for 20 ms (sixteenths of a millisecond). -/
theorem test_early_slot :
    let t := stateAfter (.slotEvent .a 16) (demo .free)
    t.timer.position = 15 ∧ t.deadlines[0] = some ⟨.a, 320, 480⟩
      ∧ (({ t with timer := t.timer.nextCycle }.applyDevice { DeviceEntry.default with period := 10 }).deadlines[0]
          = some ⟨.a, 320, 400⟩) := by decide +kernel

/-- 5.7: loader 3's slot 5 has its deadline at position 13, 16.25 ms into a cycle of 20 ms. -/
theorem test_deadline_position :
    (stateAfter (.statusDeadline ⟨0, none⟩)
      { demo .free with deadlines := putAt (Vector.replicate 16 none) 0 (some ⟨.a, 100, 260⟩) }).timer.position = 13 := by decide +kernel

/-- 5.7, Shortening the period: loader 7's slot 12 falls 7.5 ms into the 10 ms cycle, at position 12, and brings forward a
deadline due at 10 ms; taken ahead of the slot event it falls there, and without one at its own instant. -/
theorem test_deadline_brought_forward :
    let s := demo .free
    let s := { s with
      timer := ⟨1024, 0, 10, 0, 640, 640⟩
      tables := { s.tables with loaders := putAt s.tables.loaders 7 { LoaderEntry.empty 7 with enabled := true, slot := 12 } }
      deadlines := putAt s.deadlines 7 (some ⟨.a, 480, 800⟩) }
    let t := stateAfter (.statusDeadline ⟨7, some 12⟩) s
    let u := stateAfter (.statusDeadline ⟨7, none⟩) s
    t.timer.position = 12 ∧ t.timer.now = 640 + 120 ∧ u.timer.now = 640 + 160 := by decide +kernel

/-- R97, R98: loader 7, moved from slot 13 to slot 0 at the boundary of cycle 1024 after slot 0, with the period cut to 10 ms: its
next slot event is slot 0 of cycle 1025, and a deadline ahead of it and of that cycle start is stamped position 15. -/
theorem test_deadline_of_moved_loader :
    let s := demo .free
    let s := { s with
      timer := ⟨1024, 0, 10, 0, 640, 640⟩
      tables := { s.tables with loaders := putAt s.tables.loaders 7 { LoaderEntry.empty 7 with enabled := true, slot := 0 } }
      deadlines := putAt s.deadlines 7 (some ⟨.a, 520, 840⟩) }
    (stateAfter (.statusDeadline ⟨7, some 16⟩) s).timer = ⟨1024, 15, 10, 0, 640, 800⟩ := by decide +kernel

/-- R97: a loader moved from slot 0 of A to slot 0 of B after A's slot event has B's at the same instant, ahead of which its
pending deadline may fall there; one that has had its slot there has its next a cycle later. -/
theorem test_deadline_at_other_port :
    let s := demo .free
    let falls (port : LevelPort) : Nat := (stateAfter (.statusDeadline ⟨0, some 0⟩) { s with
      tables := { s.tables with loaders := putAt s.tables.loaders 0 { s.tables.loaders[0] with port := .b } }
      deadlines := putAt s.deadlines 0 (some ⟨port, 0, 160⟩) }).timer.now
    falls .a = 0 ∧ falls .b = 160 := by decide +kernel

/-- R84, R89: a deadline that takes the link DOWN ahead of the loader's slot, which falls at the same instant: the slot's frame
is a stand frame with LINK_ALARM and the cause LINK. -/
theorem test_deadline_before_slot :
    let t := stateAfter (.slotEvent .a 0) { demo (.held 0) with due := [.linkDown 0, .statusDeadline 1] }
    t.lSending[0].map (fun o => (o.frame.header.flags, o.frame.payload.getLast?)) = some (0x09, some 0x04)
      ∧ t.due = [.statusDeadline 1] := by decide +kernel

/-- R126: a change at the instant of a step, ahead of it, takes the count of that step, which measures an elapsed time of 0; the
step measures 1 for a change of the millisecond before it. -/
theorem test_change_ahead_of_step :
    let s := demo .free
    let s := { s with tables := { s.tables with lines := putAt s.tables.lines 2 ⟨true, true, true, 0x03, 1⟩ } }
    (stateAfter .millisecondStep (stateAfter (.lineLevelChange 2 ⟨.closed, true⟩) s)).due = []
      ∧ (stateAfter .millisecondStep (stateAfter (.lineLevelChange 2 ⟨.closed, false⟩) s)).due = [.lineSettle 2] := by
  decide +kernel

/-- R94: the timer at a cycle start. -/
theorem test_cycle_start : (stateAfter (.cycleStart true) (demo .free)).timer = ⟨1, 0, 20, 0, 320, 320⟩ := by decide +kernel

/-- R11, R47: a call becomes accepted with the seventh equal report of ten (Kr 7) and queues a FREE loader; the walk then
offers it to the first chair of the list. -/
theorem test_status_call :
    let s := demo .free
    let s := s.setStatus 0 { s.status[0] with filter := List.replicate 6 .call }
    ((stateAfter (.status .a ⟨0, 0xFFE0, 1, 0, 0, 1⟩ ⟨2, 1, 0, 0, Vector.replicate 8 0⟩) s).auth[0].state
      = .offered none 0 (.call 0) 1 none 150) := by decide +kernel

/-- R176: ATTN_CLEAR turns the line off. -/
theorem test_attn_clear :
    let s := demo .free
    (stateAfter (.attnClear mgmtHdr 1 0 0 []) { s with rep := { s.rep with attn := true } }).rep.attn = false := by
  decide +kernel

/-- R145, R146: IDENT's response. -/
theorem test_ident :
    ((stateAfter (.ident mgmtHdr 0x0A0B 3 4 []) (demo .free)).responses.map (·.payload))
      = [[0x01, 0x0A, 0x0B, 3, 4, 0x00, 0x48, 0x16, 0xFF, 0xFE, 0, 0, 0, 0, 0, 0]] := by decide +kernel

/-- R158: the idle transmitter takes the oldest notice with the marker in force. -/
theorem test_take_frame :
    let s := demo .free
    let t := s.doneNone 0 1
    (stateAfter .sPortTake t).sending.map (·.marker) = some 0x4B := by decide +kernel

/-- R158: the take follows the event that placed the frames. While the S-port is DOWN the next event finds the queue empty and
loses no notice; while it is UP one notice has begun to leave. -/
theorem test_take_follows :
    let s := demo (.offered none 2 (.call 7) 4 none 0)
    let s := { s with
      due := [.offerExpiry 0], rep := { s.rep with notices := List.replicate 32 ⟨0x41, mgmtHdr, []⟩ } }
    let t := stateAfter (.offerExpiry 0) { s with portUp := putAt s.portUp 0 false }
    let u := stateAfter (.offerExpiry 0) s
    t.rep.notices.length = 1 ∧ t.rep.deviceCounts[10] = 0 ∧ u.rep.notices.length = 32 ∧ u.sending.isSome = true
      ∧ u.rep.deviceCounts[10] = 0 := by decide +kernel

/-! ## Witnesses: the start and the tables -/

theorem witness_StepRunsFrontCommand :
    ({ demo .free with pending := [.millisecondStep, .sPortTake] } : State).pending = .millisecondStep :: [.sPortTake] := by
  decide +kernel

/-- The image of the empty tables, read back piece by piece (R148). -/
theorem image_length : Tables.empty.image.length = 1038 := by decide +kernel
theorem image_head : Tables.empty.image.take 4 = bytes16 imageCode ++ bytes16 imageBody := by decide +kernel
theorem image_device : DeviceEntry.decode ((Tables.empty.image.drop 4).take 18) = some Tables.empty.device := by
  decide +kernel
theorem image_mgmt : imageTable Tables.empty.image 22 3 2 MgmtEntry.decode = some Tables.empty.mgmt := by decide +kernel
theorem image_chairs : imageTable Tables.empty.image 28 8 8 ChairEntry.decode = some Tables.empty.chairs := by
  decide +kernel
theorem image_loaders : imageTable Tables.empty.image 92 38 16 LoaderEntry.decode = some Tables.empty.loaders := by
  decide +kernel
theorem image_zones : imageTable Tables.empty.image 700 3 8 ZoneEntry.decode = some Tables.empty.zones := by decide +kernel
theorem image_lines : imageTable Tables.empty.image 724 3 8 LineEntry.decode = some Tables.empty.lines := by decide +kernel
theorem image_rules : imageTable Tables.empty.image 748 14 16 RuleEntry.decode = some Tables.empty.rules := by decide +kernel
theorem image_events : imageTable Tables.empty.image 972 1 64 EventEntry.decode = some Tables.empty.events := by
  decide +kernel
theorem image_distinct : loadersDistinct Tables.empty.loaders = true := by decide +kernel

/-- The image of the empty tables is a good image (R148, R171). -/
theorem test_good_image : judgeImage (.bytes Tables.empty.image) = .inl .empty := by
  have hc : checkWord Tables.empty.image = 0 := checkWord_closed _
  have ht : Tables.empty.image.take imageLength = Tables.empty.image :=
    List.take_of_length_le (by rw [image_length]; decide)
  have ho : Tables.ofImage Tables.empty.image = some .empty := by
    simp only [Tables.ofImage, image_device, image_mgmt, image_chairs, image_loaders, image_zones, image_lines,
      image_rules, image_events, image_distinct, if_true]
  have hl : ¬ Tables.empty.image.length < imageLength := by rw [image_length]; decide
  simp only [judgeImage, ht, hl, if_false, image_head, hc, ho, ne_eq, not_true_eq_false]

theorem witness_LoadEndStartsThePart :
    State.reset.config.phase = .loading ∧ State.reset.config.cfgoff = false
      ∧ judgeImage (.bytes Tables.empty.image) = .inl .empty ∧ judgeImage .noAnswer = .inr 1
      ∧ (State.reset.powerOn true).config = ⟨.loading, true⟩ :=
  ⟨rfl, rfl, test_good_image, rfl, rfl⟩

theorem witness_ImageRoundTrip : Tables.empty.Valid ∧ demoTables.Valid := by
  and_intros <;> decide +kernel

/-- A part that is saving. -/
def demoSaving : State := { demo .free with config := ⟨.saving demoTables, false⟩ }

theorem witness_SaveEndReportsTheSave :
    demoSaving.Ready ∧ demoSaving.config.phase = .saving demoTables
      ∧ 0 < [(0 : Byte)].length ∧ [(0 : Byte)].length ≤ imageLength
      ∧ [(0 : Byte)].take 0 = demoTables.image.take 0 ∧ [(0 : Byte)][0]? ≠ demoTables.image[0]? := by
  and_intros <;> decide +kernel

theorem witness_CycleStartStepsTheCycle :
    (demo (.held 0)).ReadyAt 320
      ∧ State.ReadyAt { demo (.held 0) with timer := ⟨15, 15, 20, 19, 0, 320⟩, due := [.statusDeadline 0] } 320 := by
  and_intros <;> decide +kernel

theorem witness_BoundaryAppliesEveryWrite :
    let s := stateAfter (.cycleStart true) { demo .free with timer := ⟨15, 0, 20, 0, 0, 0⟩ }
    Due.tableApplied ∈ s.due
      ∧ (stateAfter (.tableApplied [] true) (waiting .tableApplied .free)).cycleStarting = false
      ∧ (stateAfter (.tableApplied [] true) { demo .free with due := [.tableApplied, .authorityReset] }).cycleStarting = true := by
  and_intros <;> decide +kernel

theorem witness_DisableStandsTheLoader :
    (demo (.held 0)).enabled 0 = true ∧ (LoaderEntry.empty 0).enabled = false
      ∧ (demo .free).enabled 5 = false ∧ ({ LoaderEntry.empty 5 with enabled := true } : LoaderEntry).enabled = true
      ∧ (demo .free).auth[5].state = .standing none .disabled
      ∧ ({ LoaderEntry.empty 0 with enabled := true, priority := 1 } : LoaderEntry).enabled = (demo (.calling 7)).enabled 0
      ∧ (demo (.calling 7)).auth[0].state = .calling 7 := by
  and_intros <;> decide +kernel

/-! ## Witnesses: slots and deadlines -/

theorem witness_IdleSlotSendsNeutralOrStand :
    0 < (demo .free).timer.period ∧ (waiting (.linkDown 0) .free).running = true
      ∧ (waiting (.linkDown 0) .free).timer.now = 0 ∧ (waiting (.linkDown 0) .free).canTake = false
      ∧ (Instr.linkDown 0).consequence = some (.linkDown 0) ∧ (waiting (.linkDown 0) .free).following = [.linkDown 0]
      ∧ (waiting (.linkDown 0) .free).BeaconsShow ∧ (waiting (.linkDown 0) .free).RecordsAgree
      ∧ (waiting (.linkDown 0) .free).loaderAt .a 0 = some 0
      ∧ (waiting (.linkDown 0) .free).auth[0].state.isStanding = false
      ∧ (waiting (.linkDown 0) .free).linkIsUp LevelPort.a.toPort = true
      ∧ (waiting (.statusDeadline 1) .free).ReadyAt 0 ∧ (demo .free).ReadyAt 320 ∧ (demo .free).loaderAt .b 3 = none ∧ (demo .free).loaderAt .a 0 = some 0
      ∧ (demo .free).auth[0].state.idleFrame = some (0x02, 0)
      ∧ (demo (.standing none .stop)).ReadyAt 0 ∧ (demo (.standing none .stop)).auth[0].state.idleFrame = some (0x01, 0x06)
      ∧ (demo (.releasing 3)).ReadyAt 0 ∧ (demo (.releasing 3)).auth[0].state.idleFrame = some (0x06, 0)
      ∧ (0 : Slot).val = (if (16 : SlotTime) = 16 then 0 else (16 : SlotTime).val)
      ∧ (15 : Slot).val = (if (15 : SlotTime) = 16 then 0 else (15 : SlotTime).val) := by
  and_intros <;> decide +kernel

/-- A held loader with the given mailbox mark and stale count. -/
def demoHeld (fresh : Bool) (stale : Nat) : State :=
  (demo (.held 0)).setBuilder 0
    { Builder.initial with holder := some ⟨.zero, .forward, 0, true, 4⟩, fresh := fresh, stale := stale }

theorem witness_DrivenSlotSynthesizes :
    (demoHeld true 0).ReadyAt 0 ∧ State.ReadyAt { demoHeld true 0 with due := [.statusDeadline 1] } 0 ∧ (demoHeld true 0).loaderAt .a 0 = some 0
      ∧ (demoHeld true 0).auth[0].state.driven = true ∧ (demoHeld true 0).builders[0].fresh = true
      ∧ (demoHeld false 2).ReadyAt 0 ∧ (demoHeld false 2).builders[0].stale < (demoHeld false 2).tables.device.holdLimit := by
  and_intros <;> decide +kernel

theorem witness_StaleMailboxStandsTheLoader :
    (demoHeld false 3).ReadyAt 0 ∧ State.ReadyAt { demoHeld false 3 with due := [.statusDeadline 1] } 0
      ∧ (demoHeld false 3).RecordsAgree ∧ (demoHeld false 3).loaderAt .a 0 = some 0
      ∧ (demoHeld false 3).auth[0].state.driven = true ∧ (demoHeld false 3).builders[0].fresh = false
      ∧ (demoHeld false 3).tables.device.holdLimit ≤ (demoHeld false 3).builders[0].stale
      ∧ (stateAfter (.standStale ⟨0, 16⟩) { demoHeld false 3 with timer := ⟨0, 15, 20, 0, 0, 300⟩ }).timer.now = 320 := by
  and_intros <;> decide +kernel

theorem witness_StatusDeadlineEntersTheOutcome :
    let s := { demo (.held 0) with deadlines := putAt (Vector.replicate 16 none) 0 (some ⟨.a, 0, 160⟩) }
    let late := { s with timer := { s.timer with origin := 320 } }
    let brought := waiting (.statusDeadline 0) (.held 0)
    s.ReadyAt 160 ∧ s.enabled 0 = true ∧ s.deadlines[0] = some ⟨.a, 0, 160⟩ ∧ Due.statusDeadline 0 ∉ s.due
      ∧ (16 : SlotTime).val % 16 = s.tables.loaders[0].slot.val ∧ s.timer.now ≤ 320 ∧ 0 < 320
      ∧ late.ReadyAt 160 ∧ late.deadlines[0] = some ⟨.a, 0, 160⟩
      ∧ State.ReadyAt { s with timer := { s.timer with now := 160 }, due := [.statusDeadline 1] } 160
      ∧ brought.BeaconsShow ∧ brought.Whole ∧ Due.statusDeadline 0 ∈ brought.due ∧ brought.enabled 0 = true := by
  and_intros <;> decide +kernel

theorem witness_SpentCommandsHaveNoEffect :
    (Instr.linkUp 3).consequence = some (.linkUp 3) ∧ Due.linkUp 3 ∉ (demo .free).due ∧ (demo .free).Quiet
      ∧ (demo .free).deadlines[0] = none ∧ (demoHeld false 3).Quiet
      ∧ (demoHeld false 3).tables.loaders[0].slot.val ≠ (5 : SlotTime).val % 16 ∧ (demo .free).auth[0].state.driven = false
      ∧ (demo .free).config.phase ≠ .loading ∧ (demo .free).pending = []
      ∧ State.reset.Quiet ∧ State.reset.config.phase = .loading := by
  and_intros <;> decide +kernel

theorem witness_LinkChangesAndLoaderReady :
    (waiting (.linkDown 0) (.held 0)).Over ∧ (waiting (.linkDown 0) (.held 0)).RecordsAgree
      ∧ (waiting (.loaderReady 0) (.standing none .start)).RecordsAgree
      ∧ (waiting (.loaderReady 0) (.standing none .start)).standCondition 0 = false
      ∧ (waiting (.loaderReady 0) .free).auth[0].state = .free
      ∧ Due.linkUp 0 ∈ (waiting (.linkUp 0) .free).due ∧ (demo .free).enabled 0 = true
      ∧ (waiting (.linkUp 0) .free).Over ∧ (waiting (.linkUp 5) .free).Over ∧ (demo .free).enabled 5 = false
      ∧ (waiting (.statusDeadline 5) .free).Over ∧ (waiting (.statusDeadline 5) .free).following = []
      ∧ (waiting (.loaderReady 0) (.standing none .start)).Over
      ∧ Due.linkUp 5 ∈ (waiting (.linkUp 5) .free).due ∧ Due.statusDeadline 5 ∈ (waiting (.statusDeadline 5) .free).due := by
  and_intros <;> decide +kernel

theorem witness_OfferExpires :
    let s := waiting (.offerExpiry 0) (.offered none 2 (.call 7) 4 none 0)
    s.Over ∧ s.RecordsAgree ∧ Due.offerExpiry 0 ∈ s.due
      ∧ s.auth[0].state = .offered none 2 (.call 7) 4 none 0 := by
  and_intros <;> decide +kernel

theorem witness_MatchingAndReleaseTimeOut :
    let s := waiting (.matchTimeout 0) (.matching (some 1) 2 .direct (some 1) 0)
    let t := waiting (.releaseTimeout 0) (.releasing 0)
    s.Over ∧ s.RecordsAgree ∧ Due.matchTimeout 0 ∈ s.due
      ∧ s.auth[0].state = .matching (some 1) 2 .direct (some 1) 0
      ∧ t.Over ∧ t.RecordsAgree ∧ Due.releaseTimeout 0 ∈ t.due ∧ t.auth[0].state = .releasing 0 := by
  and_intros <;> decide +kernel

theorem witness_AbsentChairLosesItsPlace :
    let s := waiting (.presenceExpiry 0) (.held 0)
    let s := s.setChair 0 { s.chairs[0] with presence := 0 }
    s.RecordsAgree ∧ Due.presenceExpiry 0 ∈ s.due ∧ s.chairs[0].status ≠ .absent ∧ s.chairs[0].presence = 0
      ∧ (stateAfter (.presenceExpiry 0) s).cycleStarting = false
      ∧ (stateAfter (.presenceExpiry 0) { s with due := [.tableApplied, .presenceExpiry 0] }).cycleStarting = true
      ∧ (demo (.held 0)).Admits (requestFrame (hdr 0 0 0) 0x02 1 []) 0 ∧ (demo (.held 0)).RecordsAgree
      ∧ (demo (.held 0)).chairs[0].status ≠ .absent
      ∧ (demo (.held 0)).chairs[0].engaged = some 0 ∧ (ChairEntry.empty 0).enabled = false
      ∧ (ChairEntry.empty 0).permitted.getLsbD (0 : Loader).val = false := by
  and_intros <;> decide +kernel

theorem witness_AuthorityResetClearsAuthority :
    Due.authorityReset ∈ (waiting .authorityReset (.held 0)).due := by decide +kernel

theorem witness_LinesAreSampled :
    (demo .free).Ready ∧ wordOf ((demo .free).timer.now / 16) = (demo .free).timer.millis := by
  and_intros <;> decide +kernel

/-- Line 2 enabled, latching and asserted when open, in the given state, with its pin at the given level. -/
def demoLine (status : LineStatus) (mark : Bool) (raw : Level) (a : AuthState) : State :=
  let s := waiting (.lineSettle 2) a
  { s with
    tables := { s.tables with lines := putAt s.tables.lines 2 ⟨true, true, true, 0x03, 5⟩ }
    lines := putAt s.lines 2 ⟨raw, 0, if status = .active then .opened else .closed, status, mark⟩ }

theorem witness_LineSettles :
    (demoLine .clear false .opened (.held 0)).Over
      ∧ (demoLine .clear false .opened (.held 0)).RecordsAgree
      ∧ Due.lineSettle 2 ∈ (demoLine .clear false .opened (.held 0)).due
      ∧ (demoLine .active false .closed .free).tables.lines[2].enabled = true
      ∧ (demoLine .active false .closed .free).RecordsAgree ∧ (demoLine .active true .closed .free).RecordsAgree
      ∧ (waiting (.lineSettle 3) .free).Over
      ∧ (waiting (.lineSettle 3) .free).tables.lines[3].enabled = false
      ∧ Due.lineSettle 3 ∈ (waiting (.lineSettle 3) .free).due := by
  and_intros <;> decide +kernel

theorem witness_PortLinksFollowTheSignal :
    (demo .free).Ready ∧ (demo .free).portUp[0] = true
      ∧ ({ demo .free with portUp := Vector.replicate 3 false } : State).Ready := by
  and_intros <;> decide +kernel

/-! ## Witnesses: frames -/

theorem witness_WrongPortIsCounted :
    let f : Frame := ⟨0x07, hdr 0 0 0, []⟩
    (demo .free).Ready ∧ (demo .free).linkIsUp .surface = true ∧ f.payload.length ≤ 256
      ∧ payloadFits f.kind f.payload.length = true
      ∧ f.kind ≠ kindCommand ∧ f.kind ≠ kindChairRequest ∧ f.kind ≠ kindMgmtRequest ∧ f.kind ≠ kindStatus := by
  and_intros <;> decide +kernel

/-- A rule in use that takes every frame. -/
def demoRule (action : RuleAction) : State :=
  let s := demo .free
  { s with tables := { s.tables with rules := putAt s.tables.rules 4 { RuleEntry.empty with inUse := true, action := action } } }

theorem witness_DiscardedFramesAreCounted :
    let s := demo .free
    let stranger : Header := { hdr 0 0 0 with source := 0x7777 }
    s.Ready ∧ ({ s with portUp := Vector.replicate 3 false } : State).Ready
      ∧ s.linkIsUp .surface = true ∧ judgeBurst s.tables.device.marker [0xD5, 0x4B] = .framingError
      ∧ judgeBurst s.tables.device.marker ([0xD5, 0x4B] ++ frameBody ⟨0x41, hdr 0 0 0, [1, 2, 3]⟩ ++ [0, 0]) = .checkError
      ∧ s.loaderOf .levelA stranger = none ∧ s.chairOf 0x7777 = none
      ∧ (Instr.leave stranger 1 []).asked = some (stranger, 0x02, 1, [])
      ∧ s.mgmtAdmitted 0x7777 = false
      ∧ (demoRule .drop).Ready ∧ (demoRule .drop).chairOf (hdr 0 0 0).source = some 0
      ∧ (demoRule .drop).loaderOf .levelA fromLoader0 = some 0 ∧ (demoRule .drop).mgmtAdmitted mgmtHdr.source = true
      ∧ (demoRule .drop).decidingRule (requestFrame (hdr 0 0 0) 0x02 1 []) = some 4
      ∧ (demoRule .drop).decidingRule (statusFrameOf fromLoader0 (report 2 0 8)) = some 4
      ∧ (demoRule .drop).decidingRule (commandFrame (hdr 0 0 0) still) = some 4
      ∧ (demoRule .drop).decidingRule (mgmtFrame mgmtHdr 1 1 0 0 []) = some 4
      ∧ (demoRule .drop).tables.rules[4].action = .drop
      ∧ (demoRule .passLog).Ready ∧ (demoRule .passLog).tables.rules[4].action = .passLog := by
  and_intros <;> decide +kernel

theorem witness_FrameRoundTrip :
    let f : Frame := ⟨0x31, hdr 0 0 0, List.replicate 12 7⟩
    f.payload.length ≤ 256 ∧ payloadFits f.kind f.payload.length = true := by
  and_intros <;> decide +kernel

theorem witness_BurstsSpellTheStructuredRows :
    (demo .free).Ready ∧ (Instr.take (hdr 0 0 0) 1 []).asked = some (hdr 0 0 0, 0x10, 1, [])
      ∧ 3 + ([] : List Byte).length ≤ 256 := by
  and_intros <;> decide +kernel

theorem witness_HolderFramesFillTheMailbox :
    (demo (.held 0)).Admits (commandFrame (hdr 0 0 9) still) 0
      ∧ (demo (.held 0)).Admits (commandFrame (hdr 0 16 9) still) 0 ∧ 16 ≤ (hdr 0 16 9).loader.toNat
      ∧ indexOfByte 16 (hdr 0 0 9).loader = some (0 : Loader) ∧ (demo (.held 0)).enabled 0 = true
      ∧ (demo (.held 0)).auth[0].state.holder = some 0 ∧ (demo (.held 0)).enabled 5 = false
      ∧ (demo (.held 0)).Admits (commandFrame (hdr 2 0 9) still) 2
      ∧ (demo (.held 0)).auth[0].state.holder ≠ some 2 ∧ (demo (.held 0)).auth[0].state.candidate ≠ some 2 := by
  and_intros <;> decide +kernel

/-- The epochs, sequences and windows of the four outcomes of a candidate's frame. -/
theorem witness_CandidateFramesMatchAndGrant :
    let s := demo (.matching none 0 .direct none 50)
    let full := s.setWindow 0 (List.replicate 6 true)
    let old := s.setBuilder 0 { s.builders[0] with lastCand := some 5 }
    s.Admits (commandFrame (hdr 0 0 10) still) 0 ∧ s.RecordsAgree
      ∧ indexOfByte 16 (hdr 0 0 10).loader = some (0 : Loader) ∧ s.enabled 0 = true
      ∧ s.auth[0].state = .matching none 0 .direct none 50 ∧ (hdr 0 0 9).epoch ≠ s.auth[0].epoch + 1
      ∧ old.Admits (commandFrame (hdr 0 0 10) still) 0 ∧ newerThanLast 5 old.builders[0].lastCand = false
      ∧ full.Admits (commandFrame (hdr 0 0 10) still) 0 ∧ full.RecordsAgree
      ∧ full.judge 0 (readCommand still 5) = true ∧ (full.windows[0] ++ [true]).count true = full.tables.device.matchCount := by
  and_intros <;> decide +kernel

theorem witness_StatusFrameEntersTheReports :
    (demo .free).AdmitsStatus .levelA (statusFrameOf fromLoader0 (report 2 0 8)) 0 ∧ (demo .free).enabled 0 = true
      ∧ (demo .free).AdmitsStatus .levelA (statusFrameOf ⟨0, 0xFFE5, 1, 5, 0, 5⟩ (report 2 0 8)) 5
      ∧ (demo .free).enabled 5 = false := by
  and_intros <;> decide +kernel

/-- Line 2 in the given state over zones 0 and 1, loader 0 held in zone 2, and nothing waiting. -/
def demoZone (status : LineStatus) : State :=
  let s := demoLine status false .opened (.held 0)
  { s.setStatus 0 { s.status[0] with zone := some 2 } with due := [] }

/-- The line covers zone 1, which loader 0 enters by a report of it, and not zone 7. -/
abbrev EntersZone (status : LineStatus) : Prop :=
  (demoZone status).AdmitsStatus .levelA (statusFrameOf fromLoader0 (report 2 0 1)) 0 ∧ (demoZone status).RecordsAgree
    ∧ (demoZone status).enabled 0 = true
    ∧ (stateAfter (.status .a fromLoader0 (report 2 0 1)) (demoZone status)).status[0].zone = some 1
    ∧ (demoZone status).status[0].zone ≠ some 1 ∧ (demoZone status).zoneInterlocked (some 1) = true
    ∧ (demoZone status).AdmitsStatus .levelA (statusFrameOf fromLoader0 (report 2 0 7)) 0
    ∧ (demoZone status).zoneInterlocked (some 7) = false

/-- Among them loaders that enter zone 1 under an ACTIVE line, under a LATCHED one, and zone 7 beyond the line. -/
theorem witness_StatusFrameMovesTheLoader :
    let s := demo (.calling 3)
    s.AdmitsStatus .levelA (statusFrameOf fromLoader0 (report 2 0 8)) 0 ∧ s.RecordsAgree ∧ s.enabled 0 = true
      ∧ (demo (.releasing 4)).AdmitsStatus .levelA (statusFrameOf fromLoader0 (report 2 0 8)) 0
      ∧ (demo (.releasing 4)).RecordsAgree
      ∧ EntersZone .active ∧ EntersZone .latched
      ∧ (demo (.offered none 2 (.call 3) 4 none 9)).RecordsAgree := by
  and_intros <;> decide +kernel

theorem witness_StatusFrameIsForwarded :
    (demo (.held 0)).AdmitsStatus .levelA (statusFrameOf fromLoader0 (report 2 0 8)) 0
      ∧ (demo (.held 0)).enabled 0 = true ∧ 0 ∈ (demo (.held 0)).receivers 0 ∧ (demo (.held 0)).RecordsAgree
      ∧ State.AdmitsStatus { demo (.held 0) with
          sending := some ⟨0x4B, ⟨0x42, mgmtHdr, []⟩⟩, forwards := List.replicate 64 ⟨0x32, fromLoader0, []⟩ }
          .levelA (statusFrameOf fromLoader0 (report 2 0 8)) 0 := by
  and_intros <;> decide +kernel

/-! ## Witnesses: chair requests -/

/-- Chair 0 absent. -/
def demoAbsent : State :=
  let s := (demo .free).setChair 0 .initial
  { s with freeList := s.freeList.filter (· ≠ 0) }

/-- Chair 0 IDLE and unavailable. -/
def demoUnavailable : State :=
  let s := demo .free
  { s.setChair 0 { s.chairs[0] with available := false } with freeList := s.freeList.filter (· ≠ 0) }

theorem witness_PresentMakesTheChairPresent :
    (demo .free).Admits (requestFrame (hdr 0 0 0) 0x01 1 [0x01]) 0 ∧ (demo .free).RecordsAgree
      ∧ (demo (.held 0)).Admits (requestFrame (hdr 0 0 0) 0x01 1 [0x02]) 0 ∧ (demo (.held 0)).RecordsAgree
      ∧ (demo .free).Admits (requestFrame (hdr 0 0 0) 0x01 1 [0x03]) 0
      ∧ demoAbsent.Admits (requestFrame (hdr 0 0 0) 0x01 1 [0x01]) 0 ∧ demoAbsent.RecordsAgree
      ∧ demoAbsent.chairs[0].status = .absent
      ∧ demoUnavailable.Admits (requestFrame (hdr 0 0 0) 0x01 1 [0x01]) 0 ∧ demoUnavailable.RecordsAgree
      ∧ demoUnavailable.chairs[0].status = .idle ∧ demoUnavailable.chairs[0].available = false := by
  and_intros <;> decide +kernel

theorem witness_OperatorTakesTheLoader :
    (demo .free).Asks (requestFrame (hdr 0 0 0) 0x10 1 []) 0 0 ∧ (demo .free).tables.chairs[0].supervisor = false
      ∧ (demo (.calling 3)).Asks (requestFrame (hdr 0 0 0) 0x10 1 []) 0 0
      ∧ (demo (.held 1)).Asks (requestFrame (hdr 0 0 0) 0x10 1 []) 0 0
      ∧ (demo (.held 1)).Asks (requestFrame (hdr 6 0 0) 0x10 1 []) 6 0 ∧ (demo (.held 1)).tables.chairs[6].supervisor = true
      ∧ (demo (.held 1)).RecordsAgree ∧ (demo (.held 1)).chairs[6].status = .idle
      ∧ (stateAfter (.take (hdr 6 0 0) 1 []) (demo (.held 1))).auth[0].state.candidate = some 6
      ∧ (demo (.held 0)).Asks (requestFrame (hdr 0 0 0) 0x10 1 []) 0 0 := by
  and_intros <;> decide +kernel

theorem witness_SupervisorTakesTheLoader :
    let f := requestFrame (hdr 6 0 0) 0x10 1 []
    (demo .free).Asks f 6 0 ∧ (demo .free).RecordsAgree ∧ (demo .free).tables.chairs[6].supervisor = true
      ∧ (demo (.standing (some 0) .stop)).Asks f 6 0 ∧ (demo (.standing (some 0) .stop)).RecordsAgree
      ∧ (demo (.offered (some 0) 2 .direct 4 (some 0) 9)).RecordsAgree
      ∧ (demo (.matching (some 0) 2 .direct (some 0) 9)).RecordsAgree ∧ (demo (.held 0)).RecordsAgree := by
  and_intros <;> decide +kernel

theorem witness_OfferPutsTheLoaderOnOffer :
    (demo (.held 0)).Asks (requestFrame (hdr 0 0 0) 0x11 1 [2]) 0 0 ∧ indexOfByte 8 2 = some (2 : Chair)
      ∧ (demo (.calling 3)).Asks (requestFrame (hdr 6 0 0) 0x11 1 [6]) 6 0 ∧ indexOfByte 8 6 = some (6 : Chair)
      ∧ (demo (.held 0)).permits 7 0 = false
      ∧ (demo (.calling 3)).CallQueueRight ∧ (demo (.calling 3)).FreeListRight
      ∧ (demo (.calling 3)).walk.callQueue = [] := by
  and_intros <;> decide +kernel

theorem witness_OffersAreAnswered :
    let s := demo (.offered none 2 (.call 3) 4 none 9)
    s.Asks (requestFrame (hdr 2 0 0) 0x12 1 (bytes16 4)) 2 0 ∧ s.Asks (requestFrame (hdr 2 0 0) 0x13 1 (bytes16 4)) 2 0
      ∧ s.RecordsAgree ∧ s.auth[0].state.offeredChair = some 2 ∧ s.auth[0].state.number = some 4
      ∧ s.Asks (requestFrame (hdr 2 0 0) 0x13 1 (bytes16 5)) 2 0 := by
  and_intros <;> decide +kernel

theorem witness_CancelReturnsTheLoader :
    let s := demo (.offered (some 0) 2 .direct 4 (some 0) 9)
    let t := demo (.matching (some 0) 2 .direct (some 0) 9)
    s.Asks (requestFrame (hdr 0 0 0) 0x14 1 []) 0 0 ∧ s.RecordsAgree ∧ s.auth[0].state.offerer = some 0
      ∧ t.Asks (requestFrame (hdr 2 0 0) 0x14 1 []) 2 0 ∧ t.RecordsAgree ∧ t.auth[0].state.candidate = some 2
      ∧ s.Asks (requestFrame (hdr 3 0 0) 0x14 1 []) 3 0
      ∧ (demo .free).Asks (requestFrame (hdr 0 0 0) 0x14 1 []) 0 0 := by
  and_intros <;> decide +kernel

theorem witness_ReleaseLetsTheLoaderGo :
    (demo (.held 0)).Asks (requestFrame (hdr 0 0 0) 0x15 1 [if true then 0x01 else 0x02]) 0 0
      ∧ (demo (.held 0)).Asks (requestFrame (hdr 0 0 0) 0x15 1 [if false then 0x01 else 0x02]) 0 0
      ∧ (demo (.held 0)).RecordsAgree ∧ (demo (.held 0)).auth[0].state = .held 0
      ∧ (demo .free).Asks (requestFrame (hdr 0 0 0) 0x15 1 [0x01]) 0 0 := by
  and_intros <;> decide +kernel

theorem witness_RecoverEndsTheStanding :
    let s := demo (.standing (some 0) .stop)
    s.Asks (requestFrame (hdr 0 0 0) 0x16 1 []) 0 0 ∧ s.RecordsAgree ∧ s.standCondition 0 = false
      ∧ s.Asks (requestFrame (hdr 6 0 0) 0x16 1 []) 6 0 ∧ s.tables.chairs[6].supervisor = true
      ∧ s.Asks (requestFrame (hdr 2 0 0) 0x16 1 []) 2 0
      ∧ (demo (.standing none .operator)).Asks (requestFrame (hdr 2 0 0) 0x16 1 []) 2 0
      ∧ (demo (.standing none .start)).Asks (requestFrame (hdr 2 0 0) 0x16 1 []) 2 0 := by
  and_intros <;> decide +kernel

theorem witness_StopStandsLoaders :
    (demo (.held 0)).RecordsAgree ∧ (demo (.held 0)).Asks (requestFrame (hdr 2 0 0) 0x17 1 [0x01, 0]) 2 0
      ∧ (demo (.held 0)).Admits (requestFrame (hdr 2 0 0) 0x17 1 [0x02, 7]) 2
      ∧ (demo (.held 0)).chairs[2].status ≠ .absent ∧ indexOfByte 8 7 = some (7 : Zone) := by
  and_intros <;> decide +kernel

theorem witness_ViewOnSetsTheEntry :
    let s := demo .free
    s.Admits (requestFrame (hdr 0 0 0) 0x20 1 (16 :: bytes16 0x8001 ++ [0x02])) 0 ∧ s.chairs[0].status ≠ .absent
      ∧ s.Admits (requestFrame (hdr 0 9 0) 0x20 1 (0 :: bytes16 1 ++ [0x01])) 0 := by
  and_intros <;> decide +kernel

theorem witness_ViewOffEndsTheView :
    (demo .free).Admits (requestFrame (hdr 0 0 0) 0x21 1 []) 0 ∧ (demo .free).chairs[0].status ≠ .absent
      ∧ indexOfByte 16 (hdr 0 0 0).loader = some (0 : Loader)
      ∧ (demo .free).Admits (requestFrame (hdr 0 16 0) 0x21 1 [1]) 0
      ∧ demoAbsent.Admits (requestFrame (hdr 0 0 0) 0x21 1 []) 0 ∧ demoAbsent.chairs[0].status = .absent
      ∧ (demo (.held 0)).auth[0].state.holder = some 0 := by
  and_intros <;> decide +kernel

theorem witness_LineAckClearsALatchedLine :
    let s := { demoLine .latched false .closed .free with due := [] }
    s.Admits (requestFrame (hdr 6 0 0) 0x30 1 [2]) 6 ∧ s.chairs[6].status ≠ .absent ∧ s.lines[2].status = .latched
      ∧ s.Admits (requestFrame (hdr 6 0 0) 0x30 1 [8]) 6 ∧ s.Admits (requestFrame (hdr 0 0 0) 0x30 1 [2]) 0
      ∧ s.AdmitsMgmt (mgmtFrame mgmtHdr 0x09 1 0 2 []) ∧ s.AdmitsMgmt (mgmtFrame mgmtHdr 0x09 1 0 2 [7])
      ∧ s.AdmitsMgmt (mgmtFrame mgmtHdr 0x09 1 0 8 []) ∧ s.agent.idle = true := by
  and_intros <;> decide +kernel

theorem witness_CommonChecksRefuse :
    (Instr.take (hdr 0 0 0) 1 []).asked = some (hdr 0 0 0, 0x10, 1, [])
      ∧ demoAbsent.Admits (requestFrame (hdr 0 0 0) 0x10 1 []) 0 ∧ demoAbsent.chairs[0].status = .absent
      ∧ (Instr.unknownChairRequest (hdr 0 0 0) 0x77 1 []).asked = some (hdr 0 0 0, 0x77, 1, [])
      ∧ (demo .free).Admits (requestFrame (hdr 0 0 0) 0x77 1 []) 0 ∧ requestIllFormed 0x77 [] = true
      ∧ (Instr.take (hdr 0 0 0) 1 [7]).asked = some (hdr 0 0 0, 0x10, 1, [7])
      ∧ (demo .free).Admits (requestFrame (hdr 0 0 0) 0x10 1 [7]) 0 ∧ requestIllFormed 0x10 [7] = true
      ∧ (Instr.offer (hdr 0 0 0) 1 8 []).asked = some (hdr 0 0 0, 0x11, 1, [8])
      ∧ (demo .free).Admits (requestFrame (hdr 0 0 0) 0x11 1 [8]) 0 ∧ requestIllFormed 0x11 [8] = true
      ∧ (Instr.stopZone (hdr 0 0 0) 1 8 []).asked = some (hdr 0 0 0, 0x17, 1, [0x02, 8])
      ∧ (demo .free).Admits (requestFrame (hdr 0 0 0) 0x17 1 [0x02, 8]) 0 ∧ requestIllFormed 0x17 [0x02, 8] = true
      ∧ (Instr.unknownChairRequest (hdr 0 0 0) 0x15 1 [3]).asked = some (hdr 0 0 0, 0x15, 1, [3])
      ∧ (demo .free).Admits (requestFrame (hdr 0 0 0) 0x15 1 [3]) 0 ∧ requestIllFormed 0x15 [3] = true
      ∧ (demo .free).Admits (requestFrame (hdr 0 16 0) 0x10 1 []) 0
      ∧ indexOfByte 16 (hdr 0 16 0).loader = (none : Option Loader) ∧ requestNamesLoader 0x10 [] = true
      ∧ requestAboutLoader 0x10 [] = true ∧ requestIllFormed 0x10 [] = false
      ∧ (demo .free).Admits (requestFrame (hdr 0 5 0) 0x10 1 []) 0 ∧ (demo .free).enabled 5 = false
      ∧ (demo .free).Admits (requestFrame (hdr 7 0 0) 0x10 1 []) 7 ∧ (demo .free).permits 7 0 = false
      ∧ requestAboutLoader 0x11 [7] = true ∧ requestIllFormed 0x11 [7] = false := by
  and_intros <;> decide +kernel

/-- A held loader with a full Notice Queue behind a frame being sent. -/
def demoFull : State :=
  let s := demo (.held 0)
  { s with
    sending := some ⟨0x4B, ⟨0x42, mgmtHdr, []⟩⟩
    rep := { s.rep with notices := List.replicate 32 ⟨0x41, mgmtHdr, []⟩ } }

/-- R157: the answer to a request that finds the queue full is dropped and counted, and the request is carried out. -/
theorem test_notice_lost :
    let t := stateAfter (.leave (hdr 0 0 0) 1 []) demoFull
    t.auth[0] = ⟨.standing none .chairLost, 10⟩ ∧ t.rep.notices.length = 32 ∧ t.rep.deviceCounts[10] = 1 := by
  decide +kernel

theorem witness_EveryRequestIsAnsweredOnce :
    (Instr.leave (hdr 0 0 0) 1 []).asked = some (hdr 0 0 0, 0x02, 1, [])
      ∧ (demo (.held 0)).Admits (requestFrame (hdr 0 0 0) 0x02 1 []) 0 ∧ (demo (.held 0)).rep.notices.length < 32
      ∧ demoFull.Admits (requestFrame (hdr 0 0 0) 0x02 1 []) 0 ∧ 32 ≤ demoFull.rep.notices.length
      ∧ demoFull.rep.CountersRight ∧ demoFull.rep.frozen = false := by
  and_intros <;> decide +kernel

theorem witness_RequestsTouchOneLoader :
    (Instr.stopLoader (hdr 0 0 0) 1 0 []).asked = some (hdr 0 0 0, 0x17, 1, [0x01, 0])
      ∧ (demo (.held 0)).Admits (requestFrame (hdr 0 0 0) 0x17 1 [0x01, 0]) 0 ∧ (demo (.held 0)).RecordsAgree
      ∧ ([0x01, 0] : List Byte).head? ≠ some 0x02 := by
  and_intros <;> decide +kernel

/-! ## Witnesses: management, the S-port and reporting -/

theorem witness_ManagementReads :
    (demo .free).agent.idle = true ∧ (demo .free).AdmitsMgmt (mgmtFrame mgmtHdr 0x01 1 0 0 [])
      ∧ (demo .free).AdmitsMgmt (mgmtFrame mgmtHdr 0x02 1 8 63 []) ∧ (demo .free).AdmitsMgmt (mgmtFrame mgmtHdr 0x04 1 1 15 []) := by
  and_intros <;> decide +kernel

/-- Each clause by an entry's bytes: a good ZONES write; a LOADERS write of a held loader that disables it (IN_USE); one that
enables loader 2 at loader 0's port and slot (CLASH); a MGMT_STATIONS write that leaves none listed (DENIED); an unknown table. -/
theorem witness_WriteEntryLeavesAPendingWrite :
    let data := ZoneEntry.encode ⟨256, some 3⟩
    (demo .free).AdmitsMgmt (mgmtFrame mgmtHdr 0x03 1 5 7 data) ∧ (demo .free).agent.idle = true
      ∧ readWrite (.zone 7) data = some (.zone 7 ⟨256, some 3⟩)
      ∧ (demo .free).writeInUse (.zone 7 ⟨256, some 3⟩) = false
      ∧ (demo (.held 0)).writeInUse (.loader 0 (LoaderEntry.empty 0)) = true
      ∧ (demo .free).writeClash (.loader 2 { LoaderEntry.empty 2 with enabled := true, slot := 0 }) = true
      ∧ (demo .free).writeDenied (.mgmtStation 0 ⟨false, 0x0F01⟩) = true
      ∧ (demo (.held 0)).AdmitsMgmt (mgmtFrame mgmtHdr 0x03 1 4 0 (LoaderEntry.empty 0).encode)
      ∧ (demo (.held 0)).auth[0].state = .held 0
      ∧ (LoaderEntry.empty 0).enabled ≠ (demo (.held 0)).tables.loaders[0].enabled
      ∧ (demo .free).tables.loaders[0].enabled = true
      ∧ (demo .free).tables.loaders[0].port = (LoaderEntry.empty 2).port ∧ (demo .free).tables.loaders[0].slot = 0
      ∧ (demo .free).agent.commissioning = false ∧ (demo .free).tables.mgmt[1].listed = false
      ∧ (demo .free).AdmitsMgmt (mgmtFrame mgmtHdr 0x03 1 9 0 []) := by
  and_intros <;> decide +kernel

theorem witness_CountersAreReadAndControlled :
    let s := demo .free
    s.agent.idle = true ∧ s.rep.CountersRight ∧ s.AdmitsMgmt (mgmtFrame mgmtHdr 0x05 1 1 15 [0x01])
      ∧ s.AdmitsMgmt (mgmtFrame mgmtHdr 0x05 1 1 15 [0x00])
      ∧ (match counterGroup 1 15 with
        | .ok g => g = .loader 15
        | .error _ => False)
      ∧ s.AdmitsMgmt (mgmtFrame mgmtHdr 0x06 1 0 0 [0x01]) ∧ s.AdmitsMgmt (mgmtFrame mgmtHdr 0x06 1 0 0 [0x02])
      ∧ s.AdmitsMgmt (mgmtFrame mgmtHdr 0x06 1 0 0 [0x03]) ∧ s.AdmitsMgmt (mgmtFrame mgmtHdr 0x06 1 0 0 [0x03, 7])
      ∧ s.AdmitsMgmt (mgmtFrame mgmtHdr 0x05 1 1 16 [0x00]) ∧ s.AdmitsMgmt (mgmtFrame mgmtHdr 0x05 1 4 0 [0x00])
      ∧ s.AdmitsMgmt (mgmtFrame mgmtHdr 0x05 1 3 0 [0x02]) ∧ s.AdmitsMgmt (mgmtFrame mgmtHdr 0x05 1 3 0 []) := by
  refine ⟨?_, ?_, ?_, ?_, rfl, ?_, ?_, ?_, ?_, ?_, ?_, ?_, ?_⟩ <;> decide +kernel

theorem witness_LogAttnResetAndSave :
    let s := demo .free
    s.agent.idle = true ∧ s.AdmitsMgmt (mgmtFrame mgmtHdr 0x07 1 0 8 []) ∧ s.AdmitsMgmt (mgmtFrame mgmtHdr 0x08 1 0 0 [])
      ∧ s.AdmitsMgmt (mgmtFrame mgmtHdr 0x0A 1 0 0 []) ∧ s.AdmitsMgmt (mgmtFrame mgmtHdr 0x0B 1 0 0 [])
      ∧ s.AdmitsMgmt (mgmtFrame mgmtHdr 0x77 1 0 0 []) ∧ (0x77 : Byte) ∉ operationCodes := by
  and_intros <;> decide +kernel

theorem witness_ManagementRequestsWait :
    (demo .free).AdmitsMgmt (mgmtFrame mgmtHdr 0x01 1 0 0 []) ∧ (demo .free).agent.idle = true
      ∧ ({ demo .free with agent := ⟨none, [], some ⟨0x52, mgmtHdr, []⟩, false, false⟩ } : State).AdmitsMgmt
          (mgmtFrame mgmtHdr 0x01 1 0 0 []) := by
  and_intros <;> decide +kernel

/-- A full Response Queue, a response and two requests that wait. -/
def demoWaiting : State :=
  let f : Frame := ⟨0x52, mgmtHdr, []⟩
  let r : MgmtRequest := ⟨0x0F01, 5, 0x08, 1, 0, 0, []⟩
  { demo .free with responses := List.replicate 4 f, agent := ⟨none, [r, r], some f, false, false⟩ }

/-- R168: the response is placed, which fills the queue; the next request's response waits, and the other request with it. -/
theorem test_serve_in_turn :
    let t := stateAfter .sPortTake demoWaiting
    t.responses.length = 4 ∧ t.agent.response.isSome = true ∧ t.agent.waiting.length = 1 := by decide +kernel

theorem witness_TransmitterTakesInOrder :
    let s := (demo .free).doneNone 0 1
    s.BeaconsShow ∧ s.sending = none ∧ s.cycleStarting = false ∧ s.rep.notices.length = 1 ∧ s.linkIsUp .surface = true
      ∧ (waiting .authorityReset .free).cycleStarting = true ∧ (waiting (.linkUp 0) .free).cycleStarting = false
      ∧ (waiting (.linkUp 0) .free).sending = none ∧ (Instr.linkUp 0).consequence = some (.linkUp 0)
      ∧ State.linkIsUp { s with portUp := Vector.replicate 3 false } .surface = false ∧ s.responses = []
      ∧ (demo .free).rep.notices = [] ∧ (demo .free).responses = [] ∧ (demo .free).forwards = []
      ∧ demoWaiting.BeaconsShow ∧ demoWaiting.cycleStarting = false ∧ demoWaiting.sending = none ∧ demoWaiting.rep.notices = []
      ∧ demoWaiting.responses.length = 4 ∧ demoWaiting.agent.response.isSome = true
      ∧ State.Ready { demo .free with sending := some ⟨0x4B, ⟨0x42, mgmtHdr, []⟩⟩ } := by
  and_intros <;> decide +kernel

theorem witness_EventsActByTheirMap :
    (demo .free).rep.log.length < 128 ∧ (demo .free).rep.notices.length + 8 ≤ 32
      ∧ 32 ≤ demoFull.rep.notices.length ∧ demoFull.rep.log.length < 128
      ∧ 128 ≤ (List.replicate 128 (⟨0, 0, ⟨.granted, none, none, 0⟩⟩ : LogEntry)).length := by
  and_intros <;> decide +kernel

theorem witness_CountsSaturateAndFreeze : (demo .free).rep.CountersRight := by decide +kernel

theorem witness_GovernorAndClamp : 256 ≤ 256 ∧ (AxisLimits.valid ⟨-1600, 1600, 200, 120⟩ = true) := by
  and_intros <;> decide +kernel

theorem witness_SlewAndDeadman : (-2047 : Int) ≤ -2047 ∧ (-2047 : Int) ≤ 2047 := by decide

theorem witness_PhaseGeneratorSteps : phaseSeed ≠ 0 ∧ phaseStep phaseSeed = phaseStep 44257 := by
  and_intros <;> decide +kernel

/-! ## Witnesses: what every step keeps -/

theorem witness_EveryStepKeepsReportingRight :
    State.reset.EndsRight ∧ State.reset.QueuesBounded ∧ State.reset.rep.CountersRight ∧ State.reset.phaseGen ≠ 0
      ∧ (demo (.held 0)).EndsRight ∧ (demo (.held 0)).QueuesBounded ∧ (demo (.held 0)).rep.CountersRight
      ∧ State.EndsRight { waiting .tableApplied .free with walkCalled := true } := by
  and_intros <;> decide +kernel

/-- Line 2 ACTIVE, with every enabled loader STANDING under it in an unknown zone. -/
def demoCovered : State := { demoLine .active true .opened (.standing none .start) with due := [] }

theorem witness_EveryStepKeepsRecordsAgreeing :
    State.reset.RecordsAgree ∧ (demo (.matching (some 0) 2 .direct (some 0) 9)).RecordsAgree
      ∧ (demo (.calling 3)).RecordsAgree ∧ State.reset.SlotsApart ∧ (demo .free).SlotsApart
      ∧ State.reset.DisabledRest ∧ State.reset.InterlocksStand ∧ demoCovered.RecordsAgree ∧ demoCovered.DisabledRest
      ∧ demoCovered.InterlocksStand ∧ demoCovered.lines[2].status ≠ .clear ∧ demoCovered.tables.lines[2].enabled = true := by
  and_intros <;> decide +kernel

theorem witness_EpochAdvancesByOne :
    (demo (.held 0)).RecordsAgree ∧ (demo (.held 0)).Quiet
      ∧ (waiting .authorityReset (.held 0)).RecordsAgree
      ∧ Instr.authorityReset.consequence = some .authorityReset
      ∧ Due.authorityReset ∈ (waiting .authorityReset (.held 0)).due := by
  and_intros <;> decide +kernel

end Sys2Proof.Tests
end

section
/-! SUPPORT. TAKE of a supervisor (R23, R24): the places of a chair, what the arbiter's walk leaves of a state, what a chair
that has left its place is like, and what the request writes. -/

namespace Sys2Proof.Machine

open Sys2Proof

/-! ## The places of a chair (R3, R34, R44) -/

theorem mem_allLoaders (l : Loader) : l ∈ allLoaders := by revert l; decide

/-- The places of a chair are those it has in each loader's record. -/
theorem State.mem_placesOf {s : State} {c : Chair} {l : Loader} {p : ChairStatus} :
    (l, p) ∈ s.placesOf c ↔ p ∈ s.auth[l].state.placesOf c := by
  simp [State.placesOf, mem_allLoaders]

/-- A chair that a record names has that place as its state, and the record's loader as its engaged loader. -/
theorem State.PlacesRight.place {s : State} (h : s.PlacesRight) {c : Chair} {l : Loader} {p : ChairStatus}
    (hp : p ∈ s.auth[l].state.placesOf c) : s.chairs[c].engaged = some l ∧ s.chairs[c].status = p := by
  have hm := State.mem_placesOf.mpr hp
  rw [(h c).1, Option.mem_toList, Option.map_eq_some_iff] at hm
  obtain ⟨k, hk, he⟩ := hm
  obtain ⟨rfl, rfl⟩ := Prod.mk.inj he
  exact ⟨hk, rfl⟩

theorem State.FreeListRight.not_listed {s : State} (h : s.FreeListRight) {c : Chair} (hc : s.chairs[c].status ≠ .idle) :
    c ∉ s.freeList := fun hm => hc (h.1 c hm).1

/-! ## The Call Queue and a record that changes (R46) -/

/-- The queue holds loaders that are CALLING with the entry's stamp, none twice: what the arbiter's walk needs of it. -/
structure State.QueueCalls (s : State) : Prop where
  calling : ∀ e ∈ s.callQueue, s.auth[e.loader].state = .calling e.stamp
  nodup : (s.callQueue.map (·.loader)).Nodup

theorem State.CallQueueRight.queueCalls {s : State} (h : s.CallQueueRight) : s.QueueCalls :=
  ⟨fun e he => (h.1 e he).1, h.2.2⟩

/-- A loader taken from the queue may change its record: the others in the queue still call. -/
theorem State.QueueCalls.dequeued {s u : State} (h : s.QueueCalls) {l : Loader} {r : AuthRecord}
    (ha : u.auth = putAt s.auth l r) (hq : u.callQueue = s.callQueue.filter (·.loader ≠ l)) : u.QueueCalls := by
  constructor
  · intro e he
    rw [hq, List.mem_filter, decide_eq_true_iff] at he
    simp only [ha, putAt_other _ _ (Ne.symm he.2)]
    exact h.calling e he.1
  · rw [hq]
    exact h.nodup.sublist (List.filter_sublist.map _)

/-- A loader that is not CALLING is not in the queue. -/
theorem State.QueueCalls.filter_eq {s : State} (h : s.QueueCalls) {l : Loader} (hl : s.auth[l].state.isCalling = false) :
    s.callQueue.filter (·.loader ≠ l) = s.callQueue := by
  rw [List.filter_eq_self]
  rintro e he
  rw [decide_eq_true_iff]
  rintro rfl
  simp [-Fin.getElem_fin, h.calling e he, AuthState.isCalling] at hl

/-! ## What the arbiter's walk leaves of a state (R52-R54) -/

/-- The state v differs from u by offers of the arbiter's walk: a record is as it was, or offers a CALLING loader; a chair is
as it was and stays listed, or was listed and has been offered a loader; windows and `State.rest` are kept. -/
structure State.Walked (u v : State) : Prop where
  auth : ∀ k : Loader, v.auth[k] = u.auth[k] ∨ ∃ w x n, u.auth[k].state = .calling w ∧
    v.auth[k] = ⟨.offered none x (.call w) n none u.tables.device.offerTimeout, u.auth[k].epoch⟩
  chairs : ∀ x : Chair, (v.chairs[x] = u.chairs[x] ∧ (x ∈ u.freeList → x ∈ v.freeList)) ∨
    (x ∈ u.freeList ∧ x ∉ v.freeList ∧ ∃ k w n timer,
      v.chairs[x] = { u.chairs[x] with status := .offered, engaged := some k }
        ∧ v.auth[k].state = .offered none x (.call w) n none timer)
  freeList : v.freeList.Sublist u.freeList
  windows : v.windows = u.windows
  rest : v.rest = u.rest

namespace State.Walked
variable {u v w : State}

theorem refl (u : State) : u.Walked u :=
  ⟨fun _ => .inl rfl, fun _ => .inl ⟨rfl, id⟩, List.Sublist.refl _, rfl, rfl⟩

theorem tables (h : u.Walked v) : v.tables = u.tables := congrArg Rest.tables h.rest

/-- The walk leaves the record of a loader that is not CALLING. -/
theorem auth_of_not_calling (h : u.Walked v) {k : Loader} (hk : u.auth[k].state.isCalling = false) :
    v.auth[k] = u.auth[k] := by
  obtain hv | ⟨w, x, n, hw, -⟩ := h.auth k
  · exact hv
  · rw [hw] at hk
    exact absurd hk (by simp [AuthState.isCalling])

/-- The walk leaves a chair that is not on the Free Chair List. -/
theorem chair_of_not_listed (h : u.Walked v) {x : Chair} (hx : x ∉ u.freeList) : v.chairs[x] = u.chairs[x] := by
  obtain ⟨hv, -⟩ | ⟨hm, -⟩ := h.chairs x
  · exact hv
  · exact absurd hm hx

theorem trans (h : u.Walked v) (h' : v.Walked w) : u.Walked w where
  auth k := by
    obtain hv | ⟨stamp, x, n, hc, hv⟩ := h.auth k
    · simpa only [hv, h.tables] using h'.auth k
    · have hw := h'.auth_of_not_calling (k := k) (by rw [hv]; rfl)
      exact .inr ⟨stamp, x, n, hc, hw.trans hv⟩
  chairs x := by
    obtain ⟨hv, hl⟩ | ⟨hm, hn, k, stamp, n, timer, hv, ha⟩ := h.chairs x
    · obtain ⟨hw, hl'⟩ | ⟨hm', hn', hw⟩ := h'.chairs x
      · exact .inl ⟨hw.trans hv, hl' ∘ hl⟩
      · exact .inr ⟨h.freeList.subset hm', hn', by rwa [hv] at hw⟩
    · have hw := h'.chair_of_not_listed hn
      have ha' := h'.auth_of_not_calling (k := k) (by rw [ha]; rfl)
      exact .inr ⟨hm, fun hx => hn (h'.freeList.subset hx), k, stamp, n, timer, hw.trans hv, by rw [ha', ha]⟩
  freeList := h'.freeList.trans h.freeList
  windows := h'.windows.trans h.windows
  rest := h'.rest.trans h.rest

end State.Walked

@[simp] theorem State.makeOffer_chairs (s : State) (l : Loader) (c : Chair) (o : Option Chair) :
    (s.makeOffer l c o).chairs = putAt s.chairs c { s.chairs[c] with status := .offered, engaged := some l } := rfl

@[simp] theorem State.makeOffer_freeList (s : State) (l : Loader) (c : Chair) (o : Option Chair) :
    (s.makeOffer l c o).freeList = s.freeList.filter (· ≠ c) := rfl

@[simp] theorem State.makeOffer_windows (s : State) (l : Loader) (c : Chair) (o : Option Chair) :
    (s.makeOffer l c o).windows = s.windows := rfl

/-- An offer of a CALLING loader to a listed chair, without an offerer, is one of the walk's. -/
theorem State.makeOffer_walked {s : State} {l : Loader} {c : Chair} {w : Word32} (hl : s.auth[l].state = .calling w)
    (hc : c ∈ s.freeList) : s.Walked (s.makeOffer l c none) where
  auth k := by
    by_cases hk : l = k
    · subst hk
      exact .inr ⟨w, c, s.offerCounter + 1, hl, by
        simp only [State.makeOffer_auth, putAt_same, hl, AuthState.holder, AuthState.offerOrigin]⟩
    · exact .inl (by simp only [State.makeOffer_auth, putAt_other _ _ hk])
  chairs x := by
    by_cases hx : c = x
    · subst hx
      exact .inr ⟨hc, by simp, l, w, s.offerCounter + 1, s.tables.device.offerTimeout, by simp, by
        simp only [State.makeOffer_auth, putAt_same, hl, AuthState.holder, AuthState.offerOrigin]⟩
    · exact .inl ⟨by simp only [State.makeOffer_chairs, putAt_other _ _ hx], fun hm => by simp [hm, Ne.symm hx]⟩
  freeList := List.filter_sublist
  windows := s.makeOffer_windows l c none
  rest := s.makeOffer_rest l c none

/-- One entry of a loader that calls makes at most one such offer. -/
theorem State.walkOne_walked {s : State} {e : CallEntry} (he : s.auth[e.loader].state = .calling e.stamp) :
    s.Walked (s.walkOne e) := by
  unfold State.walkOne
  split
  · next c hc => exact State.makeOffer_walked he (List.mem_of_find?_eq_some hc)
  · exact .refl s

theorem State.QueueCalls.walk {s : State} (h : s.QueueCalls) : s.Walked s.walk := by
  have fold : ∀ (q : List CallEntry) (u : State), (∀ e ∈ q, u.auth[e.loader].state = .calling e.stamp) →
      (q.map (·.loader)).Nodup → u.Walked (q.foldl State.walkOne u) := by
    intro q
    induction q with
    | nil => intro u _ _; exact .refl u
    | cons e q ih =>
      intro u hc hn
      rw [List.map_cons, List.nodup_cons] at hn
      refine (State.walkOne_walked (hc e List.mem_cons_self)).trans (ih _ (fun f hf => ?_) hn.2)
      have hne : f.loader ≠ e.loader := fun hfe => hn.1 (hfe ▸ List.mem_map_of_mem hf)
      rw [State.walkOne_auth_other u e hne]
      exact hc f (List.mem_cons_of_mem _ hf)
  exact fold s.callQueue s h.calling h.nodup

/-- Outside a cycle start, an event ends with offers of the walk at most. -/
theorem State.QueueCalls.finish {s : State} (h : s.QueueCalls) (hs : s.cycleStarting = false) : s.Walked s.finish := by
  obtain ⟨hc, -⟩ | ⟨-, -, hf⟩ | ⟨-, -, hf⟩ := s.finish_cases
  · exact absurd (hs.symm.trans hc) Bool.false_ne_true
  · obtain ⟨ha, hc, hl, hw, hr⟩ := State.Walked.refl s
    rw [hf]
    exact ⟨ha, hc, hl, hw, hr⟩
  · obtain ⟨ha, hc, hl, hw, hr⟩ := h.walk
    rw [hf]
    exact ⟨ha, hc, hl, hw, hr⟩

/-- A record that a request left alone is kept through the walk that follows. -/
theorem State.Walked.kept {s u t : State} (h : u.Walked t) {k : Loader} (ha : u.auth[k] = s.auth[k])
    (ht : u.tables = s.tables) : s.Kept t k := by
  obtain hk | ⟨w, x, n, hc, hk⟩ := h.auth k
  · exact .inl (hk.trans ha)
  · refine .inr ?_
    rw [ha] at hc hk
    simp only [State.walkOffered, hc, hk, ht, decide_true, Bool.and_self]

/-! ## A chair that has left its place (R3, R45) -/

/-- Before the walk, the chair has left its place since s: it is IDLE, and on the Free Chair List exactly if it is available,
behind every chair that was there. -/
structure State.HasLeft (s u : State) (x : Chair) : Prop where
  idle : u.chairs[x].status = .idle
  disengaged : u.chairs[x].engaged = none
  freeList : u.freeList.Sublist (s.freeList.filter (· ≠ x) ++ [x])
  listed : if u.chairs[x].available = true then u.chairs[x].idleSince = s.timer.number ∧ x ∈ u.freeList
    else x ∉ u.freeList

/-- A release of a present chair that was not listed. -/
theorem State.release_hasLeft {s v : State} {x : Chair} (ht : v.timer = s.timer) (hf : v.freeList = s.freeList)
    (hp : v.chairs[x].status ≠ .absent) (hx : x ∉ s.freeList) : s.HasLeft (v.release x) x := by
  cases ha : v.chairs[x].available
  · have hs : s.freeList.filter (· ≠ x) = s.freeList :=
      List.filter_eq_self.mpr fun y hy => decide_eq_true (ne_of_mem_of_not_mem hy hx)
    rw [State.release_unavailable hp ha]
    refine ⟨by simp, by simp, ?_, by simp [-Fin.getElem_fin, ha, hf, hx]⟩
    rw [State.setChair_freeList, hf, hs]
    exact List.sublist_append_left _ _
  · rw [State.release_available hp ha]
    constructor <;> simp [-Fin.getElem_fin, ha, ht, hf]

/-- What keeps the Chair Table and the Free Chair List keeps a chair's leaving. -/
theorem State.HasLeft.congr {s u v : State} {x : Chair} (h : s.HasLeft u x) (hc : v.chairs = u.chairs)
    (hf : v.freeList = u.freeList) : s.HasLeft v x := by
  constructor
  · rw [hc, h.idle]
  · rw [hc, h.disengaged]
  · rw [hf]
    exact h.freeList
  · rw [hc, hf]
    exact h.listed

/-- A chair's leaving depends on the timer and the Free Chair List of the state it is told from. -/
theorem State.HasLeft.since {s s' u : State} {x : Chair} (h : s'.HasLeft u x) (ht : s'.timer = s.timer)
    (hf : s'.freeList = s.freeList) : s.HasLeft u x := by
  obtain ⟨hi, hd, hs, hl⟩ := h
  rw [hf] at hs
  rw [ht] at hl
  exact ⟨hi, hd, hs, hl⟩

@[simp] theorem State.beginMatching_chairs (s : State) (l : Loader) (h : Option Chair) (c : Chair) (o : Origin)
    (r : Option Chair) : (s.beginMatching l h c o r).chairs =
      putAt s.chairs c { s.chairs[c] with status := .candidate, engaged := some l } := rfl

@[simp] theorem State.beginMatching_freeList (s : State) (l : Loader) (h : Option Chair) (c : Chair) (o : Origin)
    (r : Option Chair) : (s.beginMatching l h c o r).freeList = s.freeList.filter (· ≠ c) := rfl

@[simp] theorem State.beginMatching_windows (s : State) (l : Loader) (h : Option Chair) (c : Chair) (o : Origin)
    (r : Option Chair) : (s.beginMatching l h c o r).windows = putAt s.windows l [] := rfl

/-- Another chair's matching keeps a chair's leaving. -/
theorem State.HasLeft.beginMatching {s u : State} {x c : Chair} (h : s.HasLeft u x) (hx : x ≠ c) (l : Loader)
    (holder : Option Chair) (o : Origin) (r : Option Chair) : s.HasLeft (u.beginMatching l holder c o r) x := by
  obtain ⟨hi, hd, hs, hl⟩ := h
  constructor
  · rwa [State.beginMatching_chairs, putAt_other _ _ hx.symm]
  · rwa [State.beginMatching_chairs, putAt_other _ _ hx.symm]
  · exact List.filter_sublist.trans hs
  · simpa only [State.beginMatching_chairs, putAt_other _ _ hx.symm, State.beginMatching_freeList, List.mem_filter,
      decide_eq_true hx, and_true] using hl

/-- Of a list that ends in x alone, a part that has x ends in it. -/
theorem getLast?_of_sublist {α : Type} {xs ys : List α} {x : α} (h : xs.Sublist (ys ++ [x])) (hy : x ∉ ys)
    (hx : x ∈ xs) : xs.getLast? = some x := by
  obtain ⟨a, b, rfl, ha, hb⟩ := List.sublist_append_iff.mp h
  have hb' : x ∈ b := (List.mem_append.mp hx).resolve_left fun hm => hy (ha.subset hm)
  rw [List.sublist_singleton.mp hb |>.resolve_left (List.ne_nil_of_mem hb')]
  exact List.getLast?_concat

/-- A chair that has left its place has rejoined once the walk that follows is over. -/
theorem State.HasLeft.rejoined {s u t : State} {x : Chair} (h : s.HasLeft u x) (hw : u.Walked t) : s.Rejoined t x := by
  obtain ⟨hi, hd, hs, hl⟩ := h
  have hst := hw.freeList.trans hs
  obtain ⟨hc, hk⟩ | ⟨hm, hn, k, w, n, timer, hc, ha⟩ := hw.chairs x
  · refine ⟨?_, hst, ?_⟩
    · simp only [State.idleAgain, hc, hi, hd]
    · rw [hc]
      split at hl
      · next hav =>
        rw [if_pos hav]
        exact ⟨hl.1, fun _ => getLast?_of_sublist hst (by simp) (hk hl.2)⟩
      · next hav =>
        rw [if_neg hav]
        exact fun hx => hl (hw.freeList.subset hx)
  · refine ⟨?_, hst, ?_⟩
    · simp only [State.idleAgain, hc, ha, decide_true]
    · rw [hc]
      split at hl
      · next hav =>
        rw [if_pos hav]
        exact ⟨hl.1, fun hidle => nomatch hidle⟩
      · exact absurd hm hl

/-! ## A request that reaches the Authority Table (R13, R37) -/

/-- Nothing but the authority differs between states with the same rest. -/
theorem State.onlyAuthority_of_rest {s t : State} (hr : t.rest = s.rest) (hw : t.walkCalled = s.walkCalled) :
    s.OnlyAuthority t := by
  cases s
  cases t
  simp only [State.rest, Rest.mk.injEq] at hr
  simp only [State.OnlyAuthority, State.mk.injEq]
  simp_all

section refreshPresence
variable (s : State) (c : Chair)

/-- A presence reload writes presence counts alone. -/
theorem State.refreshPresence_chair (d : Chair) :
    ∃ n, (s.refreshPresence c).chairs[d] = { s.chairs[d] with presence := n } := by
  unfold State.refreshPresence
  split
  · exact ⟨_, rfl⟩
  · simp only [State.setChair_chairs, putAt_get]
    split
    · next h =>
      subst h
      exact ⟨_, rfl⟩
    · exact ⟨_, rfl⟩

@[simp] theorem State.refreshPresence_auth : (s.refreshPresence c).auth = s.auth := by
  unfold State.refreshPresence; split <;> rfl

@[simp] theorem State.refreshPresence_freeList : (s.refreshPresence c).freeList = s.freeList := by
  unfold State.refreshPresence; split <;> rfl

@[simp] theorem State.refreshPresence_callQueue : (s.refreshPresence c).callQueue = s.callQueue := by
  unfold State.refreshPresence; split <;> rfl

@[simp] theorem State.refreshPresence_walkCalled : (s.refreshPresence c).walkCalled = s.walkCalled := by
  unfold State.refreshPresence; split <;> rfl

@[simp] theorem State.refreshPresence_windows : (s.refreshPresence c).windows = s.windows := by
  unfold State.refreshPresence; split <;> rfl

@[simp] theorem State.refreshPresence_beacons : (s.refreshPresence c).beacons = s.beacons := by
  unfold State.refreshPresence; split <;> rfl

@[simp] theorem State.refreshPresence_tables : (s.refreshPresence c).tables = s.tables :=
  congrArg Rest.tables (s.refreshPresence_rest c)

@[simp] theorem State.refreshPresence_status : (s.refreshPresence c).status = s.status :=
  congrArg Rest.status (s.refreshPresence_rest c)

@[simp] theorem State.refreshPresence_lines : (s.refreshPresence c).lines = s.lines :=
  congrArg Rest.lines (s.refreshPresence_rest c)

@[simp] theorem State.refreshPresence_timer : (s.refreshPresence c).timer = s.timer :=
  congrArg Rest.timer (s.refreshPresence_rest c)

@[simp] theorem State.refreshPresence_chairStatus (d : Chair) :
    (s.refreshPresence c).chairs[d].status = s.chairs[d].status := by
  obtain ⟨n, hn⟩ := s.refreshPresence_chair c d
  rw [hn]

end refreshPresence

theorem State.QueueCalls.refreshPresence {s : State} (h : s.QueueCalls) (c : Chair) :
    (s.refreshPresence c).QueueCalls := by
  constructor
  · simpa only [State.refreshPresence_callQueue, State.refreshPresence_auth] using h.calling
  · simpa only [State.refreshPresence_callQueue] using h.nodup

/-- A request that is refused leaves the presence count reloaded, the notice sent and the count made: nothing else. -/
theorem State.Quiet.finish_refused {s : State} (h : s.Quiet) (c : Chair) (tag : Word16) (l : Option Loader) (why : Reason) :
    ((s.refreshPresence c).refuse c tag l why).finish = (s.refreshPresence c).refuse c tag l why :=
  State.finish_quiet h (s.refreshPresence_walkCalled c) (s.refreshPresence_beacons c) (s.refreshPresence_auth c)
    (s.refreshPresence_status c) (s.refreshPresence_tables c)

/-- A request that passes the common checks goes on to the checks of its own rule. -/
theorem State.Asks.authorityRequest {s : State} {f : Frame} {c : Chair} {l : Loader} (h : s.Asks f c l) (tag : Word16)
    (k : State → Loader → State) :
    (s.refreshPresence c).authorityRequest c f.header.loader tag true k = k (s.refreshPresence c) l := by
  obtain ⟨-, hp, hl, he, hpm⟩ := h
  have he' : (s.refreshPresence c).enabled l = true := by rwa [State.enabled, s.refreshPresence_tables c]
  have hpm' : (s.refreshPresence c).permits c l = true := by rwa [State.permits, s.refreshPresence_tables c]
  simp only [State.authorityRequest, s.refreshPresence_chairStatus, hp, if_false, hl, he', hpm', Bool.not_true,
    Bool.false_eq_true]

/-! ## TAKE of a supervisor (R23, R24) -/

/-- The parties that a supervisor's TAKE sends away: an offered chair, a candidate, a retained holder. -/
def AuthState.SentAway (a : AuthState) (x : Chair) : Prop :=
  a.offeredChair = some x ∨ a.candidate = some x ∨ (a.isStanding = true ∧ a.holder = some x)

/-- A party that is sent away has a place in the record. -/
theorem AuthState.SentAway.place {a : AuthState} {x : Chair} (h : a.SentAway x) :
    ∃ p ∈ a.placesOf x, p ≠ .idle ∧ p ≠ .absent := by
  obtain h | h | ⟨-, h⟩ := h
  · exact ⟨.offered, by simp [AuthState.placesOf, h], by decide, by decide⟩
  · exact ⟨.candidate, by simp [AuthState.placesOf, h], by decide, by decide⟩
  · exact ⟨.holding, by simp [AuthState.placesOf, h], by decide, by decide⟩

@[simp] theorem AuthState.sentAway_free (x : Chair) : ¬ AuthState.free.SentAway x := by
  simp [AuthState.SentAway, AuthState.offeredChair, AuthState.candidate, AuthState.isStanding]

@[simp] theorem AuthState.sentAway_calling (w : Word32) (x : Chair) : ¬ (AuthState.calling w).SentAway x := by
  simp [AuthState.SentAway, AuthState.offeredChair, AuthState.candidate, AuthState.isStanding]

@[simp] theorem AuthState.sentAway_held (h x : Chair) : ¬ (AuthState.held h).SentAway x := by
  simp [AuthState.SentAway, AuthState.offeredChair, AuthState.candidate, AuthState.isStanding]

@[simp] theorem AuthState.sentAway_releasing (n : Nat) (x : Chair) : ¬ (AuthState.releasing n).SentAway x := by
  simp [AuthState.SentAway, AuthState.offeredChair, AuthState.candidate, AuthState.isStanding]

@[simp] theorem AuthState.sentAway_offered (h y o n r m x) : (AuthState.offered h y o n r m).SentAway x ↔ y = x := by
  simp [AuthState.SentAway, AuthState.offeredChair, AuthState.candidate, AuthState.isStanding]

@[simp] theorem AuthState.sentAway_matching (h y o r m x) : (AuthState.matching h y o r m).SentAway x ↔ y = x := by
  simp [AuthState.SentAway, AuthState.offeredChair, AuthState.candidate, AuthState.isStanding]

@[simp] theorem AuthState.sentAway_standing (h cause x) : (AuthState.standing h cause).SentAway x ↔ h = some x := by
  simp [AuthState.SentAway, AuthState.offeredChair, AuthState.candidate, AuthState.isStanding, AuthState.holder]

/-- The state v is s once the other parties of loader l have left for a supervisor's TAKE (R24): the epoch has advanced for a
retained holder, the loader is out of the queue, and who is sent away has left its place. -/
structure State.Cleared (s : State) (l : Loader) (v : State) : Prop where
  auth : ∃ b, v.auth = putAt s.auth l ⟨b,
    if s.auth[l].state.isStanding && s.auth[l].state.holder.isSome then s.auth[l].epoch + 1 else s.auth[l].epoch⟩
  callQueue : v.callQueue = s.callQueue.filter (·.loader ≠ l)
  windows : ∃ w, v.windows = putAt s.windows l w
  rest : v.rest = s.rest
  left : ∀ x, s.auth[l].state.SentAway x → s.chairs[x].status ≠ .absent → x ∉ s.freeList → s.HasLeft v x

section cleared
variable {s v : State} {l : Loader}

/-- With no retained holder to drop, the record is the one the epoch's rule gives. -/
theorem State.auth_of_no_retained (h : ¬ (s.auth[l].state.isStanding = true ∧ s.auth[l].state.holder.isSome = true)) :
    s.auth = putAt s.auth l ⟨s.auth[l].state,
      if s.auth[l].state.isStanding && s.auth[l].state.holder.isSome then s.auth[l].epoch + 1 else s.auth[l].epoch⟩ := by
  rw [if_neg (by rwa [Bool.and_eq_true])]
  exact (putAt_self _ _).symm

/-- A loader without such parties is clear, out of the queue. -/
theorem State.cleared_nobody (hn : ∀ x, ¬ s.auth[l].state.SentAway x) (ha : v.auth = s.auth)
    (hq : v.callQueue = s.callQueue.filter (·.loader ≠ l)) (hw : v.windows = s.windows) (hr : v.rest = s.rest) :
    s.Cleared l v where
  auth := by
    refine ⟨_, ha.trans (State.auth_of_no_retained fun ⟨hs, hh⟩ => ?_)⟩
    obtain ⟨x, hx⟩ := Option.isSome_iff_exists.mp hh
    exact hn x (.inr (.inr ⟨hs, hx⟩))
  callQueue := hq
  windows := ⟨s.windows[l], by rw [hw, putAt_self]⟩
  rest := hr
  left x hx := absurd hx (hn x)

/-- A loader without such parties that is not CALLING is clear as it stands. -/
theorem State.cleared_already (hq : s.QueueCalls) (hc : s.auth[l].state.isCalling = false)
    (hn : ∀ x, ¬ s.auth[l].state.SentAway x) (r : Report) : s.Cleared l { s with rep := r } :=
  State.cleared_nobody hn rfl (hq.filter_eq hc).symm rfl rfl

/-- A CALLING loader is clear once it is out of the queue. -/
theorem State.cleared_calling {w} (h : s.auth[l].state = .calling w) (r : Report) :
    s.Cleared l ({ s with rep := r }.dequeue l) :=
  State.cleared_nobody (h ▸ AuthState.sentAway_calling w) rfl rfl rfl rfl

/-- An OFFERED loader is clear once its offer has ended. -/
theorem State.cleared_offered (hq : s.QueueCalls) {ho y o n p m} (h : s.auth[l].state = .offered ho y o n p m) (r : Report) :
    s.Cleared l ({ s with rep := r }.offerGone y n) where
  auth := ⟨_, (State.offerGone_auth _ y n).trans
    (State.auth_of_no_retained (by simp [-Fin.getElem_fin, h, AuthState.isStanding]))⟩
  callQueue := by rw [State.offerGone_callQueue, hq.filter_eq (by rw [h]; rfl)]
  windows := ⟨s.windows[l], by rw [State.offerGone_windows, putAt_self]⟩
  rest := State.offerGone_rest _ y n
  left x hx hp hf := by
    rw [h, AuthState.sentAway_offered] at hx
    subst hx
    exact State.release_hasLeft rfl rfl (by rwa [State.setChair_chairs, putAt_same]) hf

/-- A MATCHING loader is clear once its matching has ended. -/
theorem State.cleared_matching (hq : s.QueueCalls) {ho y o p m} (h : s.auth[l].state = .matching ho y o p m) (r : Report) :
    s.Cleared l ({ s with rep := r }.endMatching l y) where
  auth := ⟨_, (State.endMatching_auth _ l y).trans
    (State.auth_of_no_retained (by simp [-Fin.getElem_fin, h, AuthState.isStanding]))⟩
  callQueue := by rw [State.endMatching_callQueue, hq.filter_eq (by rw [h]; rfl)]
  windows := ⟨[], State.endMatching_windows _ l y⟩
  rest := State.endMatching_rest _ l y
  left x hx hp hf := by
    rw [h, AuthState.sentAway_matching] at hx
    subst hx
    exact State.release_hasLeft rfl rfl hp hf

/-- A STANDING loader with a retained holder is clear once that is dropped. -/
theorem State.cleared_standing (hq : s.QueueCalls) {y cause} (h : s.auth[l].state = .standing (some y) cause) (r : Report) :
    s.Cleared l ({ s with rep := r }.dropRetained l) := by
  have hd : { s with rep := r }.dropRetained l =
      (({ s with rep := r }.advanceEpoch l).setAuth l (.standing none cause)).release y := by
    simp only [State.dropRetained, h]
  rw [hd]
  constructor
  case auth =>
    exact ⟨.standing none cause, by simp [-Fin.getElem_fin, h, AuthState.isStanding, AuthState.holder]⟩
  case callQueue =>
    rw [State.release_callQueue, hq.filter_eq (by rw [h]; rfl)]
    rfl
  case windows =>
    exact ⟨s.windows[l], by rw [State.release_windows, putAt_self]; rfl⟩
  case rest =>
    rw [State.release_rest]
    rfl
  case left =>
    intro x hx hp hf
    rw [h, AuthState.sentAway_standing, Option.some_inj] at hx
    subst hx
    exact State.release_hasLeft rfl rfl hp hf

end cleared

/-- A supervisor's TAKE clears the loader of its other parties and begins the matching; besides, it reports, and may call the
arbiter (R24). -/
theorem State.takeSupervisor_begins {s : State} (hq : s.QueueCalls) (c : Chair) (tag : Word16) (l : Loader) :
    let a := s.auth[l].state
    ∃ v r w, s.Cleared l v ∧ s.takeSupervisor c tag l =
      { v.beginMatching l (if a.isStanding then none else a.holder) c .direct none with rep := r, walkCalled := w } := by
  have already {a : AuthState} (h : s.auth[l].state = a) (hc : a.isCalling = false) (hn : ∀ x, ¬ a.SentAway x)
      (r : Report) : s.Cleared l { s with rep := r } := State.cleared_already hq (h ▸ hc) (h ▸ hn) r
  cases h : s.auth[l].state
  all_goals simp only [State.takeSupervisor, h, AuthState.isStanding, AuthState.holder]
  case free => exact ⟨_, _, _, already h rfl AuthState.sentAway_free _, rfl⟩
  case held holder => exact ⟨_, _, _, already h rfl (AuthState.sentAway_held holder) _, rfl⟩
  case releasing n => exact ⟨_, _, _, already h rfl (AuthState.sentAway_releasing n) _, rfl⟩
  case calling => exact ⟨_, _, _, State.cleared_calling h _, rfl⟩
  case offered holder y o n p m =>
    obtain ⟨r, hr⟩ : ∃ r, (s.done c tag l (s.auth[l].epoch + 1) 0 s.tables.device.matchTimeout).withdrawn l y n .preempted
        = { s with rep := r } := ⟨_, rfl⟩
    rw [hr]
    exact ⟨_, _, _, State.cleared_offered hq h r, rfl⟩
  case matching holder y o p m =>
    obtain ⟨r, hr⟩ : ∃ r, (s.done c tag l (s.auth[l].epoch + 1) 0 s.tables.device.matchTimeout).aborted l y .preempted
        = { s with rep := r } := ⟨_, rfl⟩
    rw [hr]
    exact ⟨_, _, _, State.cleared_matching hq h r, rfl⟩
  case standing retained cause =>
    cases retained with
    | none => exact ⟨_, _, _, already h rfl (by simp) _, rfl⟩
    | some y =>
      obtain ⟨r, hr⟩ : ∃ r, (s.done c tag l (s.auth[l].epoch + 2) 0 s.tables.device.matchTimeout).lost l y c
        (s.auth[l].epoch + 1) .taken = { s with rep := r } := ⟨_, rfl⟩
      simp only [State.dropTaken, State.done_auth, hr]
      exact ⟨_, _, _, State.cleared_standing hq h r, rfl⟩

section takeSupervisor
variable {s : State} (hq : s.QueueCalls) (c : Chair) (tag : Word16) (l : Loader)
include hq

/-- The record after the TAKE: MATCHING with the supervisor, a driving holder kept, a retained one dropped with the epoch
advanced. -/
theorem State.takeSupervisor_auth :
    let a := s.auth[l].state
    (s.takeSupervisor c tag l).auth = putAt s.auth l
      ⟨.matching (if a.isStanding then none else a.holder) c .direct none s.tables.device.matchTimeout,
        if a.isStanding && a.holder.isSome then s.auth[l].epoch + 1 else s.auth[l].epoch⟩ := by
  obtain ⟨v, r, w, hv, hu⟩ := State.takeSupervisor_begins hq c tag l
  obtain ⟨b, hb⟩ := hv.auth
  have ht : v.tables = s.tables := congrArg Rest.tables hv.rest
  rw [hu]
  simp only [State.beginMatching_auth, hb, ht, putAt_putAt, putAt_same]

theorem State.takeSupervisor_windows : (s.takeSupervisor c tag l).windows = putAt s.windows l [] := by
  obtain ⟨v, r, w, hv, hu⟩ := State.takeSupervisor_begins hq c tag l
  obtain ⟨b, hb⟩ := hv.windows
  rw [hu]
  simp only [State.beginMatching_windows, hb, putAt_putAt]

/-- The TAKE takes the loader out of the queue, and leaves the rest of it to call. -/
theorem State.takeSupervisor_queueCalls : (s.takeSupervisor c tag l).QueueCalls := by
  refine hq.dequeued (State.takeSupervisor_auth hq c tag l) ?_
  obtain ⟨v, r, w, hv, hu⟩ := State.takeSupervisor_begins hq c tag l
  rw [hu]
  exact hv.callQueue

/-- The supervisor is the candidate, and off the Free Chair List. -/
theorem State.takeSupervisor_candidate :
    let u := s.takeSupervisor c tag l
    u.chairs[c].status = .candidate ∧ u.chairs[c].engaged = some l ∧ c ∉ u.freeList := by
  obtain ⟨v, r, w, -, hu⟩ := State.takeSupervisor_begins hq c tag l
  rw [hu]
  simp [-Fin.getElem_fin]

/-- Who is sent away has left its place. -/
theorem State.takeSupervisor_hasLeft {x : Chair} (hx : s.auth[l].state.SentAway x) (hc : x ≠ c)
    (hp : s.chairs[x].status ≠ .absent) (hl : x ∉ s.freeList) : s.HasLeft (s.takeSupervisor c tag l) x := by
  obtain ⟨v, r, w, hv, hu⟩ := State.takeSupervisor_begins hq c tag l
  rw [hu]
  exact ((hv.left x hx hp hl).beginMatching hc l _ .direct none).congr rfl rfl

end takeSupervisor

theorem State.refreshPresence_standCondition (s : State) (c : Chair) (l : Loader) :
    (s.refreshPresence c).standCondition l = s.standCondition l := by
  simp only [State.standCondition, State.zoneInterlocked, State.lineCounts, State.refreshPresence_tables,
    State.refreshPresence_status, State.refreshPresence_lines]

/-- The checks of R23 read nothing that a presence reload writes. -/
theorem State.refreshPresence_takeSupervisorChecks (s : State) (c : Chair) (l : Loader) :
    (s.refreshPresence c).takeSupervisorChecks c l = s.takeSupervisorChecks c l := by
  unfold State.takeSupervisorChecks
  rw [State.refreshPresence_chairStatus, State.refreshPresence_auth, State.refreshPresence_tables,
    State.refreshPresence_standCondition]

/-- The whole effect of a supervisor's TAKE, with the walk that may follow it (R23, R24, R52). -/
theorem State.takeSupervisor_finish {s u : State} (hr : s.RecordsAgree) (hdue : s.due = []) (hwalk : s.walkCalled = false)
    {c : Chair} (hc : s.chairs[c].status = .idle) {tag : Word16} {l : Loader}
    (hu : (s.refreshPresence c).takeSupervisor c tag l = u) :
    let a := s.auth[l].state
    let t := u.finish
    t.auth[l] = ⟨.matching (if a.isStanding then none else a.holder) c .direct none s.tables.device.matchTimeout,
        if a.isStanding && a.holder.isSome then s.auth[l].epoch + 1 else s.auth[l].epoch⟩
      ∧ t.chairs[c].status = .candidate ∧ t.chairs[c].engaged = some l ∧ t.windows = putAt s.windows l []
      ∧ (∀ x : Chair, a.SentAway x → s.Rejoined t x)
      ∧ (∀ k : Loader, k ≠ l → s.Kept t k) ∧ s.OnlyAuthority t := by
  intro a t
  obtain ⟨hcall, hfree, hplaces, -⟩ := hr
  have hq := hcall.queueCalls.refreshPresence c
  have hrest : u.rest = s.rest := by rw [← hu, State.takeSupervisor_rest, State.refreshPresence_rest]
  have hdue' : u.due = [] := (congrArg Rest.due hrest).trans hdue
  have hstart : u.cycleStarting = false := State.cycleStarting_of_following (by rw [State.following, hdue', List.filter_nil])
  have hauth := State.takeSupervisor_auth hq c tag l
  have hwin := State.takeSupervisor_windows hq c tag l
  have hqu := State.takeSupervisor_queueCalls hq c tag l
  obtain ⟨hst, heng, hlist⟩ := State.takeSupervisor_candidate hq c tag l
  simp only [State.refreshPresence_auth, State.refreshPresence_tables, State.refreshPresence_windows, hu]
    at hauth hwin hqu hst heng hlist
  have hw : u.Walked t := hqu.finish hstart
  have hchair : t.chairs[c] = u.chairs[c] := hw.chair_of_not_listed hlist
  refine ⟨?_, by rw [hchair, hst], by rw [hchair, heng], by rw [hw.windows, hwin], fun x hx => ?_, fun k hk => ?_, ?_⟩
  · rw [hw.auth_of_not_calling (by rw [hauth, putAt_same]; rfl), hauth, putAt_same]
  · obtain ⟨p, hp, hidle, hpresent⟩ := hx.place
    obtain ⟨-, hxs⟩ := hplaces.place hp
    have hxc : x ≠ c := fun h => hidle (by rw [← hxs, h, hc])
    have hleft := State.takeSupervisor_hasLeft hq c tag l (x := x) (by rwa [State.refreshPresence_auth]) hxc
      (by rwa [State.refreshPresence_chairStatus, hxs])
      (by rw [State.refreshPresence_freeList]; exact hfree.not_listed (by rwa [hxs]))
    rw [hu] at hleft
    exact (hleft.since (s.refreshPresence_timer c) (s.refreshPresence_freeList c)).rejoined hw
  · exact hw.kept (by rw [hauth, putAt_other _ _ hk.symm]) (congrArg Rest.tables hrest)
  · refine State.onlyAuthority_of_rest ((State.finish_rest u).trans hrest) ?_
    rw [hwalk]
    exact Bool.eq_false_iff.mpr fun h => Bool.false_ne_true (hstart.symm.trans (State.finish_walkCalled h))

/-- A supervisor that may take the loader is IDLE (R23, first check). -/
theorem State.idle_of_takeSupervisorChecks {s : State} {c : Chair} {l : Loader} (h : s.takeSupervisorChecks c l = none) :
    s.chairs[c].status = .idle := by
  by_contra hi
  simp only [State.takeSupervisorChecks, ne_eq, hi, not_false_eq_true, if_true, reduceCtorEq] at h

section execTake
variable {s : State} {h : Header} {tag : Word16} {c : Chair} {l : Loader}
  (ha : s.Asks (requestFrame h 0x10 tag []) c l) (hs : s.tables.chairs[c].supervisor = true)
include ha

/-- A TAKE that passes the common checks is its requester's frame, so its presence is reloaded first (R37). -/
theorem State.Asks.exec_take :
    exec (.take h tag []) s = .next ((s.refreshPresence c).takeRequest c h.loader tag []).finish :=
  congrArg _ (ha.1.chairCommand _)

include hs

theorem State.Asks.exec_take_refused {why : Reason} (hc : s.takeSupervisorChecks c l = some why) :
    exec (.take h tag []) s = .next ((s.refreshPresence c).refuse c tag (some l) why) := by
  have hreq : (s.refreshPresence c).takeRequest c h.loader tag [] = (s.refreshPresence c).refuse c tag (some l) why :=
    (ha.authorityRequest tag _).trans (by
      simp only [State.refreshPresence_tables, hs, if_true, State.refreshPresence_takeSupervisorChecks, hc])
  obtain ⟨⟨hquiet, -⟩, -⟩ := ha.1
  rw [ha.exec_take, hreq, hquiet.finish_refused]

theorem State.Asks.exec_take_admitted (hc : s.takeSupervisorChecks c l = none) :
    exec (.take h tag []) s = .next ((s.refreshPresence c).takeSupervisor c tag l).finish := by
  have hreq : (s.refreshPresence c).takeRequest c h.loader tag [] = (s.refreshPresence c).takeSupervisor c tag l :=
    (ha.authorityRequest tag _).trans (by
      simp only [State.refreshPresence_tables, hs, if_true, State.refreshPresence_takeSupervisorChecks, hc])
  rw [ha.exec_take, hreq]

end execTake

end Sys2Proof.Machine

namespace Sys2Proof

open Machine

/-- Settles O34: the checks are those of R23, and where they pass, the other parties leave, the matching begins, and the
walk that may follow touches neither the loader nor the supervisor. -/
theorem supervisorTakesTheLoader : Obligations.SupervisorTakesTheLoader := by
  intro s h tag c l ha hr hs a reason
  have hreason : s.takeSupervisorChecks c l = reason := by
    simp only [reason, a, State.takeSupervisorChecks, State.standCondition]
    cases s.auth[l].state <;> simp [or_assoc]
  rw [← hreason]
  split
  · next why hc => exact ha.exec_take_refused hs hc
  · next hc =>
    obtain ⟨⟨⟨hdue, -, hwalk, -⟩, -⟩, -⟩ := ha.1
    exact ⟨_, ha.exec_take_admitted hs hc,
      State.takeSupervisor_finish hr hdue hwalk (State.idle_of_takeSupervisorChecks hc) rfl⟩

end Sys2Proof
end

section
/-! The arithmetic of the governor and of the clamp (R79, R80): a governor is a fraction of 256, from nothing at 0 to the
whole value at 256; a clamp to limits that are in order lands between them and leaves what lies there already. -/

namespace Sys2Proof.Machine

open Sys2Proof

section govern
variable (v : Int)

@[simp] theorem govern_whole : govern 256 v = v := Int.mul_tdiv_cancel v (by decide)

@[simp] theorem govern_zero : govern 0 v = 0 := by simp [govern]

/-- The fraction is dropped the same way for both signs. -/
theorem govern_neg (g : Nat) : govern g (-v) = -govern g v := by
  rw [govern, Int.neg_mul, Int.neg_tdiv, govern]

theorem natAbs_govern (g : Nat) : (govern g v).natAbs = v.natAbs * g / 256 := by
  rw [govern, Int.natAbs_tdiv, Int.natAbs_mul, Int.natAbs_natCast]
  rfl

/-- No governor raises a value. -/
theorem natAbs_govern_le {g : Nat} (hg : g ≤ 256) : (govern g v).natAbs ≤ v.natAbs := by
  have hscale : v.natAbs * g ≤ v.natAbs * 256 := Nat.mul_le_mul_left _ hg
  rw [natAbs_govern]
  omega

end govern

section clamp
variable {x : AxisLimits}

theorem AxisLimits.lo_le_clamp (h : x.lo ≤ x.hi) (v : Int) : x.lo ≤ x.clamp v := by
  unfold AxisLimits.clamp
  split_ifs <;> omega

theorem AxisLimits.clamp_le_hi (h : x.lo ≤ x.hi) (v : Int) : x.clamp v ≤ x.hi := by
  unfold AxisLimits.clamp
  split_ifs <;> omega

theorem AxisLimits.clamp_of_between {v : Int} (hlo : x.lo ≤ v) (hhi : v ≤ x.hi) : x.clamp v = v := by
  rw [AxisLimits.clamp, if_neg (by omega), if_neg (by omega)]

/-- Valid limits hold 0 between them and lie within the range of an axis. -/
theorem AxisLimits.bounds_of_valid (h : x.valid = true) : -2047 ≤ x.lo ∧ x.lo ≤ 0 ∧ 0 ≤ x.hi ∧ x.hi ≤ 2047 := by
  simp only [AxisLimits.valid, Bool.and_eq_true, decide_eq_true_eq] at h
  obtain ⟨⟨⟨⟨⟨hmin, hlo⟩, hhi⟩, hmax⟩, -⟩, -⟩ := h
  exact ⟨hmin, hlo, hhi, hmax⟩

theorem AxisLimits.clamp_of_valid (h : x.valid = true) (v : Int) :
    -2047 ≤ x.clamp v ∧ x.clamp v ≤ 2047 ∧ x.clamp 0 = 0 := by
  obtain ⟨hmin, hlo, hhi, hmax⟩ := AxisLimits.bounds_of_valid h
  have hord : x.lo ≤ x.hi := hlo.trans hhi
  exact ⟨hmin.trans (AxisLimits.lo_le_clamp hord v), (AxisLimits.clamp_le_hi hord v).trans hmax,
    AxisLimits.clamp_of_between hlo hhi⟩

end clamp

end Sys2Proof.Machine

namespace Sys2Proof

open Machine

/-- Settles O55: which governor, the power-on value, the scaling, the targets and the clamp are the model's own equations;
what follows from them rests on the governor being at most 256 and on valid limits having 0 between them. -/
theorem governorAndClamp : Obligations.GovernorAndClamp := by
  intro s l e x g a v hg
  exact ⟨rfl, rfl, rfl, govern_whole v, govern_zero v, govern_neg v g, natAbs_govern_le v hg, rfl, rfl,
    fun hx => AxisLimits.clamp_of_valid hx v⟩

end Sys2Proof
end

section
/-! VIEW_OFF (R121): what the request does in each of its cases, and who receives copies whatever the views say (R122). -/

namespace Sys2Proof.Machine

open Sys2Proof

@[simp] theorem State.refreshPresence_views (s : State) (c : Chair) : (s.refreshPresence c).views = s.views :=
  congrArg Rest.views (s.refreshPresence_rest c)

section viewOffRequest
variable {s : State} {c : Chair} {loader : Byte} (tag : Word16)

theorem State.viewOffRequest_absent (hp : s.chairs[c].status = .absent) (args : List Byte) :
    s.viewOffRequest c loader tag args = s.refuse c tag (indexOfByte 16 loader) .notPresent :=
  if_pos hp

theorem State.viewOffRequest_badArgument (hp : s.chairs[c].status ≠ .absent) {args : List Byte}
    (hb : indexOfByte 16 loader = none ∨ args ≠ []) :
    s.viewOffRequest c loader tag args = s.refuse c tag (indexOfByte 16 loader) .badArgument := by
  simp only [State.viewOffRequest, hp, if_false]
  cases hl : indexOfByte 16 loader with
  | none => rfl
  | some l =>
    have hargs : args ≠ [] := hb.resolve_left (by simp [hl])
    simp [hargs]

theorem State.viewOffRequest_done (hp : s.chairs[c].status ≠ .absent) {l : Loader}
    (hl : indexOfByte 16 loader = some l) :
    s.viewOffRequest c loader tag [] =
      (s.setView c l { s.views[c][l] with active := false }).done c tag l s.auth[l].epoch := by
  simp only [State.viewOffRequest, hp, if_false, hl, List.isEmpty_nil, if_true]

end viewOffRequest

/-- An admitted VIEW_OFF is its requester's frame, so its presence is reloaded first (R37). -/
theorem State.Admits.exec_viewOff {s : State} {h : Header} {tag : Word16} {extra : List Byte} {c : Chair}
    (ha : s.Admits (requestFrame h 0x21 tag extra) c) :
    exec (.viewOff h tag extra) s = .next ((s.refreshPresence c).viewOffRequest c h.loader tag extra).finish :=
  congrArg _ (ha.chairCommand _)

/-- A view entry decides no walk and no beacon: a request that writes one and is answered ends as it stands. -/
theorem State.Quiet.finish_setView_done {s : State} (h : s.Quiet) (c : Chair) (tag : Word16) (l : Loader) (e : ViewEntry)
    (epoch : Byte) :
    (((s.refreshPresence c).setView c l e).done c tag l epoch).finish =
      ((s.refreshPresence c).setView c l e).done c tag l epoch :=
  State.finish_quiet h (s.refreshPresence_walkCalled c) (s.refreshPresence_beacons c) (s.refreshPresence_auth c)
    (s.refreshPresence_status c) (s.refreshPresence_tables c)

/-- The holder and the candidate receive copies by their place in the record, whatever their views (R122). -/
theorem State.mem_receivers_of_party {s : State} {c : Chair} {l : Loader}
    (h : s.auth[l].state.holder = some c ∨ s.auth[l].state.candidate = some c) : c ∈ s.receivers l := by
  have hparty : c ∈ s.auth[l].state.holder.toList ++ s.auth[l].state.candidate.toList := by
    simpa only [List.mem_append, Option.mem_toList, Option.mem_def] using h
  exact List.mem_append_left _ hparty

end Sys2Proof.Machine

namespace Sys2Proof

open Machine

/-- Settles O42: the requester's presence reload writes nothing the checks or the answer read, and the walk and the beacons at
the event's end have nothing to do. -/
theorem viewOffEndsTheView : Obligations.ViewOffEndsTheView := by
  intro s h tag extra c ha u named
  have hexec := ha.exec_viewOff
  obtain ⟨⟨hquiet, -⟩, -⟩ := ha
  have hstatus : u.chairs[c].status = s.chairs[c].status := s.refreshPresence_chairStatus c c
  refine ⟨fun hp => ?absent, fun hp hb => ?badArgument, fun l hp hl hx => ⟨?done, fun hparty => ?receives⟩⟩
  case absent =>
    rw [hexec, State.viewOffRequest_absent tag (hstatus.trans hp), hquiet.finish_refused]
  case badArgument =>
    rw [hexec, State.viewOffRequest_badArgument tag (hstatus.trans_ne hp) hb, hquiet.finish_refused]
  case done =>
    subst hx
    have hepoch : (s.refreshPresence c).auth[l].epoch = s.auth[l].epoch := by rw [State.refreshPresence_auth]
    rw [hexec, State.viewOffRequest_done tag (hstatus.trans_ne hp) hl, hquiet.finish_setView_done,
      hepoch, State.setView, State.refreshPresence_views]
  case receives =>
    exact State.mem_receivers_of_party (by simpa only [State.done_auth, State.refreshPresence_auth, u] using hparty)

end Sys2Proof
end

section
/-! Frames that arrive as bursts (R137, R150, R151): a frame within the length its kind needs is read back from its own burst,
so on a link that is UP it goes to the Frame Classifier, which counts a kind its port does not admit and nothing else. -/

namespace Sys2Proof.Machine

open Sys2Proof

/-! ## The burst of a frame, read back (R137, R138, R150) -/

/-- A header and payload, followed by their check word, pass the receive checks. -/
theorem judgeBody_frameBody {f : Frame} (hlen : f.payload.length ≤ maxPayload)
    (hfits : payloadFits f.kind f.payload.length = true) :
    judgeBody (frameBody f ++ bytes16 (checkWord (frameBody f))) = .good f := by
  have hmax : f.payload.length ≤ 256 := hlen
  have hword : (wordOf f.payload.length).toNat = f.payload.length := wordOf_toNat (by omega)
  have hclosed := checkWord_closed (frameBody f)
  generalize checkWord (frameBody f) = w at hclosed ⊢
  simp only [frameBody, bytes16, List.cons_append, List.nil_append] at hclosed ⊢
  simp only [judgeBody, word16_own_bytes, hword, hlen, hfits, hclosed, List.length_append, List.length_cons,
    List.length_nil, decide_true, Bool.and_self, if_true, List.take_left]

/-- A frame is read back from its burst, whatever the marker in force. -/
theorem judgeBurst_frameBurst (marker : Byte) {f : Frame} (hlen : f.payload.length ≤ maxPayload)
    (hfits : payloadFits f.kind f.payload.length = true) : judgeBurst marker (frameBurst marker f) = .good f :=
  (if_pos ⟨rfl, rfl⟩).trans (judgeBody_frameBody hlen hfits)

/-! ## From the burst to the classifier (R149, R151) -/

section receive
variable {s : State} {p : Port} {f : Frame}

theorem State.receiveBurst_good {burst : List Byte} (hl : s.linkIsUp p = true)
    (hj : judgeBurst s.tables.device.marker burst = .good f) : s.receiveBurst p burst = s.classify p f := by
  simp [State.receiveBurst, hl, hj]

/-- Where nothing waits and the link is UP, the burst of a frame is that frame, classified at once. -/
theorem State.Ready.exec_frameBurst (hr : s.Ready) (hl : s.linkIsUp p = true) (hlen : f.payload.length ≤ maxPayload)
    (hfits : payloadFits f.kind f.payload.length = true) :
    exec (.burstReceived p (frameBurst s.tables.device.marker f)) s = .next (s.classify p f).finish :=
  congrArg Host.Outcome.next <|
    (hr.run _).trans (congrArg State.finish (State.receiveBurst_good hl (judgeBurst_frameBurst _ hlen hfits)))

theorem State.classify_wrongPort (h : kindAdmitted p f.kind = false) :
    s.classify p f = s.count (.device wrongPort) := by
  simp [State.classify, h]

/-- An event that only counts calls for no walk and changes no beacon. -/
theorem State.Quiet.finish_count (h : s.Quiet) (id : CounterId) (n : Nat) : (s.count id n).finish = s.count id n :=
  State.finish_quiet h rfl rfl rfl rfl rfl

end receive

/-- The kinds each port admits (R151): commands and requests on the surface port, status on the level ports. -/
theorem kindAdmitted_eq_false_iff (p : Port) (kind : Byte) :
    kindAdmitted p kind = false ↔
      match p with
      | .surface => kind ≠ kindCommand ∧ kind ≠ kindChairRequest ∧ kind ≠ kindMgmtRequest
      | .levelA => kind ≠ kindStatus
      | .levelB => kind ≠ kindStatus := by
  cases p with
  | surface => simp [kindAdmitted, and_assoc]
  | levelA => simp [kindAdmitted]
  | levelB => simp [kindAdmitted]

end Sys2Proof.Machine

namespace Sys2Proof

open Machine

/-- Settles O23: the frame is read back from its burst and classified, its port does not admit its kind, and a count leaves
the event's end nothing to do. -/
theorem wrongPortIsCounted : Obligations.WrongPortIsCounted := by
  intro s p f hr hl hlen hfits hkind
  have hrefused : kindAdmitted p f.kind = false := (kindAdmitted_eq_false_iff p f.kind).mpr hkind
  have hquiet : s.Quiet := hr.1
  rw [hr.exec_frameBurst hl hlen hfits, State.classify_wrongPort hrefused, hquiet.finish_count]

end Sys2Proof
end

section
/-! The records of loaders, chairs, the Call Queue and the Free Chair List in agreement (R3, R34, R44, R46), with one loader's
record set aside: an operation on one loader moves its parties one by one, and the records agree again once the loader's own
record names the parties that are left. -/

namespace Sys2Proof.Machine

open Sys2Proof

/-! ## The places of a chair, loader by loader (R3) -/

/-- The stamp of a loader that calls. -/
def AuthState.callStamp : AuthState → Option Word32
  | .calling stamp => some stamp
  | _ => none

theorem AuthState.callStamp_eq_some {a : AuthState} {w : Word32} : a.callStamp = some w ↔ a = .calling w := by
  cases a <;> simp [AuthState.callStamp]

theorem AuthState.isCalling_eq (a : AuthState) : a.isCalling = a.callStamp.isSome := by
  cases a <;> rfl

/-- A place is one of the three of R3. -/
theorem AuthState.mem_placesOf {a : AuthState} {c : Chair} {p : ChairStatus} (h : p ∈ a.placesOf c) :
    p ≠ .idle ∧ p ≠ .absent := by
  simp only [AuthState.placesOf, List.mem_append] at h
  obtain (h | h) | h := h
  all_goals
    split at h
    · rw [List.mem_singleton] at h; subst h; exact ⟨by decide, by decide⟩
    · exact absurd h List.not_mem_nil

/-- What one loader's record and the chair's own say of its place agree. -/
def State.PlaceAgrees (s : State) (places : List ChairStatus) (l : Loader) (c : Chair) : Prop :=
  places = if s.chairs[c].engaged = some l then [s.chairs[c].status] else []

theorem flatMap_of_single {α β : Type} [DecidableEq α] {k : α} {xs : List α} (hk : k ∈ xs) (hn : xs.Nodup) (ys : List β) :
    (xs.flatMap fun x => if k = x then ys else []) = ys := by
  induction xs with
  | nil => exact absurd hk List.not_mem_nil
  | cons x xs ih =>
    rw [List.nodup_cons] at hn
    rw [List.flatMap_cons]
    by_cases h : k = x
    · subst h
      have hrest : (xs.flatMap fun x => if k = x then ys else []) = [] :=
        List.flatMap_eq_nil_iff.mpr fun y hy => if_neg fun (he : k = y) => hn.1 (by rwa [he])
      rw [if_pos rfl, hrest, List.append_nil]
    · rw [if_neg h, List.nil_append, ih ((List.mem_cons.mp hk).resolve_left h) hn.2]

theorem allLoaders_nodup : allLoaders.Nodup := by decide

/-- A chair has one place at most, and its record is that place: said of each loader's record alone. -/
theorem State.placesRight_iff (s : State) : s.PlacesRight ↔
    ∀ c : Chair, (∀ l : Loader, s.PlaceAgrees (s.auth[l].state.placesOf c) l c) ∧
      (s.chairs[c].engaged = none → s.chairs[c].status = .idle ∨ s.chairs[c].status = .absent) := by
  constructor
  · intro h c
    refine ⟨fun l => ?_, (h c).2⟩
    unfold State.PlaceAgrees
    split
    · next he =>
      have hone : s.placesOf c = [(l, s.chairs[c].status)] := by rw [(h c).1, he]; rfl
      have hsub : ((s.auth[l].state.placesOf c).map fun p => (l, p)).Sublist (s.placesOf c) :=
        List.sublist_flatten_of_mem (List.mem_map.mpr ⟨l, mem_allLoaders l, rfl⟩)
      have hmem : s.chairs[c].status ∈ s.auth[l].state.placesOf c := State.mem_placesOf.mp (by rw [hone]; simp)
      have hlen := hsub.length_le
      rw [hone, List.length_map] at hlen
      obtain ⟨p, hp⟩ := List.length_eq_one_iff.mp (le_antisymm hlen (List.length_pos_of_mem hmem))
      rw [hp, List.mem_singleton] at hmem
      rw [hp, hmem]
    · next he =>
      refine List.eq_nil_iff_forall_not_mem.mpr fun p hp => he (h.place hp).1
  · intro h c
    refine ⟨?_, (h c).2⟩
    have hl := (h c).1
    unfold State.PlaceAgrees at hl
    have hmap (l : Loader) : ((s.auth[l].state.placesOf c).map fun p => (l, p)) =
        if s.chairs[c].engaged = some l then [(l, s.chairs[c].status)] else [] := by
      rw [hl l]
      split <;> rfl
    simp only [State.placesOf, hmap]
    cases he : s.chairs[c].engaged with
    | none => simp
    | some k =>
      have hswap (l : Loader) : (if some k = some l then [(l, s.chairs[c].status)] else []) =
          if k = l then [(k, s.chairs[c].status)] else [] := by
        by_cases h : k = l <;> simp [h]
      simp only [hswap]
      exact flatMap_of_single (mem_allLoaders k) allLoaders_nodup _

/-! ## One loader's record set aside -/

/-- The records agree but for loader l's own, whose parties are those `places` gives and whose call is `call`. The class of its
entry in the Call Queue is left open. -/
structure State.AgreesBut (s : State) (l : Loader) (places : Chair → List ChairStatus) (call : Option Word32) : Prop where
  elsewhere : ∀ k : Loader, k ≠ l → ∀ c : Chair, s.PlaceAgrees (s.auth[k].state.placesOf c) k c
  here : ∀ c : Chair, s.PlaceAgrees (places c) l c
  unplaced : ∀ c : Chair, s.chairs[c].engaged = none → s.chairs[c].status = .idle ∨ s.chairs[c].status = .absent
  free : s.FreeListRight
  queued : ∀ e ∈ s.callQueue, (if e.loader = l then call else s.auth[e.loader].state.callStamp) = some e.stamp
  classed : ∀ e ∈ s.callQueue, e.loader ≠ l → e.cls = s.callClass e.loader
  calls : ∀ k : Loader, (if k = l then call else s.auth[k].state.callStamp).isSome = true → k ∈ s.callQueue.map (·.loader)
  nodup : (s.callQueue.map (·.loader)).Nodup
  disabled : ∀ k : Loader, k ≠ l → s.enabled k = false → s.auth[k].state = .standing none .disabled

/-- Records in agreement, with one set aside. -/
theorem State.RecordsAgree.but {s : State} (h : s.RecordsAgree) (l : Loader) :
    s.AgreesBut l s.auth[l].state.placesOf s.auth[l].state.callStamp := by
  obtain ⟨⟨hq, hc, hn⟩, hf, hp, hd⟩ := h
  rw [State.placesRight_iff] at hp
  have hcall (k : Loader) : (if k = l then s.auth[l].state.callStamp else s.auth[k].state.callStamp) =
      s.auth[k].state.callStamp := by
    split
    · next h => rw [h]
    · rfl
  refine ⟨fun k _ c => (hp c).1 k, fun c => (hp c).1 l, fun c => (hp c).2, hf, fun e he => ?_, fun e he _ => (hq e he).2,
    fun k hk => ?_, hn, fun k _ => hd k⟩
  · rw [hcall, AuthState.callStamp_eq_some]
    exact (hq e he).1
  · rw [hcall, ← AuthState.isCalling_eq] at hk
    exact hc k hk

/-- The record set aside names the parties that are left: the records agree. -/
theorem State.AgreesBut.agree {s : State} {l : Loader} {places : Chair → List ChairStatus} {call : Option Word32}
    (h : s.AgreesBut l places call) (hp : ∀ c, s.auth[l].state.placesOf c = places c)
    (hc : s.auth[l].state.callStamp = call) (hcls : ∀ e ∈ s.callQueue, e.loader = l → e.cls = s.callClass l)
    (hd : s.enabled l = false → s.auth[l].state = .standing none .disabled) : s.RecordsAgree := by
  have hcall (k : Loader) : (if k = l then call else s.auth[k].state.callStamp) = s.auth[k].state.callStamp := by
    split
    · next h => rw [h, hc]
    · rfl
  refine ⟨⟨fun e he => ⟨?_, ?_⟩, fun k hk => ?_, h.nodup⟩, h.free, (State.placesRight_iff s).mpr fun c =>
    ⟨fun k => ?_, h.unplaced c⟩, fun k hk => ?_⟩
  · have hq := h.queued e he
    rwa [hcall, AuthState.callStamp_eq_some] at hq
  · by_cases hl : e.loader = l
    · rw [hcls e he hl, hl]
    · exact h.classed e he hl
  · exact h.calls k (by rwa [hcall, ← AuthState.isCalling_eq])
  · by_cases hl : k = l
    · subst hl
      rw [hp]
      exact h.here c
    · exact h.elsewhere k hl c
  · by_cases hl : k = l
    · subst hl
      exact hd hk
    · exact h.disabled k hl hk

/-- A record set aside that does not call has no entry whose class could be wrong. -/
theorem State.AgreesBut.agree_of_not_calling {s : State} {l : Loader} {places : Chair → List ChairStatus}
    (h : s.AgreesBut l places none) (hp : ∀ c, s.auth[l].state.placesOf c = places c)
    (hc : s.auth[l].state.callStamp = none) (hd : s.enabled l = false → s.auth[l].state = .standing none .disabled) :
    s.RecordsAgree := by
  refine h.agree hp hc (fun e he hl => ?_) hd
  have hq := h.queued e he
  rw [if_pos hl] at hq
  exact absurd hq (by simp)

namespace State.AgreesBut
variable {s t : State} {l : Loader} {places : Chair → List ChairStatus} {call : Option Word32}

/-- What agreement reads of a state, loader l's record apart. -/
theorem congr (h : s.AgreesBut l places call) (ha : ∀ k : Loader, k ≠ l → t.auth[k].state = s.auth[k].state)
    (hc : t.chairs = s.chairs) (hf : t.freeList = s.freeList) (hq : t.callQueue = s.callQueue)
    (hcls : ∀ k : Loader, k ≠ l → t.callClass k = s.callClass k)
    (hen : ∀ k : Loader, k ≠ l → t.enabled k = s.enabled k) : t.AgreesBut l places call := by
  have hcall (k : Loader) : (if k = l then call else t.auth[k].state.callStamp) =
      if k = l then call else s.auth[k].state.callStamp := by
    split
    · rfl
    · next h => rw [ha k h]
  have hplace (ps : List ChairStatus) (k : Loader) (c : Chair) : t.PlaceAgrees ps k c ↔ s.PlaceAgrees ps k c := by
    simp only [State.PlaceAgrees, hc]
  refine ⟨fun k hk c => ?_, fun c => (hplace _ _ _).mpr (h.here c), ?_, ?_, ?_, ?_, ?_, ?_, ?_⟩
  · rw [ha k hk, hplace]
    exact h.elsewhere k hk c
  · rw [hc]
    exact h.unplaced
  · simpa only [State.FreeListRight, hf, hc] using h.free
  · intro e he
    rw [hq] at he
    rw [hcall]
    exact h.queued e he
  · intro e he hl
    rw [hq] at he
    rw [hcls _ hl]
    exact h.classed e he hl
  · intro k hk
    rw [hcall] at hk
    rw [hq]
    exact h.calls k hk
  · rw [hq]
    exact h.nodup
  · intro k hk hdis
    rw [hen k hk] at hdis
    rw [ha k hk]
    exact h.disabled k hk hdis

theorem of_places {places' : Chair → List ChairStatus} (h : s.AgreesBut l places call)
    (hp : ∀ c, places' c = places c) : s.AgreesBut l places' call :=
  { h with here := fun c => by rw [hp c]; exact h.here c }

/-- A chair whose record is written while it is engaged with no other loader: its place here follows its record. -/
theorem setChair (h : s.AgreesBut l places call) {x : Chair} {r : ChairState}
    (helse : ∀ k, k ≠ l → s.chairs[x].engaged ≠ some k) (helse' : ∀ k, k ≠ l → r.engaged ≠ some k)
    (hun : r.engaged = none → r.status = .idle ∨ r.status = .absent)
    (hfree : x ∈ s.freeList → r.status = .idle ∧ r.available = true) :
    (s.setChair x r).AgreesBut l (fun c => if c = x then (if r.engaged = some l then [r.status] else []) else places c)
      call := by
  refine ⟨fun k hk c => ?_, fun c => ?_, fun c hc => ?_, ⟨fun c hc => ?_, h.free.2⟩, h.queued, h.classed, h.calls, h.nodup,
    h.disabled⟩
  · have hs := h.elsewhere k hk c
    by_cases hx : x = c
    · subst hx
      rw [State.PlaceAgrees, if_neg (helse k hk)] at hs
      rw [State.PlaceAgrees, State.setChair_chairs, putAt_same, if_neg (helse' k hk)]
      exact hs
    · simpa only [State.PlaceAgrees, State.setChair_auth, State.setChair_chairs, putAt_other _ _ hx] using hs
  · by_cases hx : x = c
    · subst hx
      simp only [State.PlaceAgrees, State.setChair_chairs, putAt_same, if_true]
    · simpa only [State.PlaceAgrees, State.setChair_chairs, putAt_other _ _ hx, if_neg (Ne.symm hx)] using h.here c
  · by_cases hx : x = c
    · subst hx
      rw [State.setChair_chairs, putAt_same] at hc ⊢
      exact hun hc
    · rw [State.setChair_chairs, putAt_other _ _ hx] at hc ⊢
      exact h.unplaced c hc
  · by_cases hx : x = c
    · subst hx
      rw [State.setChair_chairs, putAt_same]
      exact hfree hc
    · rw [State.setChair_chairs, putAt_other _ _ hx]
      exact h.free.1 c hc

/-- A chair off the list may not be listed twice, and one that is IDLE and available may be listed. -/
theorem relist (h : s.AgreesBut l places call) {xs : List Chair} (hn : xs.Nodup)
    (hx : ∀ c ∈ xs, s.chairs[c].status = .idle ∧ s.chairs[c].available = true) :
    { s with freeList := xs }.AgreesBut l places call :=
  { h with free := ⟨hx, hn⟩ }

theorem leaveList (h : s.AgreesBut l places call) (x : Chair) : (s.leaveList x).AgreesBut l places call :=
  h.relist (h.free.2.filter _) fun c hc => h.free.1 c (List.mem_filter.mp hc).1

/-- A chair that is IDLE and available joins the list. -/
theorem joinList (h : s.AgreesBut l places call) {x : Chair} (hi : s.chairs[x].status = .idle)
    (ha : s.chairs[x].available = true) : (s.joinList x).AgreesBut l places call := by
  have hchair (c : Chair) : ∃ w, (s.joinList x).chairs[c] = { s.chairs[c] with idleSince := w } := by
    rw [State.joinList_chairs, putAt_get]
    split
    · next he => subst he; exact ⟨_, rfl⟩
    · exact ⟨s.chairs[c].idleSince, rfl⟩
  have hplace (ps : List ChairStatus) (k : Loader) (c : Chair) : (s.joinList x).PlaceAgrees ps k c ↔ s.PlaceAgrees ps k c := by
    obtain ⟨w, hw⟩ := hchair c
    simp only [State.PlaceAgrees, hw]
  refine ⟨fun k hk c => (hplace _ _ _).mpr (h.elsewhere k hk c), fun c => (hplace _ _ _).mpr (h.here c), fun c hc => ?_,
    ⟨fun c hc => ?_, ?_⟩, h.queued, h.classed, h.calls, h.nodup, h.disabled⟩
  · obtain ⟨w, hw⟩ := hchair c
    rw [hw] at hc ⊢
    exact h.unplaced c hc
  · obtain ⟨w, hw⟩ := hchair c
    rw [hw]
    rw [State.joinList_freeList, List.mem_append, List.mem_singleton] at hc
    obtain hc | rfl := hc
    · exact h.free.1 c (List.mem_filter.mp hc).1
    · exact ⟨hi, ha⟩
  · rw [State.joinList_freeList]
    refine (h.free.2.filter _).append (List.nodup_singleton x) fun c hc hcx => ?_
    rw [List.mem_singleton] at hcx
    subst hcx
    simpa using (List.mem_filter.mp hc).2

/-- A chair leaves its place with loader l (R3). -/
theorem release (h : s.AgreesBut l places call) {x : Chair} (helse : ∀ k, k ≠ l → s.chairs[x].engaged ≠ some k) :
    (s.release x).AgreesBut l (fun c => if c = x then [] else places c) call := by
  have hnone : ∀ k : Loader, k ≠ l → (none : Option Loader) ≠ some k := fun _ _ h => nomatch h
  by_cases hab : s.chairs[x].status = .absent
  · rw [State.release_absent hab]
    exact (h.setChair (r := { s.chairs[x] with engaged := none }) helse hnone (fun _ => .inr hab) fun hx => absurd (hab.symm.trans (h.free.1 x hx).1) (by decide)).of_places
      fun c => by simp
  · have hfree (hx : x ∈ s.freeList) : ChairStatus.idle = .idle ∧ s.chairs[x].available = true := ⟨rfl, (h.free.1 x hx).2⟩
    cases hav : s.chairs[x].available
    · rw [State.release_unavailable hab hav]
      exact (h.setChair helse hnone (fun _ => .inl rfl) hfree).of_places fun c => by simp
    · rw [State.release_available hab hav]
      refine State.AgreesBut.joinList ?_ (by simp) (by simp [-Fin.getElem_fin, hav])
      exact (h.setChair helse hnone (fun _ => .inl rfl) hfree).of_places fun c => by simp

/-- A chair that is engaged with no other loader takes a place with loader l (R3, R34, R45). -/
theorem engage (h : s.AgreesBut l places call) {x : Chair} (st : ChairStatus)
    (helse : ∀ k, k ≠ l → s.chairs[x].engaged ≠ some k) :
    (s.engage x st l).AgreesBut l (fun c => if c = x then [st] else places c) call := by
  have hx : x ∉ (s.leaveList x).freeList := by simp
  have hset := (h.leaveList x).setChair (x := x) (r := { s.chairs[x] with status := st, engaged := some l }) helse
    (fun k hk he => hk (Option.some.inj he).symm) (fun he => nomatch he) fun hm => absurd hm hx
  exact hset.of_places fun c => by simp

/-- A loader leaves the Call Queue (R49). -/
theorem dequeue (h : s.AgreesBut l places call) : (s.dequeue l).AgreesBut l places none := by
  have hmem (e : CallEntry) : e ∈ (s.dequeue l).callQueue ↔ e ∈ s.callQueue ∧ e.loader ≠ l := by
    rw [State.dequeue_callQueue, List.mem_filter, decide_eq_true_iff]
  refine ⟨h.elsewhere, h.here, h.unplaced, h.free, fun e he => ?_, fun e he => ?_, fun k hk => ?_, ?_, h.disabled⟩
  · obtain ⟨he, hl⟩ := (hmem e).mp he
    have hq := h.queued e he
    rw [if_neg hl] at hq ⊢
    exact hq
  · exact h.classed e ((hmem e).mp he).1
  · by_cases hl : k = l
    · rw [if_pos hl] at hk
      exact absurd hk (by simp)
    · rw [if_neg hl] at hk
      obtain ⟨e, he, rfl⟩ := List.mem_map.mp (h.calls k (by rw [if_neg hl]; exact hk))
      exact List.mem_map.mpr ⟨e, (hmem e).mpr ⟨he, hl⟩, rfl⟩
  · exact h.nodup.sublist (List.filter_sublist.map _)

/-- A loader that does not call is not in the Call Queue. -/
theorem not_queued (h : s.AgreesBut l places none) {e : CallEntry} (he : e ∈ s.callQueue) : e.loader ≠ l := by
  intro hl
  have hq := h.queued e he
  rw [if_pos hl] at hq
  exact absurd hq (by simp)

end State.AgreesBut

/-- An entry put in its place joins those of the queue (R46). -/
theorem mem_insertCall {now : Word32} {e f : CallEntry} {q : List CallEntry} :
    f ∈ insertCall now e q ↔ f = e ∨ f ∈ q := by
  induction q with
  | nil => simp [insertCall]
  | cons g q ih =>
    simp only [insertCall]
    split
    · simp
    · simp only [List.mem_cons, ih]
      tauto

theorem insertCall_perm (now : Word32) (e : CallEntry) (q : List CallEntry) : (insertCall now e q).Perm (e :: q) := by
  induction q with
  | nil => exact List.Perm.refl _
  | cons g q ih =>
    simp only [insertCall]
    split
    · exact List.Perm.refl _
    · exact (ih.cons g).trans (List.Perm.swap e g q)

/-- A loader enters the Call Queue, in place of the entry it had (R47, R48). -/
theorem State.AgreesBut.enqueue {s : State} {l : Loader} {places : Chair → List ChairStatus} {call : Option Word32}
    (h : s.AgreesBut l places call) (w : Word32) :
    (s.enqueue l w).AgreesBut l places (some w) ∧
      ∀ e ∈ (s.enqueue l w).callQueue, e.loader = l → e.cls = (s.enqueue l w).callClass l := by
  have hd := h.dequeue
  have hmem (e : CallEntry) : e ∈ (s.enqueue l w).callQueue ↔ e = ⟨l, s.callClass l, w⟩ ∨ e ∈ (s.dequeue l).callQueue :=
    mem_insertCall
  constructor
  · refine ⟨h.elsewhere, h.here, h.unplaced, h.free, fun e he => ?_, fun e he hl => ?_, fun k hk => ?_, ?_, h.disabled⟩
    · obtain rfl | he := (hmem e).mp he
      · exact if_pos rfl
      · rw [if_neg (hd.not_queued he)]
        have hq := hd.queued e he
        rwa [if_neg (hd.not_queued he)] at hq
    · obtain rfl | he := (hmem e).mp he
      · exact absurd rfl hl
      · exact hd.classed e he hl
    · by_cases hl : k = l
      · subst hl
        exact List.mem_map.mpr ⟨_, (hmem _).mpr (.inl rfl), rfl⟩
      · rw [if_neg hl] at hk
        obtain ⟨e, he, rfl⟩ := List.mem_map.mp (hd.calls k (by rw [if_neg hl]; exact hk))
        exact List.mem_map.mpr ⟨e, (hmem e).mpr (.inr he), rfl⟩
    · have hp : ((s.enqueue l w).callQueue.map (·.loader)).Perm (l :: (s.dequeue l).callQueue.map (·.loader)) :=
        (insertCall_perm _ _ _).map _
      refine hp.nodup_iff.mpr (List.nodup_cons.mpr ⟨fun hm => ?_, hd.nodup⟩)
      obtain ⟨e, he, hl⟩ := List.mem_map.mp hm
      exact hd.not_queued he hl
  · intro e he hl
    obtain rfl | he := (hmem e).mp he
    · rfl
    · exact absurd hl (hd.not_queued he)

end Sys2Proof.Machine
end

section
/-! Every operation of the Authority Table, the Chair Table and the Chair Arbiter keeps the records in agreement (R3, R12, R34,
R44, R46). -/

namespace Sys2Proof.Machine

open Sys2Proof

/-! ## What agreement reads -/

/-- Agreement reads the records, the lists, the accepted requests and the Loaders table alone, and of a chair its state, its
availability and its engaged loader. -/
theorem State.RecordsAgree.congr {s t : State} (h : s.RecordsAgree) (ha : t.auth = s.auth)
    (hc : ∀ c : Chair, t.chairs[c].status = s.chairs[c].status ∧ t.chairs[c].available = s.chairs[c].available ∧
      t.chairs[c].engaged = s.chairs[c].engaged) (hf : t.freeList = s.freeList) (hq : t.callQueue = s.callQueue)
    (hs : ∀ l : Loader, t.status[l].accepted = s.status[l].accepted) (ht : t.tables.loaders = s.tables.loaders) :
    t.RecordsAgree := by
  have hcls (l : Loader) : t.callClass l = s.callClass l := by simp only [State.callClass, hs, ht]
  have hen (l : Loader) : t.enabled l = s.enabled l := by simp only [State.enabled, ht]
  have hst (c : Chair) := (hc c).1
  have hav (c : Chair) := (hc c).2.1
  have heng (c : Chair) := (hc c).2.2
  obtain ⟨hqueue, hfree, hplace, hdis⟩ := h
  refine ⟨?_, ?_, ?_, ?_⟩
  · simpa only [State.CallQueueRight, hcls, ha, hq] using hqueue
  · simpa only [State.FreeListRight, hf, hst, hav] using hfree
  · simpa only [State.PlacesRight, State.placesOf, ha, hst, heng] using hplace
  · simpa only [State.DisabledStand, hen, ha] using hdis

/-- What the agreement of the records reads. -/
def State.records (s : State) :=
  (s.auth, s.chairs, s.freeList, s.callQueue, s.status, s.tables.loaders)

theorem State.RecordsAgree.same {s t : State} (h : s.RecordsAgree) (hr : t.records = s.records) : t.RecordsAgree := by
  simp only [State.records, Prod.mk.injEq] at hr
  obtain ⟨ha, hc, hf, hq, hs, ht⟩ := hr
  exact h.congr ha (fun c => by rw [hc]; exact ⟨rfl, rfl, rfl⟩) hf hq (fun l => by rw [hs]) ht

/-- A loader that is not STANDING(DISABLED) is enabled (R12). -/
theorem State.RecordsAgree.enabled {s : State} (h : s.RecordsAgree) {l : Loader}
    (hl : s.auth[l].state ≠ .standing none .disabled) : s.enabled l = true := by
  by_contra hd
  exact hl (h.2.2.2 l (Bool.not_eq_true _ ▸ hd))

/-- A party of a loader is engaged with that loader. -/
theorem State.RecordsAgree.engaged {s : State} (h : s.RecordsAgree) {l : Loader} {x : Chair} {p : ChairStatus}
    (hp : p ∈ s.auth[l].state.placesOf x) : s.chairs[x].engaged = some l ∧ s.chairs[x].status = p :=
  h.2.2.1.place hp

/-- An IDLE chair is engaged with no loader. -/
theorem State.RecordsAgree.idle_engaged {s : State} (h : s.RecordsAgree) {x : Chair} (hi : s.chairs[x].status = .idle) :
    s.chairs[x].engaged = none := by
  have hp := (State.placesRight_iff s).mp h.2.2.1 x
  cases he : s.chairs[x].engaged with
  | none => rfl
  | some l =>
    have hl := hp.1 l
    rw [State.PlaceAgrees, if_pos he] at hl
    exact absurd hi (AuthState.mem_placesOf (by rw [hl]; exact List.mem_singleton_self _)).1

/-- An ABSENT chair is engaged with no loader. -/
theorem State.RecordsAgree.absent_engaged {s : State} (h : s.RecordsAgree) {x : Chair} (hi : s.chairs[x].status = .absent) :
    s.chairs[x].engaged = none := by
  have hp := (State.placesRight_iff s).mp h.2.2.1 x
  cases he : s.chairs[x].engaged with
  | none => rfl
  | some l =>
    have hl := hp.1 l
    rw [State.PlaceAgrees, if_pos he] at hl
    exact absurd hi (AuthState.mem_placesOf (by rw [hl]; exact List.mem_singleton_self _)).2

/-- A chair engaged with a loader has its place there. -/
theorem State.RecordsAgree.place_of_engaged {s : State} (h : s.RecordsAgree) {x : Chair} {l : Loader}
    (he : s.chairs[x].engaged = some l) : s.auth[l].state.placesOf x = [s.chairs[x].status] := by
  have hp := ((State.placesRight_iff s).mp h.2.2.1 x).1 l
  rwa [State.PlaceAgrees, if_pos he] at hp

/-! ## The places of each state -/

/-- The place of a holder. -/
def holderPlace (holder : Option Chair) (c : Chair) : List ChairStatus := if holder = some c then [.holding] else []

/-- An authority state names its holder, and its offered chair or candidate besides. -/
theorem AuthState.placesOf_eq (a : AuthState) (c : Chair) : a.placesOf c = holderPlace a.holder c ++
    ((if a.offeredChair = some c then [.offered] else []) ++ if a.candidate = some c then [.candidate] else []) := by
  rw [AuthState.placesOf, holderPlace, List.append_assoc]

section places
variable (c x : Chair) (h r : Option Chair)

@[simp] theorem AuthState.placesOf_free : AuthState.free.placesOf c = [] := rfl

@[simp] theorem AuthState.placesOf_calling (w) : (AuthState.calling w).placesOf c = [] := rfl

@[simp] theorem AuthState.placesOf_releasing (n) : (AuthState.releasing n).placesOf c = [] := rfl

@[simp] theorem AuthState.placesOf_held : (AuthState.held x).placesOf c = holderPlace (some x) c := by
  simp [AuthState.placesOf_eq, AuthState.holder, AuthState.offeredChair, AuthState.candidate]

@[simp] theorem AuthState.placesOf_standing (cause) : (AuthState.standing h cause).placesOf c = holderPlace h c := by
  simp [AuthState.placesOf_eq, AuthState.holder, AuthState.offeredChair, AuthState.candidate]

@[simp] theorem AuthState.placesOf_offered (o n t) :
    (AuthState.offered h x o n r t).placesOf c = holderPlace h c ++ if x = c then [.offered] else [] := by
  simp [AuthState.placesOf_eq, AuthState.holder, AuthState.offeredChair, AuthState.candidate]

@[simp] theorem AuthState.placesOf_matching (o t) :
    (AuthState.matching h x o r t).placesOf c = holderPlace h c ++ if x = c then [.candidate] else [] := by
  simp [AuthState.placesOf_eq, AuthState.holder, AuthState.offeredChair, AuthState.candidate]

@[simp] theorem holderPlace_none : holderPlace none c = [] := rfl

@[simp] theorem holderPlace_self : holderPlace (some c) c = [.holding] := if_pos rfl

theorem holderPlace_other {h : Option Chair} {c : Chair} (hc : h ≠ some c) : holderPlace h c = [] := if_neg hc

end places

/-- Who has a place in a record: the holder, the offered chair, the candidate. -/
theorem AuthState.placesOf_eq_nil {a : AuthState} {c : Chair} :
    a.placesOf c = [] ↔ a.holder ≠ some c ∧ a.offeredChair ≠ some c ∧ a.candidate ≠ some c := by
  simp only [AuthState.placesOf_eq, holderPlace, List.append_eq_nil_iff, ite_eq_right_iff, List.cons_ne_nil, imp_false]

theorem AuthState.holding_mem {a : AuthState} {x : Chair} (h : a.holder = some x) : .holding ∈ a.placesOf x := by
  simp [AuthState.placesOf, h]

theorem AuthState.offered_mem {a : AuthState} {x : Chair} (h : a.offeredChair = some x) : .offered ∈ a.placesOf x := by
  simp [AuthState.placesOf, h]

theorem AuthState.candidate_mem {a : AuthState} {x : Chair} (h : a.candidate = some x) : .candidate ∈ a.placesOf x := by
  simp [AuthState.placesOf, h]

/-! ## One record written -/

namespace State.AgreesBut
variable {s : State} {l : Loader} {places : Chair → List ChairStatus} {call : Option Word32}

theorem setAuth (h : s.AgreesBut l places call) (a : AuthState) : (s.setAuth l a).AgreesBut l places call :=
  h.congr (fun k hk => by rw [State.setAuth_auth, putAt_other _ _ hk.symm]) rfl rfl rfl (fun _ _ => rfl) fun _ _ => rfl

/-- The loader takes a state that does not call and names the parties that are left. -/
theorem setAuth_agree (h : s.AgreesBut l places none) {a : AuthState} (hp : ∀ c, a.placesOf c = places c)
    (hc : a.callStamp = none) (hd : s.enabled l = false → a = .standing none .disabled) : (s.setAuth l a).RecordsAgree := by
  have hs : (s.setAuth l a).auth[l].state = a := by rw [State.setAuth_auth, putAt_same]
  refine (h.setAuth a).agree_of_not_calling ?_ ?_ ?_
  · rwa [hs]
  · rwa [hs]
  · rwa [hs]

theorem advanceEpoch (h : s.AgreesBut l places call) : (s.advanceEpoch l).AgreesBut l places call :=
  h.congr (fun k hk => by rw [State.advanceEpoch_auth, putAt_other _ _ hk.symm]) rfl rfl rfl (fun _ _ => rfl) fun _ _ => rfl

theorem notice (h : s.AgreesBut l places call) (c : Chair) (n : Notice) : (s.notice c n).AgreesBut l places call :=
  h.congr (fun _ _ => rfl) rfl rfl rfl (fun _ _ => rfl) fun _ _ => rfl

theorem raise (h : s.AgreesBut l places call) (e k c d) : (s.raise e k c d).AgreesBut l places call :=
  h.congr (fun _ _ => rfl) rfl rfl rfl (fun _ _ => rfl) fun _ _ => rfl

theorem callWalk (h : s.AgreesBut l places call) : s.callWalk.AgreesBut l places call :=
  h.congr (fun _ _ => rfl) rfl rfl rfl (fun _ _ => rfl) fun _ _ => rfl

/-- The chair's part of an offer's end (R19). -/
theorem offerGone (h : s.AgreesBut l places call) {x : Chair} (helse : ∀ k, k ≠ l → s.chairs[x].engaged ≠ some k)
    (n : Word16) : (s.offerGone x n).AgreesBut l (fun c => if c = x then [] else places c) call := by
  have hset := h.setChair (x := x) (r := { s.chairs[x] with lastEnded := some n }) helse helse (h.unplaced x) (h.free.1 x)
  refine (hset.release (x := x) (by simpa using helse)).of_places fun c => ?_
  by_cases hc : c = x <;> simp [hc]

/-- The end of a matching without a grant (R68). -/
theorem endMatching (h : s.AgreesBut l places call) {x : Chair} (helse : ∀ k, k ≠ l → s.chairs[x].engaged ≠ some k) :
    (s.endMatching l x).AgreesBut l (fun c => if c = x then [] else places c) call :=
  State.AgreesBut.release (s := s.clearMatch l)
    (h.congr (fun _ _ => rfl) rfl rfl rfl (fun _ _ => rfl) fun _ _ => rfl) helse

/-- A loader without parties joins the Call Queue (R47). -/
theorem enterCalling (h : s.AgreesBut l (fun _ => []) call) (hen : s.enabled l = true) (w : Word32) (d : Word16) :
    (s.enterCalling l w d).RecordsAgree := by
  obtain ⟨hq, hcls⟩ := (h.setAuth (.calling w)).enqueue w
  have hs : ((s.setAuth l (.calling w)).enqueue l w).auth[l].state = .calling w := by
    rw [State.enqueue_auth, State.setAuth_auth, putAt_same]
  refine State.RecordsAgree.same (s := (s.setAuth l (.calling w)).enqueue l w) (hq.agree ?_ ?_ hcls ?_) rfl
  · intro c
    rw [hs, AuthState.placesOf_calling]
  · rw [hs]
    rfl
  · intro hd
    exact absurd (hen.symm.trans hd) (by decide)

/-- A loader without parties enters FREE, or CALLING (R11). -/
theorem enterFree (h : s.AgreesBut l (fun _ => []) none) (hen : s.enabled l = true) : (s.enterFree l).RecordsAgree := by
  have hd : s.enabled l = false → AuthState.free = .standing none .disabled := fun hd => absurd (hen.symm.trans hd) (by decide)
  simp only [State.enterFree]
  split
  · exact (h.setAuth .free).enterCalling hen _ _
  · exact h.setAuth_agree (fun _ => rfl) rfl hd

/-- A loader whose handover has ended returns (R20). -/
theorem returnLoader (h : s.AgreesBut l (holderPlace s.auth[l].state.holder) none) (hen : s.enabled l = true) :
    (s.returnLoader l).RecordsAgree := by
  simp only [State.returnLoader]
  split
  · next x hx =>
    exact h.setAuth_agree (fun c => by rw [hx, AuthState.placesOf_held]) rfl
      fun hd => absurd (hen.symm.trans hd) (by decide)
  · next hx =>
    have hnil : s.AgreesBut l (fun _ => []) none := h.of_places fun c => by rw [hx, holderPlace_none]
    split
    · split
      · exact hnil.enterCalling hen _ _
      · exact hnil.enterFree hen
    · exact hnil.enterFree hen

/-- A loader left with its holder at most takes a candidate (R16, R22, R24, R27). -/
theorem beginMatching (h : s.AgreesBut l places none) {holder : Option Chair} {x : Chair} (hx : holder ≠ some x)
    (hp : ∀ c, c ≠ x → places c = holderPlace holder c) (helse : ∀ k, k ≠ l → s.chairs[x].engaged ≠ some k)
    (hen : s.enabled l = true) (o : Origin) (r : Option Chair) : (s.beginMatching l holder x o r).RecordsAgree := by
  have hm := (h.setAuth (.matching holder x o r s.tables.device.matchTimeout)).congr
    (t := (s.setAuth l (.matching holder x o r s.tables.device.matchTimeout)).clearMatch l) (fun _ _ => rfl) rfl rfl rfl
    (fun _ _ => rfl) fun _ _ => rfl
  have hs : (s.beginMatching l holder x o r).auth[l].state = .matching holder x o r s.tables.device.matchTimeout := by
    rw [State.beginMatching_auth, putAt_same]
  refine (hm.engage .candidate helse).agree_of_not_calling (fun c => ?_) ?_ fun hd => absurd (hen.symm.trans hd) (by decide)
  · change (s.beginMatching l holder x o r).auth[l].state.placesOf c = _
    rw [hs, AuthState.placesOf_matching]
    by_cases hc : c = x
    · subst hc
      rw [holderPlace_other hx, if_pos rfl, if_pos rfl, List.nil_append]
    · rw [if_neg (Ne.symm hc), if_neg hc, hp c hc, List.append_nil]
  · change (s.beginMatching l holder x o r).auth[l].state.callStamp = none
    rw [hs]
    rfl

end State.AgreesBut

/-! ## Standing (R8, R9) -/

theorem State.reportStand_agree {s : State} {l : Loader} {h : Option Chair} {cause : Cause} (hs : s.RecordsAgree) :
    (s.reportStand l h cause).RecordsAgree := by
  have hn : (s.noticeIfPresent h (standNotice l cause s.auth[l].epoch)).RecordsAgree := by
    simp only [State.noticeIfPresent]
    split
    · exact hs
    · split
      · exact hs
      · exact hs.same rfl
  simp only [State.reportStand]
  split
  · exact hn
  · exact hn.same rfl

@[simp] theorem State.advanceEpoch_state (s : State) (l k : Loader) :
    (s.advanceEpoch l).auth[k].state = s.auth[k].state := by
  rw [State.advanceEpoch_auth, putAt_get]
  split
  · next h => rw [h]
  · rfl

@[simp] theorem State.standHolder_state (s : State) (l k : Loader) (cause : Cause) :
    (s.standHolder l cause).auth[k].state = s.auth[k].state := by
  rw [State.standHolder_auth]
  split
  · rw [putAt_get]
    split
    · next h => rw [h]
    · rfl
  · rfl

/-- The holder's part of a stand: a holder that the cause does not keep is removed, with the epoch advanced (R8 part 1). -/
theorem State.standHolder_cases (s : State) (l : Loader) (cause : Cause) :
    ((s.auth[l].state.holder = none ∨ cause.retains = true) ∧ s.standHolder l cause = s) ∨
      ∃ x, s.auth[l].state.holder = some x ∧ cause.retains = false ∧
        s.standHolder l cause = (s.advanceEpoch l).release x := by
  unfold State.standHolder
  split
  · next hn => exact .inl ⟨.inl hn, rfl⟩
  · next x hx =>
    split
    · next hr => exact .inl ⟨.inr hr, rfl⟩
    · next hr => exact .inr ⟨x, hx, Bool.eq_false_iff.mpr hr, rfl⟩

/-- A release leaves every chair engaged with no loader it was not engaged with. -/
theorem State.release_engaged {s : State} {x c : Chair} {k : Loader} (h : (s.release x).chairs[c].engaged = some k) :
    s.chairs[c].engaged = some k := by
  by_cases hc : c = x
  · subst hc
    by_cases hab : s.chairs[c].status = .absent
    · rw [State.release_absent hab] at h
      simp at h
    · cases hav : s.chairs[c].available
      · rw [State.release_unavailable hab hav] at h
        simp at h
      · rw [State.release_available hab hav] at h
        simp at h
  · rwa [State.release_other s x hc] at h

section stand
variable {s : State} {l : Loader} {places : Chair → List ChairStatus} {cause : Cause}

/-- The holder's part of a stand (R8 part 1). -/
theorem State.AgreesBut.standHolder {call : Option Word32} (h : s.AgreesBut l places call)
    (helse : ∀ x, s.auth[l].state.holder = some x → ∀ k, k ≠ l → s.chairs[x].engaged ≠ some k) :
    (s.standHolder l cause).AgreesBut l
      (fun c => if s.auth[l].state.holder = some c ∧ cause.retains = false then [] else places c) call := by
  obtain ⟨hn | hr, heq⟩ | ⟨x, hx, hr, heq⟩ := s.standHolder_cases l cause
  · rw [heq]
    exact h.of_places fun c => by simp [-Fin.getElem_fin, hn]
  · rw [heq]
    exact h.of_places fun c => by simp [-Fin.getElem_fin, hr]
  · rw [heq]
    refine (h.advanceEpoch.release (x := x) (helse x hx)).of_places fun c => ?_
    simp [-Fin.getElem_fin, hx, hr, eq_comm (a := c)]

/-- The other parties of a stand (R8 parts 2 to 4). -/
theorem State.AgreesBut.standParties (h : s.AgreesBut l places s.auth[l].state.callStamp)
    (helse : ∀ x, s.auth[l].state.offeredChair = some x ∨ s.auth[l].state.candidate = some x →
      (∀ k, k ≠ l → s.chairs[x].engaged ≠ some k) ∧ (s.chairs[x].status = .absent ∨ s.chairs[x].engaged = some l)) :
    (s.standParties l).AgreesBut l
      (fun c => if s.auth[l].state.offeredChair = some c ∨ s.auth[l].state.candidate = some c then [] else places c)
      none := by
  unfold State.standParties
  cases ha : s.auth[l].state
  all_goals simp only [ha, AuthState.offeredChair, AuthState.candidate, AuthState.callStamp, reduceCtorEq, or_self,
    if_false, or_false, false_or, Option.some.injEq] at h helse ⊢
  case offered x o n r m =>
    obtain ⟨hel, hun⟩ := helse _ rfl
    have hg := State.AgreesBut.offerGone (s := s.withdrawn l x n .stand) (h.notice x _) (x := x) hel n
    exact (hg.raise _ _ _ _).callWalk.of_places fun c => by simp [eq_comm]
  case matching x o r m =>
    obtain ⟨hel, -⟩ := helse _ rfl
    refine (State.AgreesBut.endMatching (s := s.aborted l x .stand) (h.notice x _) (x := x) hel).of_places fun c => ?_
    simp [eq_comm]
  case calling w => exact h.dequeue
  all_goals exact h

/-- Entry into STANDING releases every party that the cause does not keep, so the records agree (R8). A party already gone may
have left its place. -/
theorem State.AgreesBut.standEntry (h : s.AgreesBut l places s.auth[l].state.callStamp)
    (hnil : ∀ c, s.auth[l].state.placesOf c = [] → places c = [])
    (hkeep : cause.retains = true → ∀ c, places c = s.auth[l].state.placesOf c)
    (hparty : ∀ x, s.auth[l].state.placesOf x ≠ [] →
      (∀ k, k ≠ l → s.chairs[x].engaged ≠ some k) ∧ (s.chairs[x].status = .absent ∨ s.chairs[x].engaged = some l))
    (hnot : ∀ x, s.auth[l].state.offeredChair = some x ∨ s.auth[l].state.candidate = some x →
      s.auth[l].state.holder ≠ some x)
    (hd : s.enabled l = false → cause = .disabled) : (s.standEntry l cause).RecordsAgree := by
  have hofplace (x : Chair) (hx : s.auth[l].state.holder = some x ∨ s.auth[l].state.offeredChair = some x ∨
      s.auth[l].state.candidate = some x) : s.auth[l].state.placesOf x ≠ [] := by
    rw [ne_eq, AuthState.placesOf_eq_nil]
    tauto
  have h1 := h.standHolder (cause := cause) fun x hx => (hparty x (hofplace x (.inl hx))).1
  have hchair (x : Chair) (hx : s.auth[l].state.holder ≠ some x) :
      (s.standHolder l cause).chairs[x] = s.chairs[x] := by
    obtain ⟨-, heq⟩ | ⟨y, hy, -, heq⟩ := s.standHolder_cases l cause
    · rw [heq]
    · rw [heq, State.release_other _ _ fun he => hx (by rw [hy, he])]
      rfl
  have h2 := State.AgreesBut.standParties (s := s.standHolder l cause) (l := l)
    (by rw [State.standHolder_state]; exact h1) (by
      intro x hx
      rw [State.standHolder_state] at hx
      rw [hchair x (hnot x hx)]
      exact hparty x (hofplace x (.inr hx)))
  simp only [State.standHolder_state] at h2
  have hrest : ((s.standHolder l cause).standParties l).rest = s.rest := by simp
  have htab : ((s.standHolder l cause).standParties l).tables = s.tables := congrArg Rest.tables hrest
  refine State.reportStand_agree (h2.setAuth_agree (fun c => ?_) rfl ?_)
  · rw [AuthState.placesOf_standing]
    by_cases hoc : s.auth[l].state.offeredChair = some c ∨ s.auth[l].state.candidate = some c
    · rw [if_pos hoc]
      split
      · exact holderPlace_other (hnot c hoc)
      · rfl
    · rw [if_neg hoc]
      obtain ⟨ho, hc⟩ := not_or.mp hoc
      cases hr : cause.retains
      · simp only [Bool.false_eq_true, if_false, holderPlace_none, and_true]
        split
        · rfl
        · next hh => exact (hnil c (AuthState.placesOf_eq_nil.mpr ⟨hh, ho, hc⟩)).symm
      · simp [-Fin.getElem_fin, hkeep hr, AuthState.placesOf_eq, ho, hc]
  · intro hen
    rw [State.enabled, htab] at hen
    have hc := hd hen
    subst hc
    rfl

end stand

/-- The parties of a record in agreement: each is engaged with the loader, and the holder is no other party. -/
theorem State.RecordsAgree.party {s : State} (h : s.RecordsAgree) (l : Loader) :
    (∀ x, s.auth[l].state.placesOf x ≠ [] →
      (∀ k, k ≠ l → s.chairs[x].engaged ≠ some k) ∧ (s.chairs[x].status = .absent ∨ s.chairs[x].engaged = some l)) ∧
    ∀ x, s.auth[l].state.offeredChair = some x ∨ s.auth[l].state.candidate = some x → s.auth[l].state.holder ≠ some x := by
  constructor
  · intro x hx
    obtain ⟨p, hp⟩ := List.exists_mem_of_ne_nil _ hx
    have he := (h.engaged hp).1
    exact ⟨fun k hk hk' => hk (Option.some.inj (hk'.symm.trans he)), .inr he⟩
  · intro x hx hh
    have h1 := (h.engaged (AuthState.holding_mem hh)).2
    obtain hx | hx := hx
    · exact absurd (h1.symm.trans (h.engaged (AuthState.offered_mem hx)).2) (by decide)
    · exact absurd (h1.symm.trans (h.engaged (AuthState.candidate_mem hx)).2) (by decide)

theorem State.RecordsAgree.standEntry {s : State} (h : s.RecordsAgree) {l : Loader} {cause : Cause}
    (hd : s.enabled l = false → cause = .disabled) : (s.standEntry l cause).RecordsAgree :=
  (h.but l).standEntry (fun _ hc => hc) (fun _ _ => rfl) (h.party l).1 (h.party l).2 hd

theorem State.RecordsAgree.stand {s : State} (h : s.RecordsAgree) (l : Loader) (cause : Cause) :
    (s.stand l cause).RecordsAgree := by
  unfold State.stand
  split
  · next retained recorded ha =>
    split
    · next hr =>
      have hne : recorded ≠ .disabled := by rintro rfl; exact absurd hr (by simp [Cause.replaces])
      have hen := h.enabled (l := l) (by rw [ha]; intro he; exact hne (AuthState.standing.inj he).2)
      have hb := h.but l
      rw [ha] at hb
      exact State.reportStand_agree (hb.setAuth_agree (fun c => by simp) rfl
        fun hdis => absurd (hen.symm.trans hdis) (by decide))
    · exact h
  · next hns =>
    refine h.standEntry fun hdis => ?_
    exact absurd (h.2.2.2 l hdis) (hns _ _)

end Sys2Proof.Machine
end

section
/-! The ends of offers and matchings, a chair's absence, PRESENT, the grant and the requests keep the records in agreement (R3,
R12, R34, R44, R46). -/

namespace Sys2Proof.Machine

open Sys2Proof

/-! ## Chairs -/

namespace State.RecordsAgree
variable {s : State}

theorem count (h : s.RecordsAgree) (id n) : (s.count id n).RecordsAgree := h.same rfl

theorem raise (h : s.RecordsAgree) (e l c d) : (s.raise e l c d).RecordsAgree := h.same rfl

theorem notice (h : s.RecordsAgree) (c n) : (s.notice c n).RecordsAgree := h.same rfl

theorem callWalk (h : s.RecordsAgree) : s.callWalk.RecordsAgree := h.same rfl

theorem endOffer {l c n w} {go : State → State} (h : (go (s.offerGone c n)).RecordsAgree) :
    (s.endOffer l c n w go).RecordsAgree :=
  (h.raise _ _ _ _).callWalk

/-- A chair's record written, its engaged loader kept. -/
theorem setChair (h : s.RecordsAgree) {x : Chair} {r : ChairState} (he : r.engaged = s.chairs[x].engaged)
    (hst : s.chairs[x].engaged.isSome = true → r.status = s.chairs[x].status)
    (hun : s.chairs[x].engaged = none → r.status = .idle ∨ r.status = .absent)
    (hfree : x ∈ s.freeList → r.status = .idle ∧ r.available = true) : (s.setChair x r).RecordsAgree := by
  obtain ⟨hqueue, hlist, hplace, hdis⟩ := h
  refine ⟨hqueue, ⟨fun c hc => ?_, hlist.2⟩, (State.placesRight_iff _).mpr fun c => ?_, hdis⟩
  · rw [State.setChair_chairs, putAt_get]
    split
    · next hx => subst hx; exact hfree hc
    · exact hlist.1 c hc
  · have hc := (State.placesRight_iff s).mp hplace c
    by_cases hx : x = c
    · subst hx
      refine ⟨fun l => ?_, fun hn => ?_⟩
      · have hl := hc.1 l
        simp only [State.PlaceAgrees, State.setChair_auth, State.setChair_chairs, putAt_same, he] at hl ⊢
        rw [hl]
        split
        · next hs => rw [hst (by rw [hs]; rfl)]
        · rfl
      · rw [State.setChair_chairs, putAt_same] at hn ⊢
        exact hun (he ▸ hn)
    · simpa only [State.PlaceAgrees, State.setChair_auth, State.setChair_chairs, putAt_other _ _ hx] using hc

theorem leaveList (h : s.RecordsAgree) (x : Chair) : (s.leaveList x).RecordsAgree := by
  obtain ⟨hqueue, hlist, hplace, hdis⟩ := h
  exact ⟨hqueue, ⟨fun c hc => hlist.1 c (List.mem_filter.mp hc).1, hlist.2.filter _⟩, hplace, hdis⟩

theorem joinList (h : s.RecordsAgree) {x : Chair} (hi : s.chairs[x].status = .idle) (ha : s.chairs[x].available = true) :
    (s.joinList x).RecordsAgree := by
  refine ((h.but 0).joinList hi ha).agree (fun _ => rfl) rfl (fun e he hl => ?_) (h.2.2.2 0)
  rw [← hl]
  exact (h.1.1 e he).2

theorem refreshPresence (h : s.RecordsAgree) (c : Chair) : (s.refreshPresence c).RecordsAgree := by
  refine h.congr (s.refreshPresence_auth c) (fun d => ?_) (s.refreshPresence_freeList c) (s.refreshPresence_callQueue c)
    (fun l => by rw [State.refreshPresence_status]) (by rw [State.refreshPresence_tables])
  obtain ⟨n, hn⟩ := s.refreshPresence_chair c d
  rw [hn]
  exact ⟨rfl, rfl, rfl⟩

/-- A chair that becomes present has no loader and joins the list where it is available (R36). -/
theorem becomePresent (h : s.RecordsAgree) {c : Chair} (hc : s.chairs[c].status = .absent) (available : Bool) :
    (s.becomePresent c available).RecordsAgree := by
  have he := h.absent_engaged hc
  have hset := h.setChair (x := c) (r := { s.chairs[c] with
    status := .idle, available := available, presence := s.tables.device.presenceTimeout, missed := 0, engaged := none })
    he.symm (fun hs => by rw [he] at hs; exact absurd hs (by decide)) (fun _ => .inl rfl)
    fun hm => absurd ((h.2.1.1 c hm).1.symm.trans hc) (by decide)
  simp only [State.becomePresent]
  split
  · next ha =>
    refine State.RecordsAgree.joinList (hset.raise _ _ _ _) ?_ ?_
    · rw [State.raise_chairs, State.setChair_chairs, putAt_same]
    · rw [State.raise_chairs, State.setChair_chairs, putAt_same, ha]
  · exact hset.same rfl

/-- A present chair's availability set (R42). -/
theorem setAvailable (h : s.RecordsAgree) (c : Chair) (available : Bool) :
    (s.setAvailable c available).RecordsAgree := by
  have hun := ((State.placesRight_iff s).mp h.2.2.1 c).2
  simp only [State.setAvailable]
  split
  · exact h
  · split
    · have hset := h.setChair (x := c) (r := { s.chairs[c] with available := true, missed := 0 }) rfl (fun _ => rfl) hun
        fun hm => ⟨(h.2.1.1 c hm).1, rfl⟩
      split
      · next hi => exact State.RecordsAgree.joinList (hset.raise _ _ _ _) hi (by rw [State.raise_chairs, State.setChair_chairs, putAt_same])
      · exact hset.same rfl
    · refine State.RecordsAgree.same (s := (s.leaveList c).setChair c { s.chairs[c] with available := false }) ?_ rfl
      exact (h.leaveList c).setChair rfl (fun _ => rfl) hun fun hm => by simp at hm

/-- One more missed offer of a chair that is not listed (R43). -/
theorem missOffer (h : s.RecordsAgree) {c : Chair} (hc : c ∉ s.freeList) : (s.missOffer c).RecordsAgree := by
  have hun := ((State.placesRight_iff s).mp h.2.2.1 c).2
  have hset := h.setChair (x := c) (r := { s.chairs[c] with missed := min 3 (s.chairs[c].missed + 1) }) rfl (fun _ => rfl) hun
    fun hm => absurd hm hc
  have hcount := hset.count (.chair c offersMissed) 1
  have hun' := ((State.placesRight_iff _).mp hcount.2.2.1 c).2
  simp only [State.missOffer]
  split
  · refine State.RecordsAgree.raise (State.RecordsAgree.setChair hcount ?_ ?_ ?_ fun hm => absurd hm hc) _ _ _ _
    · rfl
    · exact fun _ => rfl
    · exact hun'
  · exact hcount

end State.RecordsAgree

/-! ## The end of an offer or a matching -/

/-- The record, the Loaders table and the accepted requests are what they were. -/
theorem State.AgreesBut.enabled_congr {s t : State} {l : Loader} (ht : t.rest = s.rest) (h : s.enabled l = true) :
    t.enabled l = true := by
  have htab : t.tables = s.tables := congrArg Rest.tables ht
  rwa [State.enabled, htab]

namespace State.AgreesBut
variable {s : State} {l : Loader} {places : Chair → List ChairStatus} {x : Chair}

/-- An offer ends and the loader returns (R19, R20). -/
theorem endOffer_return (h : s.AgreesBut l places none) (hx : s.auth[l].state.holder ≠ some x)
    (hp : ∀ c, c ≠ x → places c = holderPlace s.auth[l].state.holder c) (helse : ∀ k, k ≠ l → s.chairs[x].engaged ≠ some k)
    (hen : s.enabled l = true) (n : Word16) (way : OfferEnd) :
    (s.endOffer l x n way (·.returnLoader l)).RecordsAgree := by
  have hg := (h.offerGone helse n).of_places (places' := holderPlace (s.offerGone x n).auth[l].state.holder) fun c => by
    rw [State.offerGone_auth]
    by_cases hc : c = x
    · rw [if_pos hc, hc, holderPlace_other hx]
    · rw [if_neg hc, hp c hc]
  exact State.RecordsAgree.endOffer (hg.returnLoader (State.AgreesBut.enabled_congr (s.offerGone_rest x n) hen))

/-- A matching ends and the loader returns (R68, R20). -/
theorem endMatching_return (h : s.AgreesBut l places none) (hx : s.auth[l].state.holder ≠ some x)
    (hp : ∀ c, c ≠ x → places c = holderPlace s.auth[l].state.holder c) (helse : ∀ k, k ≠ l → s.chairs[x].engaged ≠ some k)
    (hen : s.enabled l = true) : ((s.endMatching l x).returnLoader l).RecordsAgree := by
  have hg := (h.endMatching helse).of_places (places' := holderPlace (s.endMatching l x).auth[l].state.holder) fun c => by
    rw [State.endMatching_auth]
    by_cases hc : c = x
    · rw [if_pos hc, hc, holderPlace_other hx]
    · rw [if_neg hc, hp c hc]
  exact hg.returnLoader (State.AgreesBut.enabled_congr (s.endMatching_rest l x) hen)

/-- A retained holder is dropped (R9). -/
theorem dropRetained {cause : Cause} (h : s.AgreesBut l places none) (ha : s.auth[l].state = .standing (some x) cause)
    (helse : ∀ k, k ≠ l → s.chairs[x].engaged ≠ some k) :
    (s.dropRetained l).AgreesBut l (fun c => if c = x then [] else places c) none ∧
      (s.dropRetained l).auth[l].state = .standing none cause := by
  have hd : s.dropRetained l = ((s.advanceEpoch l).setAuth l (.standing none cause)).release x := by
    simp only [State.dropRetained, ha]
  rw [hd]
  exact ⟨(h.advanceEpoch.setAuth _).release helse, by rw [State.release_auth, State.setAuth_auth, putAt_same]⟩

end State.AgreesBut

namespace State.RecordsAgree
variable {s : State} {l : Loader} {x : Chair}

theorem helse (h : s.RecordsAgree) {p : ChairStatus} (hp : p ∈ s.auth[l].state.placesOf x) (k : Loader) (hk : k ≠ l) :
    s.chairs[x].engaged ≠ some k :=
  ((h.party l).1 x (List.ne_nil_of_mem hp)).1 k hk

/-- An OFFERED loader, its record set aside. -/
theorem but_offered (h : s.RecordsAgree) {holder origin n offerer timer}
    (ha : s.auth[l].state = .offered holder x origin n offerer timer) :
    s.AgreesBut l s.auth[l].state.placesOf none ∧ s.auth[l].state.holder ≠ some x ∧
      (∀ c, c ≠ x → s.auth[l].state.placesOf c = holderPlace s.auth[l].state.holder c) ∧
      (∀ k, k ≠ l → s.chairs[x].engaged ≠ some k) ∧ s.enabled l = true := by
  have hb := h.but l
  have hx : s.auth[l].state.offeredChair = some x := by rw [ha]; rfl
  refine ⟨by rw [ha] at hb ⊢; exact hb, (h.party l).2 x (.inl hx), fun c hc => ?_, h.helse (AuthState.offered_mem hx),
    h.enabled (by rw [ha]; exact fun he => nomatch he)⟩
  rw [ha, AuthState.placesOf_offered, if_neg (Ne.symm hc), List.append_nil]
  rfl

/-- A MATCHING loader, its record set aside. -/
theorem but_matching (h : s.RecordsAgree) {holder origin offerer timer}
    (ha : s.auth[l].state = .matching holder x origin offerer timer) :
    s.AgreesBut l s.auth[l].state.placesOf none ∧ s.auth[l].state.holder ≠ some x ∧
      (∀ c, c ≠ x → s.auth[l].state.placesOf c = holderPlace s.auth[l].state.holder c) ∧
      (∀ k, k ≠ l → s.chairs[x].engaged ≠ some k) ∧ s.enabled l = true := by
  have hb := h.but l
  have hx : s.auth[l].state.candidate = some x := by rw [ha]; rfl
  refine ⟨by rw [ha] at hb ⊢; exact hb, (h.party l).2 x (.inr hx), fun c hc => ?_, h.helse (AuthState.candidate_mem hx),
    h.enabled (by rw [ha]; exact fun he => nomatch he)⟩
  rw [ha, AuthState.placesOf_matching, if_neg (Ne.symm hc), List.append_nil]
  rfl

theorem endOffer_return (h : s.RecordsAgree) {holder origin m offerer timer}
    (ha : s.auth[l].state = .offered holder x origin m offerer timer) (n : Word16) (way : OfferEnd) :
    (s.endOffer l x n way (·.returnLoader l)).RecordsAgree := by
  obtain ⟨hb, hx, hp, hel, hen⟩ := h.but_offered ha
  exact hb.endOffer_return hx hp hel hen n way

theorem endMatching_return (h : s.RecordsAgree) {holder origin offerer timer}
    (ha : s.auth[l].state = .matching holder x origin offerer timer) :
    ((s.endMatching l x).returnLoader l).RecordsAgree := by
  obtain ⟨hb, hx, hp, hel, hen⟩ := h.but_matching ha
  exact hb.endMatching_return hx hp hel hen

/-- A STANDING loader with a retained holder, that holder dropped. -/
theorem but_dropRetained (h : s.RecordsAgree) {cause : Cause} (ha : s.auth[l].state = .standing (some x) cause) :
    (s.dropRetained l).AgreesBut l (fun _ => []) none ∧ (s.dropRetained l).auth[l].state = .standing none cause ∧
      (s.dropRetained l).enabled l = true := by
  have hb := h.but l
  rw [ha] at hb
  have hx : s.auth[l].state.holder = some x := by rw [ha]; rfl
  obtain ⟨hd, hs⟩ := hb.dropRetained ha (h.helse (AuthState.holding_mem hx))
  refine ⟨hd.of_places fun c => ?_, hs, State.AgreesBut.enabled_congr (s.dropRetained_rest l)
    (h.enabled (by rw [ha]; exact fun he => nomatch he))⟩
  rw [AuthState.placesOf_standing]
  split
  · rfl
  · next hc => exact (holderPlace_other fun he => hc (Option.some.inj he).symm).symm

theorem dropRetained (h : s.RecordsAgree) (l : Loader) : (s.dropRetained l).RecordsAgree := by
  by_cases ha : ∃ x cause, s.auth[l].state = .standing (some x) cause
  · obtain ⟨x, cause, ha⟩ := ha
    obtain ⟨hb, hs, hen⟩ := h.but_dropRetained ha
    refine hb.agree_of_not_calling (fun c => ?_) ?_ fun hd => absurd (hen.symm.trans hd) (by decide)
    · rw [hs]
      rfl
    · rw [hs]
      rfl
  · have hd : s.dropRetained l = s := by
      unfold State.dropRetained
      split
      · next x cause hx => exact absurd ⟨x, cause, hx⟩ ha
      · rfl
    rwa [hd]

end State.RecordsAgree

/-! ## A chair's absence (R40) -/

/-- A chair that has gone, its loader's record still naming it. -/
theorem State.RecordsAgree.but_gone {s : State} (h : s.RecordsAgree) {c : Chair} {l : Loader}
    (he : ∀ k, k ≠ l → s.chairs[c].engaged ≠ some k) :
    ((s.setChair c s.chairs[c].gone).leaveList c).AgreesBut l
      (fun x => if x = c then [] else s.auth[l].state.placesOf x) s.auth[l].state.callStamp := by
  have hset := ((h.but l).leaveList c).setChair (x := c) (r := s.chairs[c].gone) he (fun _ _ hk => nomatch hk)
    (fun _ => .inr rfl) fun hm => by simp at hm
  exact State.AgreesBut.of_places (s := (s.leaveList c).setChair c s.chairs[c].gone) hset
    fun x => by simp [ChairState.gone]

/-- The place a chair had ends once it is ABSENT (R40). -/
theorem State.AgreesBut.absentPlace {s : State} {l : Loader} {c : Chair}
    (h : s.AgreesBut l (fun x => if x = c then [] else s.auth[l].state.placesOf x) s.auth[l].state.callStamp)
    (hc : s.auth[l].state.placesOf c ≠ []) (hab : s.chairs[c].status = .absent) (hce : s.chairs[c].engaged = none)
    (hparty : ∀ x, x ≠ c → s.auth[l].state.placesOf x ≠ [] →
      (∀ k, k ≠ l → s.chairs[x].engaged ≠ some k) ∧ (s.chairs[x].status = .absent ∨ s.chairs[x].engaged = some l))
    (hnot : ∀ x, s.auth[l].state.offeredChair = some x ∨ s.auth[l].state.candidate = some x →
      s.auth[l].state.holder ≠ some x)
    (hen : s.enabled l = true) : (s.absentPlace c l).RecordsAgree := by
  have helse (k : Loader) (_ : k ≠ l) : s.chairs[c].engaged ≠ some k := by rw [hce]; exact fun he => nomatch he
  have hstand : s.auth[l].state.holder = some c → (s.standEntry l .chairLost).RecordsAgree := fun _ =>
    h.standEntry (fun x hx => by rw [hx, ite_self]) (fun hr => absurd hr (by decide))
      (fun x hx => if hxc : x = c then by subst hxc; exact ⟨helse, .inl hab⟩ else hparty x hxc hx) hnot
      fun hd => absurd (hen.symm.trans hd) (by decide)
  unfold State.absentPlace
  cases ha : s.auth[l].state
  case standing retained cause =>
    rw [ha, AuthState.placesOf_standing] at hc
    have hr : retained = some c := by
      by_contra hn
      exact hc (holderPlace_other hn)
    subst hr
    simp only [if_true]
    rw [ha] at h
    obtain ⟨hd, hs⟩ := State.AgreesBut.dropRetained h ha helse
    refine hd.agree_of_not_calling (fun x => ?_) ?_ fun hdis => ?_
    · rw [hs, AuthState.placesOf_standing, AuthState.placesOf_standing, holderPlace_none]
      split
      · rfl
      · next hx => exact (holderPlace_other fun he => hx (Option.some.inj he).symm).symm
    · rw [hs]
      rfl
    · exact absurd ((State.AgreesBut.enabled_congr (s.dropRetained_rest l) hen).symm.trans hdis) (by decide)
  case held x =>
    rw [ha, AuthState.placesOf_held] at hc
    have hr : x = c := by
      by_contra hn
      exact hc (holderPlace_other fun he => hn (Option.some.inj he))
    subst hr
    simpa only [if_true] using hstand (by rw [ha]; rfl)
  case offered holder x o n r m =>
    by_cases hh : holder = some c
    · simpa only [hh, if_true] using hstand (by rw [ha, hh]; rfl)
    · have hx : x = c := by
        by_contra hn
        rw [ha, AuthState.placesOf_offered, holderPlace_other hh, if_neg hn] at hc
        exact hc rfl
      subst hx
      simp only [hh, if_false, if_true]
      have hb := h
      rw [ha] at hb
      refine State.AgreesBut.endOffer_return hb (by rw [ha]; exact hh) (fun y hy => ?_) helse hen n _
      rw [if_neg hy, ha, AuthState.placesOf_offered, if_neg (Ne.symm hy), List.append_nil]
      rfl
  case matching holder x o r m =>
    by_cases hh : holder = some c
    · simpa only [hh, if_true] using hstand (by rw [ha, hh]; rfl)
    · have hx : x = c := by
        by_contra hn
        rw [ha, AuthState.placesOf_matching, holderPlace_other hh, if_neg hn] at hc
        exact hc rfl
      subst hx
      simp only [hh, if_false, if_true]
      have hb := h
      rw [ha] at hb
      refine State.AgreesBut.endMatching_return hb (by rw [ha]; exact hh) (fun y hy => ?_) helse hen
      rw [if_neg hy, ha, AuthState.placesOf_matching, if_neg (Ne.symm hy), List.append_nil]
      rfl
  all_goals
    rw [ha] at hc
    exact absurd rfl hc

theorem State.RecordsAgree.becomeAbsent {s : State} (h : s.RecordsAgree) (c : Chair) (detail : Word16) :
    (s.becomeAbsent c detail).RecordsAgree := by
  simp only [State.becomeAbsent]
  have gone (l : Loader) (he : ∀ k, k ≠ l → s.chairs[c].engaged ≠ some k) :=
    ((h.but_gone he).congr (t := (((s.setChair c s.chairs[c].gone).leaveList c).clearViews c).raise .chairAbsent none (some c)
      detail) (fun _ _ => rfl) rfl rfl rfl (fun _ _ => rfl) fun _ _ => rfl)
  cases hl : s.chairs[c].engaged with
  | none =>
    have hp := ((State.placesRight_iff s).mp h.2.2.1 c).1 0
    rw [State.PlaceAgrees, hl, if_neg (fun he => nomatch he)] at hp
    refine (gone 0 (by rw [hl]; exact fun _ _ he => nomatch he)).agree (fun x => ?_) rfl (fun e he hl => ?_) (h.2.2.2 0)
    · split
      · next hx => subst hx; exact hp
      · rfl
    · rw [← hl]
      exact (h.1.1 e he).2
  | some l =>
    have he (k : Loader) (hk : k ≠ l) : s.chairs[c].engaged ≠ some k := by
      rw [hl]
      exact fun he => hk (Option.some.inj he).symm
    have hpl := h.place_of_engaged hl
    have hchair : (((s.setChair c s.chairs[c].gone).leaveList c).clearViews c).chairs[c] = s.chairs[c].gone := putAt_same _ _ _
    refine State.AgreesBut.absentPlace (gone l he) (by
        change s.auth[l].state.placesOf c ≠ []
        rw [hpl]
        exact List.cons_ne_nil _ _) (congrArg ChairState.status hchair) (congrArg ChairState.engaged hchair) ?_
      (h.party l).2 (h.enabled (by intro ha; rw [ha] at hpl; exact absurd hpl (by simp)))
    intro x hx hp
    have hother : (((s.setChair c s.chairs[c].gone).leaveList c).clearViews c).chairs[x] = s.chairs[x] :=
      putAt_other _ _ hx.symm
    have := (h.party l).1 x hp
    rwa [← hother] at this

end Sys2Proof.Machine
end

section
/-! The requests, the walk, the status frames, the timers and the tables keep the records in agreement (R3, R12, R34, R44, R46). -/

namespace Sys2Proof.Machine

open Sys2Proof

/-! ## The request a code carries out (R143) -/

/-- The states the thirteen requests, or the refusal of an unknown code, lead to. -/
inductive State.RequestMade (s : State) (c : Chair) (b : Byte) (tag : Word16) (args : List Byte) : State → Prop
  | present : RequestMade s c b tag args (s.presentRequest c tag args)
  | leave : RequestMade s c b tag args (s.leaveRequest c tag args)
  | take : RequestMade s c b tag args (s.takeRequest c b tag args)
  | offer : RequestMade s c b tag args (s.offerRequest c b tag args)
  | accept : RequestMade s c b tag args (s.acceptRequest c b tag args)
  | decline : RequestMade s c b tag args (s.declineRequest c b tag args)
  | cancel : RequestMade s c b tag args (s.cancelRequest c b tag args)
  | release : RequestMade s c b tag args (s.releaseRequest c b tag args)
  | recover : RequestMade s c b tag args (s.recoverRequest c b tag args)
  | stop : RequestMade s c b tag args (s.stopRequest c b tag args)
  | viewOn : RequestMade s c b tag args (s.viewOnRequest c b tag args)
  | viewOff : RequestMade s c b tag args (s.viewOffRequest c b tag args)
  | lineAck : RequestMade s c b tag args (s.lineAckRequest c tag args)
  | unknown : RequestMade s c b tag args (s.unknownRequest c b tag)

/-- A chair's request is carried out by its code. -/
theorem State.chairRequest_made (s : State) (c b code tag args) :
    s.RequestMade c b tag args (s.chairRequest c b code tag args) := by
  have branch {p : Prop} [Decidable p] {t u : State} (ht : s.RequestMade c b tag args t)
      (hu : s.RequestMade c b tag args u) : s.RequestMade c b tag args (if p then t else u) :=
    iteInduction (motive := s.RequestMade c b tag args) (fun _ => ht) fun _ => hu
  exact branch .present <| branch .leave <| branch .take <| branch .offer <| branch .accept <| branch .decline <|
    branch .cancel <| branch .release <| branch .recover <| branch .stop <| branch .viewOn <| branch .viewOff <|
    branch .lineAck .unknown

/-- A grant before the previous holder leaves its place and before its reports (R63). -/
def State.grantMoved (s : State) (l : Loader) (c : Chair) (m : Command) : State :=
  ((((s.advanceEpoch l).setBuilder l
    { (s.advanceEpoch l).builders[l] with holder := some m, fresh := true, lastSeq := some m.sequence }).setAuth l
      (.held c)).setWindow l []).engage c .holding l

/-- The reports of a grant (R63, R64). -/
def State.grantReport (s : State) (l : Loader) (previous : Option Chair) (c : Chair) (offerer : Option Chair) : State :=
  let epoch := s.auth[l].epoch
  let s := s.notice c { name := .grant, loader := some l, chair := some c, epoch := epoch }
  let why : Handover := if offerer.isSome then .transferred else .taken
  let s := match previous with
    | none => s
    | some p => s.notice p { name := .lost, loader := some l, chair := some c, epoch := epoch, byte6 := why.code }
  let s := s.raise .granted (some l) (some c) ((byteOfIndex previous).setWidth 16)
  s.count (.loader l grants)

theorem State.grant_eq (s : State) (l previous c offerer m) : s.grant l previous c offerer m =
    ((s.grantMoved l c m).releaseOpt previous).grantReport l previous c offerer := rfl

namespace State.RecordsAgree
variable {s : State} {l : Loader}

theorem noticeIfPresent (h : s.RecordsAgree) (c n) : (s.noticeIfPresent c n).RecordsAgree := by
  simp only [State.noticeIfPresent]
  repeat' split
  · exact h
  · exact h
  · exact h.notice _ _

theorem enabled_ne_false (h : s.enabled l = true) {p : Prop} (hd : s.enabled l = false) : p :=
  absurd (h.symm.trans hd) (by decide)

/-- A loader whose record does not call takes another such state that names the same parties. -/
theorem setAuth_same (h : s.RecordsAgree) {a : AuthState} (hp : ∀ c, a.placesOf c = s.auth[l].state.placesOf c)
    (hs : s.auth[l].state.callStamp = none) (hc : a.callStamp = none)
    (hd : s.enabled l = false → a = .standing none .disabled) : (s.setAuth l a).RecordsAgree := by
  have hb := h.but l
  rw [hs] at hb
  exact hb.setAuth_agree hp hc hd

/-! ## A permitted set that lacks the engaged loader, and a CHAIRS entry (R41, R167) -/

theorem permitEnds (h : s.RecordsAgree) (c : Chair) (l : Loader) : (s.permitEnds c l).RecordsAgree := by
  have hstand (hne : s.auth[l].state ≠ .standing none .disabled) : (s.standEntry l .chairLost).RecordsAgree :=
    h.standEntry fun hd => enabled_ne_false (h.enabled hne) hd
  unfold State.permitEnds
  cases ha : s.auth[l].state <;> dsimp only
  case standing retained cause =>
    split
    · exact (h.dropRetained l).noticeIfPresent _ _
    · exact h
  case held x =>
    split
    · exact hstand (by rw [ha]; exact fun he => nomatch he)
    · exact h
  case offered holder x o n r m =>
    split
    · exact hstand (by rw [ha]; exact fun he => nomatch he)
    · split
      · next hx =>
        subst hx
        exact State.RecordsAgree.endOffer_return (s := s.withdrawn l x n .permit) (h.notice _ _) ha n _
      · exact h
  case matching holder x o r m =>
    split
    · exact hstand (by rw [ha]; exact fun he => nomatch he)
    · split
      · next hx =>
        subst hx
        exact State.RecordsAgree.endMatching_return (s := s.aborted l x .permit) (h.notice _ _) ha
      · exact h
  all_goals exact h

theorem narrowPermits (h : s.RecordsAgree) (c : Chair) : (s.narrowPermits c).RecordsAgree := by
  unfold State.narrowPermits
  split
  · exact h
  · split
    · exact h
    · exact h.permitEnds _ _

theorem applyChair (h : s.RecordsAgree) (c : Chair) (e : ChairEntry) : (s.applyChair c e).RecordsAgree := by
  have ht : State.RecordsAgree { s with tables := { s.tables with chairs := putAt s.tables.chairs c e } } := h.same rfl
  have htrim (u : State) (hu : u.RecordsAgree) (set) : (u.trimViews c set).callWalk.RecordsAgree := hu.same rfl
  simp only [State.applyChair]
  refine htrim _ ?_ _
  repeat' split
  · exact ht.becomeAbsent c absentDisabled
  · exact ht.becomeAbsent c absentChanged
  · exact ht.narrowPermits c

/-! ## The grant (R63, R64) -/

/-- The records of a grant, before the previous holder leaves its place (R63). -/
theorem grantMoved (h : s.RecordsAgree) {previous : Option Chair} {c : Chair} {origin r timer}
    (ha : s.auth[l].state = .matching previous c origin r timer) (m : Command) :
    ((s.grantMoved l c m).releaseOpt previous).RecordsAgree := by
  obtain ⟨hb, hx, hp, hel, hen⟩ := h.but_matching ha
  have h1 := ((hb.setAuth (.held c)).congr (t := ((s.advanceEpoch l).setBuilder l
      { (s.advanceEpoch l).builders[l] with holder := some m, fresh := true, lastSeq := some m.sequence }).setAuth l
        (.held c) |>.setWindow l [])
    (fun k hk => by simp [-Fin.getElem_fin, putAt_other _ _ hk.symm]) rfl rfl rfl (fun _ _ => rfl) fun _ _ => rfl).engage .holding hel
  have hs : (s.grantMoved l c m).auth[l].state = .held c := by
    rw [State.grantMoved, State.engage_auth, State.setWindow_auth, State.setAuth_auth, putAt_same]
  have hheld : s.auth[l].state.holder = previous := by rw [ha]; rfl
  unfold State.releaseOpt
  cases previous with
  | none =>
    refine State.AgreesBut.agree_of_not_calling (s := s.grantMoved l c m) h1 (fun x => ?_) (by rw [hs]; rfl)
      fun hd => enabled_ne_false hen hd
    rw [hs, AuthState.placesOf_held]
    split
    · next hxc => rw [hxc, holderPlace_self]
    · next hxc =>
      rw [hp x hxc, hheld, holderPlace_none]
      exact holderPlace_other fun he => hxc (Option.some.inj he).symm
  | some y =>
    have hy : y ≠ c := fun he => hx (by rw [hheld, he])
    have hye : ∀ k, k ≠ l → (s.grantMoved l c m).chairs[y].engaged ≠ some k := by
      rw [State.grantMoved, State.engage_chairs, putAt_other _ _ hy.symm]
      exact h.helse (AuthState.holding_mem hheld)
    refine (State.AgreesBut.release (s := s.grantMoved l c m) h1 hye).agree_of_not_calling (fun x => ?_)
      (by rw [State.release_auth, hs]; rfl) fun hd =>
        enabled_ne_false (State.AgreesBut.enabled_congr (s := s) (by simp [State.grantMoved]) hen) hd
    rw [State.release_auth, hs, AuthState.placesOf_held]
    by_cases hxy : x = y
    · subst hxy
      rw [if_pos rfl]
      exact holderPlace_other fun he => hy (Option.some.inj he).symm
    · rw [if_neg hxy]
      split
      · next hxc => rw [hxc, holderPlace_self]
      · next hxc =>
        rw [hp x hxc, hheld, holderPlace_other fun he => hxc (Option.some.inj he).symm,
          holderPlace_other fun he => hxy (Option.some.inj he).symm]

theorem grant (h : s.RecordsAgree) {previous : Option Chair} {c : Chair} {origin r timer}
    (ha : s.auth[l].state = .matching previous c origin r timer) (offerer : Option Chair) (m : Command) :
    (s.grant l previous c offerer m).RecordsAgree := by
  have hrec := h.grantMoved ha m
  rw [State.grant_eq]
  unfold State.grantReport
  refine State.RecordsAgree.count (State.RecordsAgree.raise ?_ _ _ _ _) _ _
  cases previous with
  | none => exact State.RecordsAgree.notice hrec _ _
  | some y => exact State.RecordsAgree.notice (State.RecordsAgree.notice hrec _ _) _ _

/-! ## Offers and the walk (R14, R53) -/

/-- An offer to an IDLE chair of a loader that is in no handover (R14). -/
theorem makeOffer (h : s.RecordsAgree) {c : Chair} (hc : s.chairs[c].status = .idle)
    (ho : s.auth[l].state.offeredChair = none) (hm : s.auth[l].state.candidate = none) (hen : s.enabled l = true)
    (offerer : Option Chair) : (s.makeOffer l c offerer).RecordsAgree := by
  have hce := h.idle_engaged hc
  have hhold : s.auth[l].state.holder ≠ some c := fun hh =>
    absurd (hc.symm.trans (h.engaged (AuthState.holding_mem hh)).2) (by decide)
  have hb := ((((h.but l).congr (t := { s with offerCounter := s.offerCounter + 1 }) (fun _ _ => rfl) rfl rfl rfl
    (fun _ _ => rfl) fun _ _ => rfl).dequeue).setAuth
      (.offered s.auth[l].state.holder c s.auth[l].state.offerOrigin (s.offerCounter + 1) offerer
        s.tables.device.offerTimeout)).engage (x := c) .offered (by
          intro k hk
          change s.chairs[c].engaged ≠ some k
          rw [hce]
          exact fun he => nomatch he)
  have hs : (s.makeOffer l c offerer).auth[l].state = .offered s.auth[l].state.holder c s.auth[l].state.offerOrigin
      (s.offerCounter + 1) offerer s.tables.device.offerTimeout := by rw [State.makeOffer_auth, putAt_same]
  refine State.AgreesBut.agree_of_not_calling (s := s.makeOffer l c offerer) (l := l) (hb.congr (fun _ _ => rfl) rfl rfl rfl
    (fun _ _ => rfl) fun _ _ => rfl) (fun x => ?_) (by rw [hs]; rfl) fun hd => enabled_ne_false hen hd
  rw [hs, AuthState.placesOf_offered]
  by_cases hx : x = c
  · subst hx
    rw [if_pos rfl, if_pos rfl, holderPlace_other hhold, List.nil_append]
  · rw [if_neg hx, if_neg (Ne.symm hx), AuthState.placesOf_eq, ho, hm]
    simp

theorem walkOne (h : s.RecordsAgree) {e : CallEntry} (he : s.auth[e.loader].state = .calling e.stamp) :
    (s.walkOne e).RecordsAgree := by
  unfold State.walkOne
  split
  · next c hc =>
    exact h.makeOffer (h.2.1.1 c (List.mem_of_find?_eq_some hc)).1 (by rw [he]; rfl) (by rw [he]; rfl)
      (h.enabled (by rw [he]; exact fun he => nomatch he)) none
  · exact h

theorem walk (h : s.RecordsAgree) : s.walk.RecordsAgree := by
  have fold : ∀ (q : List CallEntry) (u : State), u.RecordsAgree →
      (∀ e ∈ q, u.auth[e.loader].state = .calling e.stamp) → (q.map (·.loader)).Nodup →
      (q.foldl State.walkOne u).RecordsAgree := by
    intro q
    induction q with
    | nil => intro u hu _ _; exact hu
    | cons e q ih =>
      intro u hu hc hn
      rw [List.map_cons, List.nodup_cons] at hn
      refine ih _ (hu.walkOne (hc e List.mem_cons_self)) (fun f hf => ?_) hn.2
      have hne : f.loader ≠ e.loader := fun hfe => hn.1 (hfe ▸ List.mem_map_of_mem hf)
      rw [State.walkOne_auth_other u e hne]
      exact hc f (List.mem_cons_of_mem _ hf)
  exact fold s.callQueue s h (fun e he => (h.1.1 e he).1) h.1.2.2

theorem walkIfCalled (h : s.RecordsAgree) : s.walkIfCalled.RecordsAgree := by
  unfold State.walkIfCalled
  split
  · exact h.walk.same rfl
  · exact h

theorem finish (h : s.RecordsAgree) : s.finish.RecordsAgree := by
  simp only [State.finish]
  split
  · exact h.same rfl
  · exact h.walkIfCalled.same rfl

/-! ## Requests (Chapter 1) -/

theorem refuse (h : s.RecordsAgree) (c tag k why) : (s.refuse c tag k why).RecordsAgree := h.same rfl

theorem done (h : s.RecordsAgree) (c tag k e n m) : (s.done c tag k e n m).RecordsAgree := h.same rfl

theorem doneNone (h : s.RecordsAgree) (c tag) : (s.doneNone c tag).RecordsAgree := h.same rfl

theorem authorityRequest (h : s.RecordsAgree) {c b tag fits} {k : State → Loader → State}
    (hk : ∀ l, s.enabled l = true → (k s l).RecordsAgree) : (s.authorityRequest c b tag fits k).RecordsAgree := by
  simp only [State.authorityRequest]
  split
  · exact h.refuse _ _ _ _
  · split
    · exact h.refuse _ _ _ _
    · split
      · exact h.refuse _ _ _ _
      · split
        · exact h.refuse _ _ _ _
        · next hen =>
          split
          · exact h.refuse _ _ _ _
          · exact hk _ (by simpa using hen)

theorem offerRequest (h : s.RecordsAgree) (c b tag args) : (s.offerRequest c b tag args).RecordsAgree := by
  simp only [State.offerRequest]
  refine h.authorityRequest fun l hen => ?_
  split
  · exact h
  · next t _ =>
    split
    · exact h.refuse _ _ _ _
    · next hnone =>
      have hidle : s.chairs[t].status = .idle ∧ s.auth[l].state.offeredChair = none ∧ s.auth[l].state.candidate = none := by
        simp only [State.offerChecks] at hnone
        split at hnone
        · exact absurd hnone (by simp)
        · next hst =>
          by_contra hn
          split at hnone
          · exact absurd hnone (by simp)
          · split at hnone
            · exact absurd hnone (by simp)
            · next hi =>
              refine hn ⟨by simpa using hi, ?_⟩
              cases ha : s.auth[l].state <;> rw [ha] at hst <;>
                simp_all [AuthState.offeredChair, AuthState.candidate]
      exact State.RecordsAgree.makeOffer (h.done _ _ _ _ _ _) hidle.1 hidle.2.1 hidle.2.2 hen _

theorem answerMissed (h : s.RecordsAgree) (c tag l n) : (s.answerMissed c tag l n).RecordsAgree := h.refuse _ _ _ _

theorem acceptRequest (h : s.RecordsAgree) (c b tag args) : (s.acceptRequest c b tag args).RecordsAgree := by
  simp only [State.acceptRequest]
  refine h.authorityRequest fun l hen => ?_
  split
  · next holder x origin n offerer timer ha =>
    split
    · next hx =>
      obtain ⟨rfl, -⟩ := hx
      obtain ⟨hb, hh, hp, hel, -⟩ := h.but_offered ha
      have hholder : s.auth[l].state.holder = holder := by rw [ha]; rfl
      rw [hholder] at hh hp
      have hm := State.AgreesBut.beginMatching
        (s := s.done x tag l (s.auth[l].epoch + 1) ((offerNumberArg args).getD 0) s.tables.device.matchTimeout)
        (hb.notice _ _) hh hp hel hen origin offerer
      have hchair := ((State.placesRight_iff _).mp hm.2.2.1 x).2
      refine State.RecordsAgree.setChair hm ?_ ?_ ?_ fun hmem => ?_
      · rfl
      · exact fun _ => rfl
      · exact hchair
      · simp at hmem
    · exact h.answerMissed _ _ _ _
  · exact h.answerMissed _ _ _ _

theorem declineRequest (h : s.RecordsAgree) (c b tag args) : (s.declineRequest c b tag args).RecordsAgree := by
  simp only [State.declineRequest]
  refine h.authorityRequest fun l hen => ?_
  split
  · next holder x origin n offerer timer ha =>
    split
    · next hx =>
      obtain ⟨rfl, -⟩ := hx
      exact State.RecordsAgree.endOffer_return (h.done x tag l _ _ _) ha _ _
    · exact h.answerMissed _ _ _ _
  · exact h.answerMissed _ _ _ _

theorem cancelRequest (h : s.RecordsAgree) (c b tag args) : (s.cancelRequest c b tag args).RecordsAgree := by
  simp only [State.cancelRequest]
  refine h.authorityRequest fun l hen => ?_
  have hd := h.done c tag l s.auth[l].epoch 0 0
  split
  · next holder x origin n offerer timer ha =>
    split
    · exact State.RecordsAgree.endOffer_return (s := State.withdrawn _ l x n .cancelled) (hd.notice _ _) ha _ _
    · exact h.refuse _ _ _ _
  · next holder x origin offerer timer ha =>
    split
    · split
      · exact State.RecordsAgree.endMatching_return hd ha
      · exact State.RecordsAgree.endMatching_return (s := State.aborted _ l x .cancelled) (hd.notice _ _) ha
    · exact h.refuse _ _ _ _
  · exact h.refuse _ _ _ _

/-- A loader whose other parties are gone takes an IDLE chair as its candidate. -/
theorem beginMatching_alone {u : State} {places : Chair → List ChairStatus} {holder : Option Chair} {c : Chair}
    (hb : u.AgreesBut l places none) (hp : ∀ x, places x = holderPlace holder x) (hc : u.chairs[c].engaged = none)
    (hen : u.enabled l = true) (o r) : (u.beginMatching l holder c o r).RecordsAgree := by
  have hpc := hb.here c
  rw [State.PlaceAgrees, hc, if_neg (fun he => nomatch he), hp c] at hpc
  refine hb.beginMatching (fun hh => ?_) (fun x _ => hp x) (by rw [hc]; exact fun _ _ he => nomatch he) hen o r
  rw [hh, holderPlace_self] at hpc
  exact absurd hpc (List.cons_ne_nil _ _)

theorem takeOperator (h : s.RecordsAgree) {c : Chair} (hc : s.chairs[c].status = .idle)
    (ha : s.auth[l].state = .free ∨ ∃ w, s.auth[l].state = .calling w) (hen : s.enabled l = true) (tag : Word16) :
    (s.takeOperator c tag l).RecordsAgree := by
  have hb := State.AgreesBut.dequeue
    (s := s.done c tag l (s.auth[l].epoch + 1) 0 s.tables.device.matchTimeout) ((h.but l).notice _ _)
  refine beginMatching_alone (u := State.dequeue _ l) (holder := none) hb (fun x => ?_) (h.idle_engaged hc) hen _ _
  obtain ha | ⟨w, ha⟩ := ha <;> rw [ha] <;> rfl

theorem takeRequest_checks {c : Chair} (hc : s.takeOperatorChecks c l = none) :
    s.chairs[c].status = .idle ∧ (s.auth[l].state = .free ∨ ∃ w, s.auth[l].state = .calling w) := by
  simp only [State.takeOperatorChecks] at hc
  split at hc
  · exact absurd hc (by simp)
  · next hi =>
    refine ⟨by simpa using hi, ?_⟩
    split at hc
    · next ha => exact .inl ha
    · next w ha => exact .inr ⟨w, ha⟩
    · exact absurd hc (by simp)

/-- A release leaves a chair that is engaged with no loader so. -/
theorem release_unengaged {u : State} {x c : Chair} (hc : u.chairs[c].engaged = none) :
    (u.release x).chairs[c].engaged = none := by
  cases he : (u.release x).chairs[c].engaged with
  | none => rfl
  | some k => exact absurd (hc.symm.trans (State.release_engaged he)) (fun he => nomatch he)

theorem takeSupervisor (h : s.RecordsAgree) {c : Chair} (hc : s.chairs[c].status = .idle) (hen : s.enabled l = true)
    (hr : ∀ n, s.auth[l].state ≠ .releasing n) (tag : Word16) : (s.takeSupervisor c tag l).RecordsAgree := by
  have hce := h.idle_engaged hc
  have hb := h.but l
  simp only [State.takeSupervisor]
  refine State.RecordsAgree.raise ?_ _ _ _ _
  cases ha : s.auth[l].state <;> try dsimp only
  case calling w =>
    have hd := State.AgreesBut.dequeue
      (s := s.done c tag l (s.auth[l].epoch + 1) 0 s.tables.device.matchTimeout) ((h.but l).notice _ _)
    exact beginMatching_alone (u := State.dequeue _ l) hd (fun x => by rw [ha]; rfl) hce hen _ _
  case offered holder x o n r m =>
    obtain ⟨hb, hh, hp, hel, -⟩ := h.but_offered ha
    have hg := State.AgreesBut.offerGone (s := State.withdrawn
      (s.done c tag l (s.auth[l].epoch + 1) 0 s.tables.device.matchTimeout) l x n .preempted) (hb.congr (fun _ _ => rfl)
      rfl rfl rfl (fun _ _ => rfl) fun _ _ => rfl) hel n
    have hholder : s.auth[l].state.holder = holder := by rw [ha]; rfl
    rw [hholder] at hh hp
    refine State.RecordsAgree.endOffer (beginMatching_alone hg (fun y => ?_) ?_ ?_ _ _)
    · split
      · next hy => rw [hy, holderPlace_other hh]
      · next hy => exact hp y hy
    · refine release_unengaged ?_
      rw [State.setChair_chairs, putAt_get]
      split
      · next hx => subst hx; exact hce
      · exact hce
    · exact State.AgreesBut.enabled_congr (s := s) (by simp) hen
  case matching holder x o r m =>
    obtain ⟨hb, hh, hp, hel, -⟩ := h.but_matching ha
    have hg := State.AgreesBut.endMatching (s := State.aborted
      (s.done c tag l (s.auth[l].epoch + 1) 0 s.tables.device.matchTimeout) l x .preempted) (hb.congr (fun _ _ => rfl)
      rfl rfl rfl (fun _ _ => rfl) fun _ _ => rfl) hel
    have hholder : s.auth[l].state.holder = holder := by rw [ha]; rfl
    rw [hholder] at hh hp
    refine beginMatching_alone hg (fun y => ?_) (release_unengaged hce) ?_ _ _
    · split
      · next hy => rw [hy, holderPlace_other hh]
      · next hy => exact hp y hy
    · exact State.AgreesBut.enabled_congr (s := s) (by simp) hen
  case held x =>
    rw [ha] at hb
    exact beginMatching_alone (u := s.done c tag l (s.auth[l].epoch + 1) 0 s.tables.device.matchTimeout)
      (hb.notice _ _) (fun y => AuthState.placesOf_held y x) hce hen _ _
  case free =>
    rw [ha] at hb
    exact beginMatching_alone (u := s.done c tag l (s.auth[l].epoch + 1) 0 s.tables.device.matchTimeout)
      (hb.notice _ _) (fun _ => rfl) hce hen _ _
  case releasing n => exact absurd ha (hr n)
  case standing retained cause =>
    cases retained with
    | none =>
      rw [ha] at hb
      exact beginMatching_alone (u := s.done c tag l (s.auth[l].epoch + 1) 0 s.tables.device.matchTimeout)
        (hb.notice _ _) (fun y => AuthState.placesOf_standing y none cause) hce hen _ _
    | some x =>
      have hu : State.RecordsAgree (State.lost (s.done c tag l (s.auth[l].epoch + 2) 0 s.tables.device.matchTimeout) l x c
        ((s.done c tag l (s.auth[l].epoch + 2) 0 s.tables.device.matchTimeout).auth[l].epoch + 1) .taken) := h.same rfl
      obtain ⟨hb, -, hen'⟩ := State.RecordsAgree.but_dropRetained (l := l) (x := x) (cause := cause) hu ha
      refine beginMatching_alone hb (fun _ => rfl) ?_ hen' _ _
      have hd : State.dropRetained (State.lost (s.done c tag l (s.auth[l].epoch + 2) 0 s.tables.device.matchTimeout) l x c
        ((s.done c tag l (s.auth[l].epoch + 2) 0 s.tables.device.matchTimeout).auth[l].epoch + 1) .taken) l =
          ((State.advanceEpoch (State.lost (s.done c tag l (s.auth[l].epoch + 2) 0 s.tables.device.matchTimeout) l x c
        ((s.done c tag l (s.auth[l].epoch + 2) 0 s.tables.device.matchTimeout).auth[l].epoch + 1) .taken) l).setAuth l
          (.standing none cause)).release x := by
        unfold State.dropRetained
        change (match s.auth[l].state with
          | .standing (some h) cause => _
          | _ => _) = _
        rw [ha]
      rw [hd]
      exact release_unengaged hce

theorem takeRequest (h : s.RecordsAgree) (c b tag args) : (s.takeRequest c b tag args).RecordsAgree := by
  simp only [State.takeRequest]
  refine h.authorityRequest fun l hen => ?_
  split
  · split
    · exact h.refuse _ _ _ _
    · next hc =>
      refine h.takeSupervisor (State.idle_of_takeSupervisorChecks hc) hen (fun n ha => ?_) tag
      simp only [State.takeSupervisorChecks, ha] at hc
      split at hc <;> exact absurd hc (by simp)
  · split
    · exact h.refuse _ _ _ _
    · next hc => exact h.takeOperator (takeRequest_checks hc).1 (takeRequest_checks hc).2 hen tag

/-- The holder of a HELD loader is removed. -/
theorem releaseToAuto (h : s.RecordsAgree) {c : Chair} (ha : s.auth[l].state = .held c) (tag : Word16) :
    (s.releaseToAuto c tag l).RecordsAgree := by
  have hb := h.but l
  rw [ha] at hb
  have hen := h.enabled (l := l) (by rw [ha]; exact fun he => nomatch he)
  have hel := h.helse (l := l) (x := c) (AuthState.holding_mem (by rw [ha]; rfl))
  have hrel := State.AgreesBut.release (x := c)
    ((State.AgreesBut.advanceEpoch (s := s.done c tag l (s.auth[l].epoch + 1) 0 s.tables.device.releaseTimeout)
      (hb.notice _ _)).setAuth (.releasing s.tables.device.releaseTimeout)) hel
  refine State.RecordsAgree.raise (hrel.agree_of_not_calling (fun x => ?_) ?_ fun hd => ?_) _ _ _ _
  · rw [State.release_auth, State.setAuth_auth, putAt_same, AuthState.placesOf_releasing]
    split
    · rfl
    · next hx =>
      rw [AuthState.placesOf_held]
      exact (holderPlace_other fun he => hx (Option.some.inj he).symm).symm
  · rw [State.release_auth, State.setAuth_auth, putAt_same]
    rfl
  · exact enabled_ne_false (State.AgreesBut.enabled_congr (s := s) (by simp) hen) hd

theorem releaseRequest (h : s.RecordsAgree) (c b tag args) : (s.releaseRequest c b tag args).RecordsAgree := by
  simp only [State.releaseRequest]
  refine h.authorityRequest fun l hen => ?_
  split
  · exact h.refuse _ _ _ _
  · next hh =>
    split
    · next x ha =>
      have hx : x = c := by
        rw [ha] at hh
        simpa [AuthState.holder] using hh
      subst hx
      split
      · exact h.releaseToAuto ha tag
      · exact State.RecordsAgree.standEntry (h.done _ _ _ _ _ _) fun hd => enabled_ne_false hen hd
    · exact h.refuse _ _ _ _
    · exact h.refuse _ _ _ _

/-- A STANDING loader without a retained holder enters FREE (R10, R11, R27). -/
theorem enterFree_of_nobody (h : s.RecordsAgree) (hp : ∀ c, s.auth[l].state.placesOf c = [])
    (hc : s.auth[l].state.callStamp = none) (hen : s.enabled l = true) : (s.enterFree l).RecordsAgree := by
  have hb := h.but l
  rw [hc] at hb
  exact (hb.of_places fun c => (hp c).symm).enterFree hen

theorem recoverRequest (h : s.RecordsAgree) (c b tag args) : (s.recoverRequest c b tag args).RecordsAgree := by
  simp only [State.recoverRequest]
  refine h.authorityRequest fun l hen => ?_
  split
  · next retained cause ha =>
    split
    · exact h.refuse _ _ _ _
    · split
      · exact h.refuse _ _ _ _
      · split
        · refine State.RecordsAgree.raise (State.RecordsAgree.enterFree_of_nobody (h.done _ _ _ _ _ _) (fun x => ?_) ?_ hen)
            _ _ _ _
          · change s.auth[l].state.placesOf x = []
            rw [ha, AuthState.placesOf_standing, holderPlace_none]
          · change s.auth[l].state.callStamp = none
            rw [ha]
            rfl
        · next x =>
          split
          · next hx =>
            subst hx
            have hb := h.but l
            rw [ha] at hb
            refine State.RecordsAgree.raise (State.AgreesBut.beginMatching
              (s := s.done x tag l (s.auth[l].epoch + 1) 0 s.tables.device.matchTimeout) (holder := none) (x := x) (hb.notice _ _)
              (fun he => nomatch he) (fun y hy => ?_) ?_ hen _ _) _ _ _ _
            · rw [AuthState.placesOf_standing]
              exact holderPlace_other fun he => hy (Option.some.inj he).symm
            · exact h.helse (AuthState.holding_mem (by rw [ha]; rfl))
          · split
            · have hu : State.RecordsAgree (State.lost (s.done c tag l (s.auth[l].epoch + 1) 0 0) l x c
                ((s.done c tag l (s.auth[l].epoch + 1) 0 0).auth[l].epoch + 1) .taken) := h.same rfl
              obtain ⟨hb, -, hen'⟩ := State.RecordsAgree.but_dropRetained (l := l) (x := x) (cause := cause) hu ha
              exact State.RecordsAgree.raise (hb.enterFree hen') _ _ _ _
            · exact h.refuse _ _ _ _
  · exact h.refuse _ _ _ _

theorem stands (h : s.RecordsAgree) (xs : List Loader) (cause : Cause) :
    (xs.foldl (fun s l => s.stand l cause) s).RecordsAgree :=
  foldl_inv _ State.RecordsAgree (fun _ l hs => hs.stand l cause) xs s h

theorem stopRequest (h : s.RecordsAgree) (c b tag args) : (s.stopRequest c b tag args).RecordsAgree := by
  have hl (fits : Bool) : (s.stopLoaderRequest c b tag fits).RecordsAgree :=
    h.authorityRequest fun l _ => State.RecordsAgree.stand (h.done _ _ _ _ _ _) l .stop
  have hz (zone : Byte) (fits : Bool) : (s.stopZoneRequest c tag zone fits).RecordsAgree := by
    simp only [State.stopZoneRequest]
    repeat' split
    · exact h.refuse _ _ _ _
    · exact h.refuse _ _ _ _
    · exact h.refuse _ _ _ _
    · exact State.RecordsAgree.stands (h.doneNone _ _) _ _
  unfold State.stopRequest
  repeat' split
  all_goals first | exact hl _ | exact hz _ _

theorem presentRequest (h : s.RecordsAgree) (c tag args) : (s.presentRequest c tag args).RecordsAgree := by
  simp only [State.presentRequest]
  split
  · exact h.refuse _ _ _ _
  · split
    · next hc => exact State.RecordsAgree.becomePresent (h.doneNone _ _) (by simpa using hc) _
    · exact (State.RecordsAgree.refreshPresence (h.doneNone _ _) _).setAvailable _ _

theorem leaveRequest (h : s.RecordsAgree) (c tag args) : (s.leaveRequest c tag args).RecordsAgree := by
  simp only [State.leaveRequest]
  repeat' split
  · exact h.refuse _ _ _ _
  · exact h.refuse _ _ _ _
  · exact State.RecordsAgree.becomeAbsent (h.doneNone _ _) _ _

theorem viewOnRequest (h : s.RecordsAgree) (c b tag args) : (s.viewOnRequest c b tag args).RecordsAgree := by
  simp only [State.viewOnRequest]
  repeat' split
  all_goals exact h.same rfl

theorem viewOffRequest (h : s.RecordsAgree) (c b tag args) : (s.viewOffRequest c b tag args).RecordsAgree := by
  simp only [State.viewOffRequest]
  repeat' split
  all_goals exact h.same rfl

theorem lineAckRequest (h : s.RecordsAgree) (c tag args) : (s.lineAckRequest c tag args).RecordsAgree := by
  simp only [State.lineAckRequest]
  repeat' split
  all_goals exact h.same rfl

theorem chairRequest (h : s.RecordsAgree) (c b code tag args) : (s.chairRequest c b code tag args).RecordsAgree := by
  have hm := s.chairRequest_made c b code tag args
  generalize s.chairRequest c b code tag args = t at hm ⊢
  cases hm with
  | present => exact h.presentRequest _ _ _
  | leave => exact h.leaveRequest _ _ _
  | take => exact h.takeRequest _ _ _ _
  | offer => exact h.offerRequest _ _ _ _
  | accept => exact h.acceptRequest _ _ _ _
  | decline => exact h.declineRequest _ _ _ _
  | cancel => exact h.cancelRequest _ _ _ _
  | release => exact h.releaseRequest _ _ _ _
  | recover => exact h.recoverRequest _ _ _ _
  | stop => exact h.stopRequest _ _ _ _
  | viewOn => exact h.viewOnRequest _ _ _ _
  | viewOff => exact h.viewOffRequest _ _ _ _
  | lineAck => exact h.lineAckRequest _ _ _
  | unknown => exact h.refuse _ _ _ _

end State.RecordsAgree

end Sys2Proof.Machine
end

section
/-! The consequences of the Cycle Timer, COMMAND and STATUS frames, the lines, the tables and the start-up keep the records in
agreement (R3, R12, R34, R44, R46). -/

namespace Sys2Proof.Machine

open Sys2Proof

/-! ## The records that no party has -/

/-- Records in which every loader stands alone and every chair is ABSENT agree (R31, R32, R35). -/
theorem State.recordsAgree_of_standing {s : State} (ha : ∀ l : Loader, ∃ cause, s.auth[l].state = .standing none cause)
    (hd : s.DisabledStand) (hc : ∀ c : Chair, s.chairs[c].status = .absent ∧ s.chairs[c].engaged = none)
    (hf : s.freeList = []) (hq : s.callQueue = []) : s.RecordsAgree := by
  refine ⟨⟨by rw [hq]; exact fun _ he => absurd he List.not_mem_nil, fun l hl => ?_, by rw [hq]; exact List.nodup_nil⟩,
    ⟨by rw [hf]; exact fun _ he => absurd he List.not_mem_nil, by rw [hf]; exact List.nodup_nil⟩,
    (State.placesRight_iff s).mpr fun c => ⟨fun l => ?_, fun _ => .inr (hc c).1⟩, hd⟩
  · obtain ⟨cause, ha⟩ := ha l
    rw [ha] at hl
    exact absurd hl Bool.false_ne_true
  · obtain ⟨cause, ha⟩ := ha l
    rw [State.PlaceAgrees, (hc c).2, if_neg (fun he => nomatch he), ha, AuthState.placesOf_standing, holderPlace_none]

theorem State.powerOnValues_agree (t : Tables) (com : Bool) (config : ConfigLoader) (pins signal) :
    (State.powerOnValues t com config pins signal).RecordsAgree := by
  have hauth (l : Loader) : (State.powerOnValues t com config pins signal).auth[l] = AuthRecord.initial t.loaders[l] :=
    mapAll_get _ _ _
  refine State.recordsAgree_of_standing (fun l => ⟨_, by rw [hauth l]; rfl⟩) (fun l hd => ?_) (fun c => ?_) rfl rfl
  · change t.loaders[l].enabled = false at hd
    rw [hauth l, AuthRecord.initial, hd]
    rfl
  · have hc : (State.powerOnValues t com config pins signal).chairs[c] = .initial := Vector.getElem_replicate _
    rw [hc]
    exact ⟨rfl, rfl⟩

@[simp] theorem State.missOffer_auth (s : State) (c : Chair) : (s.missOffer c).auth = s.auth := by
  simp only [State.missOffer]
  split <;> rfl

namespace State.RecordsAgree
variable {s : State} {l : Loader}

/-! ## Timers and the deadline (R10, R18, R26, R30, R66, R116, R117) -/

theorem offerExpiry (h : s.RecordsAgree) (l : Loader) : (s.offerExpiry l).RecordsAgree := by
  unfold State.offerExpiry
  split
  · next holder c origin n offerer timer ha =>
    split
    · have hp := (h.engaged (AuthState.offered_mem (by rw [ha]; rfl) : .offered ∈ s.auth[l].state.placesOf c)).2
      have hm : ((s.withdrawn l c n .expired).missOffer c).RecordsAgree :=
        State.RecordsAgree.missOffer (h.notice _ _) (h.2.1.not_listed (by rw [hp]; decide))
      exact hm.endOffer_return (by rw [State.missOffer_auth]; exact ha) _ _
    · exact h
  · exact h

theorem matchTimeout (h : s.RecordsAgree) (l : Loader) : (s.matchTimeout l).RecordsAgree := by
  unfold State.matchTimeout
  split
  · next ha =>
    split
    · exact (State.RecordsAgree.raise (State.RecordsAgree.count (h.notice _ _) _ _) _ _ _ _).endMatching_return ha
    · exact h
  · exact h

theorem releaseTimeout (h : s.RecordsAgree) (l : Loader) : (s.releaseTimeout l).RecordsAgree := by
  unfold State.releaseTimeout
  split
  · next ha => exact h.standEntry (enabled_ne_false (h.enabled (by rw [ha]; exact fun he => nomatch he)))
  · exact h

theorem freed (h : s.RecordsAgree) (hp : ∀ c, s.auth[l].state.placesOf c = []) (hc : s.auth[l].state.callStamp = none)
    (hen : s.enabled l = true) (e k c d) : (((s.setAuth l .free).raise e k c d).enterFree l).RecordsAgree := by
  have hf : ((s.setAuth l .free).raise e k c d).RecordsAgree :=
    (h.setAuth_same (a := .free) (fun x => (hp x).symm) hc rfl (enabled_ne_false hen)).raise _ _ _ _
  have hs : ((s.setAuth l .free).raise e k c d).auth[l].state = .free := by
    rw [State.raise_auth, State.setAuth_auth, putAt_same]
  exact hf.enterFree_of_nobody (fun x => by rw [hs]; rfl) (by rw [hs]; rfl) hen

theorem readyTest (h : s.RecordsAgree) (l : Loader) : (s.readyTest l).RecordsAgree := by
  unfold State.readyTest
  split
  · next cause ha =>
    split
    · next hc =>
      have hen := h.enabled (l := l) (by rw [ha]; rintro ⟨⟩; simp at hc)
      exact h.freed (fun x => by rw [ha]; rfl) (by rw [ha]; rfl) hen _ _ _ _
    · exact h
  · exact h

/-- The Status Unit's record of a loader, its accepted request apart, is nothing that agreement reads. -/
theorem setStatus (h : s.RecordsAgree) {st : LoaderStatus} (ha : st.accepted = s.status[l].accepted) :
    (s.setStatus l st).RecordsAgree := by
  refine h.congr rfl (fun _ => ⟨rfl, rfl, rfl⟩) rfl rfl (fun k => ?_) rfl
  change (putAt s.status l st)[k].accepted = _
  rw [putAt_get]
  split
  · next hk => rw [ha, hk]
  · rfl

theorem enterOutcome (h : s.RecordsAgree) (l : Loader) : (s.enterOutcome l).RecordsAgree := by
  simp only [State.enterOutcome]
  split
  · exact h.setStatus rfl
  · refine State.RecordsAgree.count (h.setStatus ?_) _ _
    rfl

theorem stepTimer (h : s.RecordsAgree) (l : Loader) : (s.setAuth l s.auth[l].state.stepTimer).RecordsAgree := by
  by_cases hc : s.auth[l].state.callStamp = none
  · refine h.setAuth_same (fun c => ?_) hc ?_ fun hd => ?_
    · cases s.auth[l].state <;> rfl
    · cases ha : s.auth[l].state <;> rw [ha] at hc <;> first | rfl | exact hc
    · rw [h.2.2.2 l hd]
      rfl
  · obtain ⟨w, hw⟩ := Option.ne_none_iff_exists'.mp hc
    have hsame : s.setAuth l s.auth[l].state.stepTimer = s := by
      rw [AuthState.callStamp_eq_some.mp hw]
      change s.setAuth l (.calling w) = s
      rw [← AuthState.callStamp_eq_some.mp hw]
      change { s with auth := putAt s.auth l s.auth[l] } = s
      rw [putAt_self]
    rwa [hsame]

theorem deadline (h : s.RecordsAgree) (l : Loader) : (s.deadline l).RecordsAgree := by
  simp only [State.deadline, State.deadlineFalls]
  split
  · exact ((h.enterOutcome l).stepTimer l).same rfl
  · exact h

theorem linkDownTest (h : s.RecordsAgree) (l : Loader) : (s.linkDownTest l).RecordsAgree := by
  simp only [State.linkDownTest, State.linkGoesDown]
  split
  · refine State.RecordsAgree.stand (State.RecordsAgree.raise (h.setStatus ?_) _ _ _ _) _ _
    rfl
  · exact h

theorem linkUpTest (h : s.RecordsAgree) (l : Loader) : (s.linkUpTest l).RecordsAgree := by
  simp only [State.linkUpTest, State.linkGoesUp]
  split
  · refine State.RecordsAgree.raise (h.setStatus ?_) _ _ _ _
    rfl
  · exact h

/-! ## STATUS frames (R104-R114) -/

theorem degradeTest (h : s.RecordsAgree) (l : Loader) : (s.degradeTest l).RecordsAgree := by
  simp only [State.degradeTest]
  repeat' split
  · refine State.RecordsAgree.raise (h.setStatus ?_) _ _ _ _
    rfl
  · refine State.RecordsAgree.raise (h.setStatus ?_) _ _ _ _
    rfl
  · exact h

theorem zoneStep (h : s.RecordsAgree) (l b) : (s.zoneStep l b).RecordsAgree := by
  simp only [State.zoneStep]
  split
  · exact h
  · split
    · refine State.RecordsAgree.stand (State.RecordsAgree.raise (h.setStatus ?_) _ _ _ _) _ _
      rfl
    · exact h.setStatus rfl

end State.RecordsAgree

/-! What the steps of a STATUS frame leave unchanged. -/

@[simp] theorem State.heardStep_tables (s : State) (l : Loader) : (s.heardStep l).tables = s.tables := rfl

@[simp] theorem State.degradeTest_tables (s : State) (l : Loader) : (s.degradeTest l).tables = s.tables := by
  simp only [State.degradeTest]
  repeat' split
  all_goals rfl

@[simp] theorem State.farEndStep_tables (s : State) (l b) : (s.farEndStep l b).tables = s.tables := by
  simp only [State.farEndStep, State.degradeTest_tables]
  rfl

@[simp] theorem State.stand_tables (s : State) (l cause) : (s.stand l cause).tables = s.tables :=
  congrArg Rest.tables (s.stand_rest l cause)

@[simp] theorem State.zoneStep_tables (s : State) (l b) : (s.zoneStep l b).tables = s.tables := by
  simp only [State.zoneStep]
  repeat' split
  all_goals simp [State.setStatus]

/-- A loader's entry is worked out again, and its class is then right (R48). -/
theorem State.AgreesBut.resort {s : State} {l : Loader}
    (h : s.AgreesBut l s.auth[l].state.placesOf s.auth[l].state.callStamp)
    (hd : s.enabled l = false → s.auth[l].state = .standing none .disabled) : (s.resort l).RecordsAgree := by
  unfold State.resort
  split
  · next w ha =>
    obtain ⟨hq, hcls⟩ := h.enqueue w
    exact hq.agree (fun _ => rfl) (by rw [State.enqueue_auth, ha]; rfl) hcls hd
  · next hn =>
    have hc : s.auth[l].state.callStamp = none := by
      by_contra hc
      obtain ⟨w, hw⟩ := Option.ne_none_iff_exists'.mp hc
      exact hn w (AuthState.callStamp_eq_some.mp hw)
    rw [hc] at h
    exact h.agree_of_not_calling (fun _ => rfl) hc hd

/-- The act on a changed request works the loader's place in the Call Queue out again (R47, R48, R50, R51). -/
theorem State.AgreesBut.requestChanged {s : State} {l : Loader}
    (h : s.AgreesBut l s.auth[l].state.placesOf s.auth[l].state.callStamp) (hen : s.enabled l = true)
    (helse : ∀ x, s.auth[l].state.placesOf x ≠ [] → ∀ k, k ≠ l → s.chairs[x].engaged ≠ some k) :
    (s.requestChanged l).RecordsAgree := by
  have hd : s.enabled l = false → s.auth[l].state = .standing none .disabled := State.RecordsAgree.enabled_ne_false hen
  have hsame (hc : s.auth[l].state.callStamp = none) : s.RecordsAgree := by
    rw [hc] at h
    exact h.agree_of_not_calling (fun _ => rfl) hc hd
  simp only [State.requestChanged]
  split
  · next ha =>
    split
    · rw [ha] at h
      exact h.enterCalling hen _ _
    · exact hsame (by rw [ha]; rfl)
  · next w ha =>
    split
    · exact h.resort hd
    · rw [ha] at h
      exact State.AgreesBut.enterFree (s := ((s.dequeue l).setAuth l .free).raise .callWithdrawn (some l))
        ((h.dequeue.setAuth .free).raise _ _ _ _) hen
  · next c w n r m ha =>
    split
    · exact hsame (by rw [ha]; rfl)
    · rw [ha] at h helse
      have hg := State.AgreesBut.offerGone (s := s.withdrawn l c n .callEnded) (h.notice _ _)
        (helse c (List.ne_nil_of_mem (AuthState.offered_mem rfl))) n
      refine State.RecordsAgree.endOffer (State.AgreesBut.enterFree ?_
        (State.AgreesBut.enabled_congr (s := s) (by simp) hen))
      refine State.AgreesBut.raise ((hg.setAuth .free).of_places fun x => ?_) _ _ _ _
      split
      · rfl
      · next hx =>
        rw [AuthState.placesOf_offered, if_neg (Ne.symm hx)]
        rfl
  · next h1 h2 h3 =>
    refine hsame ?_
    by_contra hc
    obtain ⟨w, hw⟩ := Option.ne_none_iff_exists'.mp hc
    exact h2 w (AuthState.callStamp_eq_some.mp hw)

namespace State.RecordsAgree
variable {s : State} {l : Loader}

theorem faultReport (h : s.RecordsAgree) (l r) : (s.faultReport l r).RecordsAgree := by
  simp only [State.faultReport]
  split
  · exact h.same rfl
  · exact h.same rfl

/-- A new accepted request, and the Authority Table's act on it. -/
theorem accept (h : s.RecordsAgree) (hen : s.enabled l = true) (r : Request) :
    ((s.setStatus l { s.status[l] with accepted := r }).requestChanged l).RecordsAgree := by
  refine State.AgreesBut.requestChanged (s := s.setStatus l { s.status[l] with accepted := r })
    ((h.but l).congr (fun _ _ => rfl) rfl rfl rfl (fun k hk => ?_) fun _ _ => rfl) hen
    fun x hx => ((h.party l).1 x hx).1
  simp only [State.callClass, State.setStatus, putAt_other _ _ hk.symm]

theorem requestStep (h : s.RecordsAgree) (hen : s.enabled l = true) (b) : (s.requestStep l b).RecordsAgree := by
  have hf (f : List Request) : (s.setStatus l { s.status[l] with filter := f }).RecordsAgree := (h.setStatus rfl)
  simp only [State.requestStep]
  split
  · split
    · exact State.RecordsAgree.faultReport (State.RecordsAgree.accept (hf _) hen _) _ _
    · exact State.RecordsAgree.accept (hf _) hen _
  · exact hf _

theorem modeStep (h : s.RecordsAgree) (l b) : (s.modeStep l b).RecordsAgree := by
  unfold State.modeStep
  split
  · next ha =>
    split
    · exact h.freed (fun x => by rw [ha]; rfl) (by rw [ha]; rfl)
        (h.enabled (by rw [ha]; exact fun he => nomatch he)) _ _ _ _
    · exact h
  · exact h

theorem forwardStep (h : s.RecordsAgree) (l hd p) : (s.forwardStep l hd p).RecordsAgree := by
  refine foldl_inv _ State.RecordsAgree (fun u c hu => ?_) _ s h
  simp only [State.forwardOne]
  split
  · exact hu.same rfl
  · exact hu.same rfl

theorem heardStep (h : s.RecordsAgree) (l) : (s.heardStep l).RecordsAgree := by
  refine State.RecordsAgree.count (h.setStatus ?_) _ _
  rfl

theorem farEndStep (h : s.RecordsAgree) (l b) : (s.farEndStep l b).RecordsAgree := by
  refine State.RecordsAgree.degradeTest (State.RecordsAgree.count (h.setStatus ?_) _ _) l
  rfl

theorem statusFrame (h : s.RecordsAgree) (l hd p) : (s.statusFrame l hd p).RecordsAgree := by
  simp only [State.statusFrame]
  split
  · exact h
  · next hen =>
    have h2 := (h.heardStep l).farEndStep l p.farEnd
    have hen' : (((s.heardStep l).farEndStep l p.farEnd).zoneStep l p.zone).enabled l = true := by
      simpa [State.enabled] using hen
    exact ((((h2.zoneStep l _).requestStep hen' _).modeStep l _).walkIfCalled).forwardStep _ _ _

/-! ## COMMAND frames (R55, R63, R73) -/

theorem commandFrameFrom (h : s.RecordsAgree) (c hd p) : (s.commandFrameFrom c hd p).RecordsAgree := by
  unfold State.commandFrameFrom
  split
  · exact h.count _ _
  · next l _ =>
    split
    · exact h.count _ _
    · simp only []
      split
      · split
        · simp only [State.holderFrame]
          split
          · exact h.same rfl
          · exact h.count _ _
        · exact h.count _ _
      · split
        · next hc =>
          split
          · simp only [State.candidateFrame]
            split
            · split
              · have hu (m w) : State.RecordsAgree (((s.setBuilder l
                    { s.builders[l] with cand := some m, lastCand := some m.sequence }).count (.chair c framesAccepted)).setWindow
                      l w) := h.same rfl
                obtain ⟨holder, origin, offerer, timer, ha⟩ : ∃ holder origin offerer timer,
                    s.auth[l].state = .matching holder c origin offerer timer := by
                  cases ha : s.auth[l].state <;> rw [ha] at hc <;> simp [AuthState.candidate] at hc
                  exact ⟨_, _, _, _, by rw [hc]⟩
                have hh : s.auth[l].state.holder = holder := by rw [ha]; rfl
                rw [hh]
                exact State.RecordsAgree.grant (hu _ _) ha _ _
              · exact h.same rfl
            · exact h.count _ _
          · exact h.count _ _
        · simp only [State.strangerFrame]
          split <;> exact h.count _ _

/-! ## Slots (R76, R96) -/

theorem sendFrame (h : s.RecordsAgree) (l k o) : (s.sendFrame l k o).RecordsAgree := by
  have hc (u : State) (hu : u.RecordsAgree) : (u.countFrame l k).RecordsAgree := by
    cases k with
    | stand => exact hu.count _ _
    | neutral => exact hu.count _ _
    | synthesized hold =>
      cases hold with
      | false => exact hu.count _ _
      | true => exact (hu.count _ _).count _ _
  have hset (b : Builder) : (s.setBuilder l b).RecordsAgree := h.same rfl
  have hsend (u : State) (hu : u.RecordsAgree) (p f) : (u.levelSend p f).RecordsAgree := hu.same rfl
  exact hsend _ (hc _ (hset _)) _ _

theorem sendIdle (h : s.RecordsAgree) (l k) : (s.sendIdle l k).RecordsAgree :=
  State.RecordsAgree.sendFrame (s := s.setBuilder l { s.builders[l] with stale := 0 }) (h.same rfl) l k .neutral

theorem slotDriven (h : s.RecordsAgree) (hen : s.enabled l = true) : (s.slotDriven l).RecordsAgree := by
  simp only [State.slotDriven]
  split
  · exact (h.standEntry (enabled_ne_false hen)).sendIdle _ _
  · refine State.RecordsAgree.sendFrame ?_ _ _ _
    exact h.same rfl

theorem slotFrame (h : s.RecordsAgree) (hen : s.enabled l = true) : (s.slotFrame l).RecordsAgree := by
  unfold State.slotFrame
  cases s.auth[l].state <;> try dsimp only
  case standing _ cause =>
    cases cause with
    | disabled => exact h
    | _ => exact h.sendIdle _ _
  case offered holder _ _ _ _ _ =>
    cases holder with
    | none => exact h.sendIdle _ _
    | some => exact h.slotDriven hen
  case matching holder _ _ _ _ =>
    cases holder with
    | none => exact h.sendIdle _ _
    | some => exact h.slotDriven hen
  case held => exact h.slotDriven hen
  all_goals exact h.sendIdle _ _

theorem slotOf (h : s.RecordsAgree) (hen : s.enabled l = true) (n) : (s.slotOf l n).RecordsAgree := by
  have hs := h.slotFrame hen
  simp only [State.slotOf]
  split <;> exact hs.same rfl

theorem slotAt (h : s.RecordsAgree) (p k) : (s.slotAt p k).RecordsAgree := by
  have hs (n) : (s.seek n).RecordsAgree := h.same rfl
  simp only [State.slotAt]
  split
  · next l hl =>
    have hl := List.find?_some hl
    simp only [Bool.and_eq_true] at hl
    exact (hs _).slotOf hl.1.1 _
  · exact hs _

theorem staleSlot (h : s.RecordsAgree) (x) : (s.staleSlot x).RecordsAgree := by
  have hs (n) : (s.seek n).RecordsAgree := h.same rfl
  simp only [State.staleSlot]
  split
  · next hl =>
    simp only [Bool.and_eq_true] at hl
    exact (hs _).slotOf hl.1.1.1 _
  · exact h

/-! ## Lines (R126-R133) -/

theorem activate (h : s.RecordsAgree) (i : Line) : (s.activate i).RecordsAgree :=
  State.RecordsAgree.stands (s := (s.setLine i { s.lines[i] with status := .active }).raise .interlockActive none none
    (lineDetail i)) (h.same rfl) _ _

theorem moveLine (h : s.RecordsAgree) (i : Line) : (s.moveLine i).RecordsAgree := by
  simp only [State.moveLine, State.becomeSafe]
  repeat' split
  · exact h
  · exact h.activate i
  · exact h.same rfl
  · exact h.same rfl
  · exact h

theorem settleLine (h : s.RecordsAgree) (i : Line) : (s.settleLine i).RecordsAgree := by
  simp only [State.settleLine]
  split
  · exact State.RecordsAgree.moveLine (s := s.setLine i { s.lines[i] with settled := s.lines[i].raw }) (h.same rfl) i
  · exact h

theorem widenLine (h : s.RecordsAgree) (old i) : (s.widenLine old i).RecordsAgree := by
  simp only [State.widenLine]
  split
  · exact h
  · exact h.stands _ _

theorem applyLine (h : s.RecordsAgree) (i e) : (s.applyLine i e).RecordsAgree := by
  have ht : State.RecordsAgree { s with tables := { s.tables with lines := putAt s.tables.lines i e } } := h.same rfl
  simp only [State.applyLine]
  repeat' split
  · exact ht.same rfl
  · exact ht
  · refine State.RecordsAgree.activate (s := State.setLine _ i _) ?_ i
    exact ht.same rfl
  · exact (ht.moveLine i).widenLine _ _

/-! ## Tables (R12, R48, R103, R166) -/

theorem applyDevice (h : s.RecordsAgree) (e) : (s.applyDevice e).RecordsAgree := by
  refine h.congr rfl (fun _ => ⟨rfl, rfl, rfl⟩) rfl rfl (fun k => ?_) rfl
  simp only [State.applyDevice, mapAll_get]

/-- A disable, the entry already applied (R12, R103). -/
theorem disableLoader (h : s.RecordsAgree) {l : Loader} {u : State} (hu : u = { s with tables := u.tables })
    (hother : ∀ k : Loader, k ≠ l → u.tables.loaders[k] = s.tables.loaders[k]) : (u.disableLoader l).RecordsAgree := by
  have hauth : u.auth = s.auth := by rw [hu]
  have hb : u.AgreesBut l u.auth[l].state.placesOf u.auth[l].state.callStamp := by
    rw [hauth]
    refine (h.but l).congr (fun k _ => by rw [hauth]) (by rw [hu]) (by rw [hu]) (by rw [hu]) (fun k hk => ?_) fun k hk => ?_
    · simp only [State.callClass, hother k hk]
      rw [hu]
    · simp only [State.enabled, hother k hk]
  have hparty := h.party l
  rw [← hauth] at hparty
  have hchairs : u.chairs = s.chairs := by rw [hu]
  rw [← hchairs] at hparty
  have hstand : ∃ v : State, v.RecordsAgree ∧ v.auth[l].state = .standing none .disabled ∧
      u.disableLoader l = { v.setStatus l .initial with deadlines := putAt v.deadlines l none } := by
    unfold State.disableLoader
    split
    · next retained cause ha =>
      rw [ha] at hb
      refine ⟨_, ?_, ?_, rfl⟩
      · simp only [State.disableStanding]
        refine State.reportStand_agree ?_
        cases retained with
        | none => exact hb.setAuth_agree (fun c => rfl) rfl fun _ => rfl
        | some x =>
          obtain ⟨hd, hs⟩ := hb.dropRetained ha
            (hparty.1 x (by rw [ha]; exact List.ne_nil_of_mem (AuthState.holding_mem rfl))).1
          refine hd.setAuth_agree (fun c => ?_) rfl fun _ => rfl
          rw [AuthState.placesOf_standing, AuthState.placesOf_standing, holderPlace_none]
          split
          · rfl
          · next hc => exact (holderPlace_other fun he => hc (Option.some.inj he).symm).symm
      · unfold State.disableStanding
        rw [State.reportStand_auth, State.setAuth_auth, putAt_same]
    · next hns =>
      refine ⟨_, hb.standEntry (fun _ hc => hc) (fun _ _ => rfl) hparty.1 hparty.2 fun _ => rfl, ?_, rfl⟩
      rw [State.standEntry_auth, putAt_same]
      rfl
  obtain ⟨v, hv, hvs, he⟩ := hstand
  have hvb := hv.but l
  rw [he]
  refine State.AgreesBut.agree_of_not_calling (l := l) (places := v.auth[l].state.placesOf) ?_ (fun _ => rfl) ?_ fun _ => hvs
  · rw [hvs] at hvb ⊢
    refine hvb.congr (fun _ _ => rfl) rfl rfl rfl (fun k hk => ?_) fun _ _ => rfl
    simp only [State.callClass, State.setStatus, putAt_other _ _ hk.symm]
  · change v.auth[l].state.callStamp = none
    rw [hvs]
    rfl

theorem applyLoader (h : s.RecordsAgree) (l e) : (s.applyLoader l e).RecordsAgree := by
  have hother (k : Loader) (hk : k ≠ l) : (putAt s.tables.loaders l e)[k] = s.tables.loaders[k] := putAt_other _ _ hk.symm
  have hb : State.AgreesBut { s with tables := { s.tables with loaders := putAt s.tables.loaders l e } } l
      s.auth[l].state.placesOf s.auth[l].state.callStamp := by
    refine (h.but l).congr (fun _ _ => rfl) rfl rfl rfl (fun k hk => ?_) fun k hk => ?_
    · simp only [State.callClass, hother k hk]
    · simp only [State.enabled, hother k hk]
  have hresort (u : State) (hu : u.RecordsAgree) : (if e.priority = s.tables.loaders[l].priority then u else u.resort l).RecordsAgree := by
    split
    · exact hu
    · exact (hu.but l).resort (hu.2.2.2 l)
  simp only [State.applyLoader]
  refine State.RecordsAgree.callWalk ?_
  by_cases hoff : s.tables.loaders[l].enabled = true ∧ (!e.enabled) = true
  · simp only [hoff, and_self, if_true]
    exact hresort _ (h.disableLoader rfl hother)
  · rw [if_neg hoff]
    have hdis : e.enabled = false → s.auth[l].state = .standing none .disabled := fun he =>
      h.2.2.2 l (by
        change s.tables.loaders[l].enabled = false
        simpa [he] using hoff)
    have hen : State.enabled { s with tables := { s.tables with loaders := putAt s.tables.loaders l e } } l = e.enabled := by
      simp only [State.enabled, putAt_same]
    by_cases hon : (!s.tables.loaders[l].enabled) = true ∧ e.enabled = true
    · rw [if_pos hon]
      have ha : s.auth[l].state = .standing none .disabled := h.2.2.2 l (by simpa [State.enabled] using hon.1)
      refine hresort _ ?_
      simp only [State.enableLoader, ha]
      rw [ha] at hb
      exact hb.setAuth_agree (fun c => rfl) rfl fun hd => enabled_ne_false (hen.trans hon.2) hd
    · rw [if_neg hon]
      split
      · next hp =>
        refine hb.agree (fun _ => rfl) rfl (fun x hx hxl => ?_) (by rw [hen]; exact hdis)
        subst hxl
        rw [(h.1.1 x hx).2]
        simp only [State.callClass, putAt_same, hp]
      · exact State.AgreesBut.resort (s := { s with tables := { s.tables with loaders := putAt s.tables.loaders l e } }) hb
          (by rw [hen]; exact hdis)

theorem applyEntry (h : s.RecordsAgree) (r) : (s.applyEntry r).RecordsAgree := by
  have hc : State.RecordsAgree { s with writes := s.writes.clear r } := h.same rfl
  cases r with
  | device =>
    simp only [State.applyEntry]
    split
    · exact h
    · exact hc.applyDevice _
  | chair c =>
    simp only [State.applyEntry]
    split
    · exact h
    · exact hc.applyChair _ _
  | loader l =>
    simp only [State.applyEntry]
    split
    · exact h
    · exact hc.applyLoader _ _
  | line i =>
    simp only [State.applyEntry]
    split
    · exact h
    · exact hc.applyLine _ _
  | mgmtStation => simp only [State.applyEntry]; split <;> exact h.same rfl
  | zone => simp only [State.applyEntry]; split <;> exact h.same rfl
  | rule => simp only [State.applyEntry]; split <;> exact h.same rfl
  | event => simp only [State.applyEntry]; split <;> exact h.same rfl

theorem applyWrites (h : s.RecordsAgree) (order) : (s.applyWrites order).RecordsAgree := by
  have hf := foldl_inv State.applyEntry State.RecordsAgree (fun s r hs => hs.applyEntry r) (order ++ allRefs) s h
  simp only [State.applyWrites, State.endCommissioning]
  split
  · exact hf.same rfl
  · exact hf

theorem tableApplied (h : s.RecordsAgree) (order b) : (s.tableApplied order b).RecordsAgree := by
  have tell (u : State) (hu : u.RecordsAgree) (n d) : (if n = 0 then u else u.raise .tableApplied none none d).RecordsAgree := by
    split
    · exact hu
    · exact hu.raise _ _ _ _
  simp only [State.tableApplied]
  split
  · exact State.RecordsAgree.applyWrites (tell s h _ _) _
  · exact tell _ (h.applyWrites _) _ _

/-! ## The cycle start and its actions (R38, R94, R124, R170) -/

theorem drawPhases (h : s.RecordsAgree) : s.drawPhases.RecordsAgree := by
  refine foldl_inv _ State.RecordsAgree (fun u c hu => ?_) _ s h
  refine foldl_inv _ State.RecordsAgree (fun v k hv => ?_) _ u hu
  simp only [State.drawOne]
  split
  · exact hv.same rfl
  · exact hv

theorem presenceExpiry (h : s.RecordsAgree) (c) : (s.presenceExpiry c).RecordsAgree := by
  simp only [State.presenceExpiry]
  split
  · exact h.becomeAbsent _ _
  · exact h

theorem stepPresence (h : s.RecordsAgree) : s.stepPresence.RecordsAgree := by
  refine h.congr rfl (fun c => ?_) rfl rfl (fun _ => rfl) rfl
  simp only [State.stepPresence, mapAll_get]
  split <;> exact ⟨rfl, rfl, rfl⟩

theorem cycleStart (h : s.RecordsAgree) (b) : (s.cycleStart b).RecordsAgree := by
  have hs : State.RecordsAgree (State.stepPresence { s with timer := s.timer.nextCycle }) :=
    State.RecordsAgree.stepPresence (s := { s with timer := s.timer.nextCycle }) (h.same rfl)
  have hd (p : Bool) (u : State) (hu : u.RecordsAgree) : (if p then u.drawPhases else u).RecordsAgree := by
    cases p
    · exact hu
    · exact hu.drawPhases
  exact (hd _ _ hs).same rfl

theorem authorityReset (h : s.RecordsAgree) : s.authorityReset.RecordsAgree := by
  have hauth (l : Loader) : s.authorityReset.auth[l] = s.auth[l].afterReset (s.enabled l) := tabulate_get _ _
  have hdis (l : Loader) (hd : s.enabled l = false) : s.authorityReset.auth[l].state = .standing none .disabled := by
    rw [hauth, hd]
    exact h.2.2.2 l hd
  refine State.recordsAgree_of_standing (fun l => ?_) (fun l hd => hdis l hd) (fun c => ?_) rfl rfl
  · cases hen : s.enabled l with
    | false => exact ⟨_, hdis l hen⟩
    | true => exact ⟨.reset, by rw [hauth, hen]; rfl⟩
  · have hc : s.authorityReset.chairs[c] = s.chairs[c].gone := mapAll_get _ _ _
    rw [hc]
    exact ⟨rfl, rfl⟩

/-! ## Start-up (R171) -/

theorem powerOn (s : State) (b) : (s.powerOn b).RecordsAgree :=
  (State.powerOnValues_agree .empty false ⟨.loading, b⟩ s.linePins s.portSignal).same rfl

theorem loadEnd (s : State) (read) : (s.loadEnd read).RecordsAgree := by
  have hs (t com) : (s.startFrom t com).RecordsAgree :=
    (State.powerOnValues_agree t com ⟨.idle, s.config.cfgoff⟩ s.linePins s.portSignal).same rfl
  simp only [State.loadEnd]
  split
  · exact hs _ _
  · split
    · exact hs _ _
    · exact State.RecordsAgree.raise (hs _ _) _ _ _ _

end State.RecordsAgree

end Sys2Proof.Machine
end

section
/-! What a step is made of. A command brings the part to its instant, and is then at most one event: its receive checks, its row,
and the walk and the beacons at its end (log entries 1 and 3). What every row keeps, every step keeps. -/

namespace Sys2Proof.Machine

open Sys2Proof

/-- What comes ahead of a row within its event: the counts and events of the receive checks, the reload of a chair's presence
(R37), and the event of the present instant that is taken. -/
inductive State.Minor (s : State) : State → Prop
  | count (id n) : Minor s (s.count id n)
  | raise (e l c d) : Minor s (s.raise e l c d)
  | refreshPresence (c) : Minor s (s.refreshPresence c)
  | undue (d) : Minor s (s.undue d)

/-- The rows of the table, the start's apart. -/
inductive State.Row (s : State) : State → Prop
  | nothing : Row s s
  | saveEnd (read) : Row s (s.saveEnd read)
  | cycleStart (b) : Row s (s.cycleStart b)
  | applied (order b n) : Row s { s.tableApplied order b with choices := n }
  | boundary (order b) : Row s ((s.tableApplied order b).undue .phaseDraw).drawPhases
  | drawPhases : Row s s.drawPhases
  | slotAt (p k) : Row s (s.slotAt p k)
  | staleSlot (x) : Row s (s.staleSlot x)
  | deadline (l) : Row s (s.deadline l)
  | pendingDeadline (f) : Row s (s.pendingDeadline f)
  | linkDownTest (l) : Row s (s.linkDownTest l)
  | linkUpTest (l) : Row s (s.linkUpTest l)
  | readyTest (l) : Row s (s.readyTest l)
  | offerExpiry (l) : Row s (s.offerExpiry l)
  | matchTimeout (l) : Row s (s.matchTimeout l)
  | releaseTimeout (l) : Row s (s.releaseTimeout l)
  | presenceExpiry (c) : Row s (s.presenceExpiry c)
  | authorityReset : Row s s.authorityReset
  | stepMillis : Row s s.stepMillis
  | sampleAhead (i v) : Row s (s.sampleAhead i v)
  | sampleLine (i v w) : Row s (s.sampleLine i v w)
  | settleLine (i) : Row s (s.settleLine i)
  | portComesUp (p) : Row s (s.portComesUp p)
  | portLost (p) : Row s (((s.setLink p false).loseFrame p).raise .portLinkDown none none (wordOf (Port.index p).val))
  | commandFrameFrom (c h p) : Row s (s.commandFrameFrom c h p)
  | statusFrame (l h p) : Row s (s.statusFrame l h p)
  | chairRequest (c b code tag args) : Row s (s.chairRequest c b code tag args)
  | mgmtArrival (r) : Row s (s.mgmtArrival r)
  | takeFrame : Row s s.takeFrame
  | transmissionEnd : Row s s.transmissionEnd

/-- What is written between events: pins, signals, the queue of commands and the choices made. -/
inductive State.Aside (s : State) : State → Prop
  | setPin (i v) : Aside s (s.setPin i v)
  | setSignal (p b) : Aside s (s.setSignal p b)
  | choices (n) : Aside s { s with choices := n }
  | pending (q) : Aside s { s with pending := q }

/-- The body of an event: what comes ahead of the row, and the row. -/
def State.Acts (s t : State) : Prop := ∃ u, Relation.ReflTransGen State.Minor s u ∧ u.Row t

/-- An event: its body and its end. -/
def State.Event (s t : State) : Prop := ∃ v, s.Acts v ∧ t = v.finish

/-- What a command makes besides its event: what is written aside, the takes of the transmitter, a port's going DOWN. -/
inductive State.Calm (s : State) : State → Prop
  | aside {t} (h : s.Aside t) : Calm s t
  | take : Calm s s.takeFrame.finish
  | portLost (p) :
    Calm s (((s.setLink p false).loseFrame p).raise .portLinkDown none none (wordOf (Port.index p).val)).finish

/-- One move of the part: an event, what is written aside, or the start. -/
inductive State.Move (s : State) : State → Prop
  | aside {t} (h : s.Aside t) : Move s t
  | event {t} (h : s.Event t) : Move s t
  | powerOn (b) : Move s (s.powerOn b)
  | loadEnd (read) : Move s (s.loadEnd read).finish

/-- The moves of the part, one after the other. -/
abbrev State.Course : State → State → Prop := Relation.ReflTransGen State.Move

/-- Calm moves, one after the other. -/
abbrev State.Calmly : State → State → Prop := Relation.ReflTransGen State.Calm

theorem State.Row.acts {s t : State} (h : s.Row t) : s.Acts t := ⟨s, .refl, h⟩

theorem State.Row.event {s t : State} (h : s.Row t) : s.Event t.finish := ⟨t, h.acts, rfl⟩

theorem State.Acts.after {s u t : State} (hm : s.Minor u) (h : u.Acts t) : s.Acts t := by
  obtain ⟨v, hv, hr⟩ := h
  exact ⟨v, .head hm hv, hr⟩

theorem State.Minor.acts {s t : State} (h : s.Minor t) : s.Acts t := ⟨t, .single h, .nothing⟩

theorem State.Calm.move {s t : State} (h : s.Calm t) : s.Move t := by
  cases h with
  | aside h => exact .aside h
  | take => exact .event (State.Row.takeFrame).event
  | portLost p => exact .event (State.Row.portLost p).event

theorem State.Calmly.course {s t : State} (h : s.Calmly t) : s.Course t := Relation.ReflTransGen.mono (fun _ _ h => h.move) _ _ h

/-- What the start and every row keep, and the end of an event, the course of the part keeps. -/
theorem State.Course.keeps {P : State → Prop} (haside : ∀ s t, s.Aside t → P s → P t)
    (hminor : ∀ s t, s.Minor t → P s → P t) (hrow : ∀ s t, s.Row t → P s → P t) (hfinish : ∀ s, P s → P s.finish)
    (hpowerOn : ∀ s b, P s → P (s.powerOn b)) (hloadEnd : ∀ s read, P s → P (s.loadEnd read)) {s t : State}
    (h : s.Course t) (hs : P s) : P t := by
  induction h with
  | refl => exact hs
  | tail _ hm ih =>
    cases hm with
    | aside ha => exact haside _ _ ha ih
    | event he =>
      obtain ⟨v, ⟨u, hu, hr⟩, rfl⟩ := he
      refine hfinish _ (hrow _ _ hr ?_)
      clear hr
      induction hu with
      | refl => exact ih
      | tail _ hm hk => exact hminor _ _ hm hk
    | powerOn b => exact hpowerOn _ b ih
    | loadEnd read => exact hfinish _ (hloadEnd _ read ih)

/-! ## Settling -/

/-- An event of the present instant is a row, the end of the load apart. -/
theorem State.dueBody_row (s : State) {d : Due} (hd : d ≠ .loadEnd) : s.Row (s.dueBody d) := by
  cases d with
  | loadEnd => exact absurd rfl hd
  | presenceExpiry c => exact .presenceExpiry c
  | authorityReset => exact .authorityReset
  | tableApplied => exact .applied _ _ _
  | phaseDraw => exact .drawPhases
  | statusDeadline l => exact .deadline l
  | linkDown l => exact .linkDownTest l
  | linkUp l => exact .linkUpTest l
  | loaderReady l => exact .readyTest l
  | offerExpiry l => exact .offerExpiry l
  | matchTimeout l => exact .matchTimeout l
  | releaseTimeout l => exact .releaseTimeout l
  | lineSettle i => exact .settleLine i

theorem State.takeDue_move (s : State) (d : Due) : s.Move (s.takeDue d) := by
  by_cases hd : d = .loadEnd
  · subst hd
    have he : s.takeDue .loadEnd = (s.loadEnd .noAnswer).finish := rfl
    rw [he]
    exact .loadEnd _
  · exact .event ⟨_, State.Acts.after (.undue d) (State.dueBody_row _ hd).acts, rfl⟩

section
variable {r s : State}

theorem State.settle_course (s : State) : s.Course s.settle :=
  s.settle_keeps s.Course (fun _ n h => h.tail (.aside (.choices n))) (fun _ d h => h.tail (State.takeDue_move _ d))
    (fun _ h => h.tail (State.Calm.take).move) .refl

theorem State.conclude_course (s : State) : s.Course s.conclude :=
  s.conclude_keeps s.Course (fun _ n h => h.tail (.aside (.choices n))) (fun _ d h => h.tail (State.takeDue_move _ d))
    (fun _ h => h.tail (State.Calm.take).move) .refl

theorem State.takes_calmly (s : State) : s.Calmly s.takes :=
  s.takes_keeps s.Calmly (fun _ h => h.tail .take) .refl

theorem State.arriveAt_course (s : State) (n : Option Nat) : s.Course (s.arriveAt n) := by
  simp only [State.arriveAt]
  split
  · exact s.conclude_course
  · exact s.settle_course

end

/-! ## Frames -/

section
variable {s : State}

theorem State.throughRules_acts {f : Frame} {c : Option Chair} {k : State → State} (hk : ∀ u : State, u.Acts (k u)) :
    s.Acts (s.throughRules f c k) := by
  unfold State.throughRules
  split
  · exact hk s
  · split
    · exact hk s
    · exact (State.Minor.count _ _).acts
    · exact State.Acts.after (.raise _ _ _ _) (hk _)

theorem State.fromChair_acts {f : Frame} {k : State → Chair → State} (hk : ∀ (u : State) c, u.Acts (k u c)) :
    s.Acts (s.fromChair f k) := by
  unfold State.fromChair
  split
  · exact (State.Minor.count _ _).acts
  · exact State.throughRules_acts fun u => State.Acts.after (.refreshPresence _) (hk _ _)

theorem State.fromLoader_acts {p : Port} {f : Frame} {k : State → Loader → State} (hk : ∀ (u : State) l, u.Acts (k u l)) :
    s.Acts (s.fromLoader p f k) := by
  unfold State.fromLoader
  split
  · exact (State.Minor.count _ _).acts
  · exact State.throughRules_acts fun u => hk _ _

theorem State.fromStation_acts (f : Frame) (r : MgmtRequest) : s.Acts (s.fromStation f r) := by
  unfold State.fromStation
  split
  · exact State.throughRules_acts fun u => (State.Row.mgmtArrival r).acts
  · exact (State.Minor.count _ _).acts

theorem State.arrival_acts {p : Port} {f : Frame} {k : State → State} (hk : ∀ u : State, u.Acts (k u)) : s.Acts (s.arrival p f k) := by
  unfold State.arrival
  split
  · exact (State.Row.nothing).acts
  · split
    · exact (State.Minor.count _ _).acts
    · exact hk s

theorem State.classify_acts (p : Port) (f : Frame) : s.Acts (s.classify p f) := by
  unfold State.classify
  split
  · exact (State.Minor.count _ _).acts
  split
  · refine State.fromLoader_acts fun u l => ?_
    split
    · exact (State.Row.statusFrame _ _ _).acts
    · exact (State.Row.nothing).acts
  split
  · refine State.fromChair_acts fun u c => ?_
    split
    · exact (State.Row.commandFrameFrom _ _ _).acts
    · exact (State.Row.nothing).acts
  split
  · refine State.fromChair_acts fun u c => ?_
    split
    · exact (State.Row.chairRequest _ _ _ _ _).acts
    · exact (State.Row.nothing).acts
  · split
    · exact State.fromStation_acts _ _
    · exact (State.Row.nothing).acts

theorem State.receiveBurst_acts (p : Port) (burst : List Byte) : s.Acts (s.receiveBurst p burst) := by
  unfold State.receiveBurst
  split
  · exact (State.Row.nothing).acts
  · split
    · exact (State.Minor.count _ _).acts
    · exact (State.Minor.count _ _).acts
    · exact State.classify_acts _ _

end

/-! ## The commands -/

/-- A chair request is carried out by its code (R143). -/
theorem exec_asked {i : Instr} {h : Header} {code : Byte} {tag : Word16} {args : List Byte}
    (hi : i.asked = some (h, code, tag, args)) (s : State) :
    exec i s = .next (s.chairCommand h code tag args fun s c => s.chairRequest c h.loader code tag args) := by
  cases i <;> simp only [Instr.asked, Option.some.injEq, Prod.mk.injEq, reduceCtorEq] at hi <;>
    obtain ⟨rfl, rfl, rfl, rfl⟩ := hi <;> rfl

/-- The state a command's own event finds: the part as it is, at the instant of the command, or, for a consequence row whose event
waits, once the transmitter has taken what it can. -/
def ArrivesAt (i : Instr) (s a : State) : Prop :=
  a = s ∨ match i.consequence with
    | some d => d ∈ s.due ∧ a = s.takes
    | none => ∃ n, a = s.arriveAt n ∨ a = s.conclude

/-- A command other than those of the start is one event at most. -/
def RunsTo (i : Instr) (s t : State) : Prop :=
  ∃ a u v, ArrivesAt i s a ∧ a.Calmly u ∧ (v = u ∨ u.Event v) ∧ v.Calmly t

section
variable {i : Instr} {s : State}

theorem runsTo_idle : RunsTo i s s := ⟨s, s, s, .inl rfl, .refl, .inl rfl, .refl⟩

/-- A command of the sender outside the present instant's events. -/
theorem runsTo_run (hi : i.consequence = none) {body : State → State} (hb : ∀ u : State, u.Acts (body u)) :
    RunsTo i s (s.run body) := by
  have ha : ArrivesAt i s s.settle := by
    rw [ArrivesAt, hi]
    exact .inr ⟨none, .inl (by simp [State.arriveAt])⟩
  simp only [State.run]
  split
  · exact ⟨_, _, _, ha, .refl, .inr ⟨_, hb _, rfl⟩, .refl⟩
  · exact ⟨_, _, _, ha, .refl, .inl rfl, .refl⟩

/-- A command at an instant. -/
theorem runsTo_runAt (hi : i.consequence = none) {instant : State → Option Nat} {body : State → State}
    (hb : ∀ u : State, u.Acts (body u)) : RunsTo i s (s.runAt instant body) := by
  have ha : ArrivesAt i s (s.arriveAt (instant s)) := by
    rw [ArrivesAt, hi]
    exact .inr ⟨_, .inl rfl⟩
  simp only [State.runAt]
  split
  · exact ⟨_, _, _, ha, .refl, .inr ⟨_, hb _, rfl⟩, .refl⟩
  · exact ⟨_, _, _, ha, .refl, .inl rfl, .refl⟩

/-- A consequence row follows from the event before it. -/
theorem consequence_follows {d : Due} (hi : i.consequence = some d) : d.follows = true := by
  cases i <;> simp only [Instr.consequence, Option.some.injEq, reduceCtorEq] at hi <;> subst hi <;> rfl

/-- A consequence row. -/
theorem runsTo_runDue {d : Due} (hi : i.consequence = some d) {body : State → State} (hb : ∀ u : State, u.Acts (body u)) :
    RunsTo i s (s.runDue d body) := by
  simp only [State.runDue]
  split
  · next hd =>
    have ha : ArrivesAt i s (s.upTo d) := by
      rw [ArrivesAt, hi, State.upTo, consequence_follows hi]
      exact .inr ⟨hd, rfl⟩
    exact ⟨_, _, _, ha, .refl, .inr ⟨_, State.Acts.after (.undue d) (hb _), rfl⟩, .refl⟩
  · exact runsTo_idle

end

/-- A management request reaches the Agent, or is counted. -/
theorem runsTo_mgmtCommand {i : Instr} (hi : i.consequence = none) (s : State) (h op tag sel idx data) :
    RunsTo i s (s.mgmtCommand h op tag sel idx data) :=
  runsTo_run hi fun _ => State.arrival_acts fun _ => State.fromStation_acts _ _

/-- A chair request reaches its owner, or is counted. -/
theorem runsTo_chairCommand {i : Instr} (hi : i.consequence = none) (s : State) (h code tag args)
    {owner : State → Chair → State} (ho : ∀ (u : State) c, u.Acts (owner u c)) :
    RunsTo i s (s.chairCommand h code tag args owner) :=
  runsTo_run hi fun _ => State.arrival_acts fun _ => State.fromChair_acts ho

/-- The header, operation, tag, selector, index and data of a management request (R145). -/
def managed : Instr → Option (Header × Byte × Word16 × Byte × Byte × List Byte)
  | .mgmtRequest h operation tag selector index data => some (h, operation, tag, selector, index, data)
  | .ident h tag selector index data => some (h, 0x01, tag, selector, index, data)
  | .readEntry h tag table index data => some (h, 0x02, tag, table, index, data)
  | .writeEntry h tag table index data => some (h, 0x03, tag, table, index, data)
  | .readState h tag selector index data => some (h, 0x04, tag, selector, index, data)
  | .readCounters h tag group index data => some (h, 0x05, tag, group, index, data)
  | .freeze h tag selector index extra => some (h, 0x06, tag, selector, index, 0x01 :: extra)
  | .unfreeze h tag selector index extra => some (h, 0x06, tag, selector, index, 0x02 :: extra)
  | .clearAll h tag selector index extra => some (h, 0x06, tag, selector, index, 0x03 :: extra)
  | .readLog h tag selector count data => some (h, 0x07, tag, selector, count, data)
  | .attnClear h tag selector index data => some (h, 0x08, tag, selector, index, data)
  | .mgmtLineAck h tag selector line data => some (h, 0x09, tag, selector, line, data)
  | .resetAuthority h tag selector index data => some (h, 0x0A, tag, selector, index, data)
  | .saveConfig h tag selector index data => some (h, 0x0B, tag, selector, index, data)
  | .unknownOperation h operation tag selector index data => some (h, operation, tag, selector, index, data)
  | _ => none

/-- A management request is carried out by its operation code (R145). -/
theorem exec_managed {i : Instr} {h op tag sel idx data} (hi : managed i = some (h, op, tag, sel, idx, data)) (s : State) :
    exec i s = .next (s.mgmtCommand h op tag sel idx data) := by
  cases i <;> simp only [managed, Option.some.injEq, Prod.mk.injEq, reduceCtorEq] at hi <;>
    obtain ⟨rfl, rfl, rfl, rfl, rfl, rfl⟩ := hi <;> rfl

/-- A command that is no frame's structured row, and none of the start. -/
theorem exec_runs_alone {i : Instr} {s t : State} (ha : i.asked = none) (hm : managed i = none) (h : exec i s = .next t) :
    (∃ b, i = .powerOn b ∧ t = s.powerOn b) ∨ (∃ read, i = .loadEnd read ∧ (t = s ∨ t = (s.loadEnd read).finish))
      ∨ RunsTo i s t := by
  cases i <;> simp only [Instr.asked, reduceCtorEq] at ha <;> simp only [managed, reduceCtorEq] at hm <;>
    injection h with h <;> subst h
  case powerOn b => exact .inl ⟨b, rfl, rfl⟩
  case loadEnd read =>
    refine .inr (.inl ⟨read, rfl, ?_⟩)
    split
    · exact .inl rfl
    · exact .inr rfl
  all_goals refine .inr (.inr ?_)
  case cycleStart b => exact runsTo_runAt rfl fun _ => (State.Row.cycleStart b).acts
  case tableApplied order b =>
    refine runsTo_runDue rfl fun u => ?_
    dsimp only
    split
    · exact (State.Row.boundary order b).acts
    · exact (State.Row.applied order b (u.tableApplied order b).choices).acts
  case slotEvent p k => exact runsTo_runAt rfl fun _ => (State.Row.slotAt p k).acts
  case standStale x => exact runsTo_runAt rfl fun _ => (State.Row.staleSlot x).acts
  case statusDeadline f =>
    split
    · next hd =>
      refine ⟨s.conclude, s.conclude, _, .inr ⟨none, .inr rfl⟩, .refl,
        .inr ⟨_, State.Acts.after (.undue (.statusDeadline f.loader)) (State.Row.deadline f.loader).acts, ?_⟩, .refl⟩
      simp [State.runDue, hd, State.upTo, Due.follows]
    · exact runsTo_runAt rfl fun _ => (State.Row.pendingDeadline f).acts
  case linkDown l => exact runsTo_runDue rfl fun _ => (State.Row.linkDownTest l).acts
  case linkUp l => exact runsTo_runDue rfl fun _ => (State.Row.linkUpTest l).acts
  case loaderReady l => exact runsTo_runDue rfl fun _ => (State.Row.readyTest l).acts
  case offerExpiry l => exact runsTo_runDue rfl fun _ => (State.Row.offerExpiry l).acts
  case matchTimeout l => exact runsTo_runDue rfl fun _ => (State.Row.matchTimeout l).acts
  case releaseTimeout l => exact runsTo_runDue rfl fun _ => (State.Row.releaseTimeout l).acts
  case presenceExpiry c => exact runsTo_runDue rfl fun _ => (State.Row.presenceExpiry c).acts
  case authorityReset => exact runsTo_runDue rfl fun _ => (State.Row.authorityReset).acts
  case lineSettle i => exact runsTo_runDue rfl fun _ => (State.Row.settleLine i).acts
  case millisecondStep => exact runsTo_runAt rfl fun _ => (State.Row.stepMillis).acts
  case lineLevelChange i v =>
    refine ⟨s.arriveAt (if v.aheadOfStep then s.timer.millisInstant else none), _, _, .inr ⟨_, .inl rfl⟩,
      .single (.aside (.setPin i v.level)), ?_, .refl⟩
    generalize State.setPin _ i v.level = u
    split
    · exact .inl rfl
    · split
      · exact .inr (State.Row.sampleAhead _ _).event
      · exact .inr (State.Row.sampleLine _ _ _).event
  case portLinkUp p =>
    refine ⟨s.settle, _, _, .inr ⟨none, .inl (by simp [State.arriveAt])⟩, .single (.aside (.setSignal p true)), ?_, .refl⟩
    split
    · exact .inr (State.Row.portComesUp p).event
    · exact .inl rfl
  case portLinkDown p cut =>
    have hset : s.settle.Calmly (s.settle.setSignal p false) := .single (.aside (.setSignal p false))
    have harr : ArrivesAt (.portLinkDown p cut) s s.settle := .inr ⟨none, .inl (by simp [State.arriveAt])⟩
    split
    · simp only [State.portGoesDown]
      split
      · cases cut with
        | none => exact ⟨_, _, _, harr, hset, .inl rfl, .single (.portLost p)⟩
        | some burst =>
          exact ⟨_, _, _, harr, hset, .inr ⟨_, State.receiveBurst_acts p burst, rfl⟩,
            (State.takes_calmly _).tail (.portLost p)⟩
      · exact ⟨_, _, _, harr, hset, .inr (State.Row.nothing).event, .refl⟩
    · exact ⟨_, _, _, harr, hset, .inl rfl, .refl⟩
  case burstReceived p burst => exact runsTo_run rfl fun _ => State.receiveBurst_acts _ _
  case command hd p =>
    exact runsTo_run rfl fun _ => State.arrival_acts fun _ => (State.fromChair_acts fun _ _ =>
      (State.Row.commandFrameFrom _ _ _).acts)
  case status port hd p =>
    exact runsTo_run rfl fun _ => State.arrival_acts fun _ => (State.fromLoader_acts fun _ _ =>
      (State.Row.statusFrame _ _ _).acts)
  case saveEnd read => exact runsTo_run rfl fun _ => (State.Row.saveEnd read).acts
  case sPortTake =>
    split
    · exact ⟨s, s, _, .inl rfl, .refl, .inl rfl, .single .take⟩
    · exact runsTo_idle
  case sPortTransmissionEnd => exact runsTo_run rfl fun _ => (State.Row.transmissionEnd).acts


/-- Every command but those of the start runs as one event at most. -/
theorem exec_runs {i : Instr} {s t : State} (h : exec i s = .next t) :
    (∃ b, i = .powerOn b ∧ t = s.powerOn b) ∨ (∃ read, i = .loadEnd read ∧ (t = s ∨ t = (s.loadEnd read).finish))
      ∨ RunsTo i s t := by
  cases ha : i.asked with
  | some x =>
    obtain ⟨hd, code, tag, args⟩ := x
    rw [exec_asked ha] at h
    cases h
    refine .inr (.inr (runsTo_chairCommand ?_ s _ _ _ _ fun u c => (State.Row.chairRequest _ _ _ _ _).acts))
    cases i <;> simp only [Instr.asked, reduceCtorEq] at ha <;> rfl
  | none =>
    cases hm : managed i with
    | some x =>
      obtain ⟨hd, op, tag, sel, idx, data⟩ := x
      rw [exec_managed hm] at h
      cases h
      refine .inr (.inr (runsTo_mgmtCommand ?_ s _ _ _ _ _ _))
      cases i <;> simp only [managed, reduceCtorEq] at hm <;> rfl
    | none => exact exec_runs_alone ha hm h

theorem ArrivesAt.course {i : Instr} {s a : State} (h : ArrivesAt i s a) : s.Course a := by
  obtain rfl | h := h
  · exact .refl
  · cases hi : i.consequence with
    | some d =>
      rw [hi] at h
      obtain ⟨-, rfl⟩ := h
      exact (State.takes_calmly s).course
    | none =>
      rw [hi] at h
      obtain ⟨n, rfl | rfl⟩ := h
      · exact s.arriveAt_course n
      · exact s.conclude_course

/-- Every step is a course of the part. -/
theorem step_course {s t : State} (h : step s = .next t) : s.Course t := by
  unfold step at h
  split at h
  · cases h
    exact s.settle_course
  · next i rest _ =>
    refine .head (.aside (.pending rest)) ?_
    obtain ⟨b, -, rfl⟩ | ⟨read, -, rfl | rfl⟩ | ⟨a, u, v, ha, hu, hv, ht⟩ := exec_runs h
    · exact .single (.powerOn b)
    · exact .refl
    · exact .single (.loadEnd read)
    · refine ha.course.trans (hu.course.trans (Relation.ReflTransGen.trans ?_ ht.course))
      obtain rfl | he := hv
      · exact .refl
      · exact .single (.event he)

end Sys2Proof.Machine
end

section
/-! What an operation about one loader touches: that loader's record, mailboxes and match window, and the authority's lists and
chairs. Of the chairs other than one, only their place changes. -/

namespace Sys2Proof.Machine

open Sys2Proof

/-- The state t is s but for what an operation about loader l writes, chair c's counts and availability with it. -/
structure State.Touches (l : Loader) (c : Chair) (s t : State) : Prop where
  rest : t.rest = s.rest
  auth : ∀ k : Loader, k ≠ l → t.auth[k] = s.auth[k]
  windows : ∀ k : Loader, k ≠ l → t.windows[k] = s.windows[k]
  builders : ∀ k : Loader, k ≠ l → t.builders[k] = s.builders[k]
  chairs : ∀ d : Chair, d ≠ c → t.chairs[d].presence = s.chairs[d].presence ∧
    t.chairs[d].available = s.chairs[d].available ∧ t.chairs[d].missed = s.chairs[d].missed

namespace State.Touches
variable {s t u : State} {l : Loader} {c x : Chair}

theorem refl (s : State) : State.Touches l c s s :=
  ⟨rfl, fun _ _ => rfl, fun _ _ => rfl, fun _ _ => rfl, fun _ _ => ⟨rfl, rfl, rfl⟩⟩

theorem trans (h : State.Touches l c s t) (h' : State.Touches l c t u) : State.Touches l c s u where
  rest := h'.rest.trans h.rest
  auth k hk := (h'.auth k hk).trans (h.auth k hk)
  windows k hk := (h'.windows k hk).trans (h.windows k hk)
  builders k hk := (h'.builders k hk).trans (h.builders k hk)
  chairs d hd := by
    obtain ⟨h1, h2, h3⟩ := h.chairs d hd
    obtain ⟨h1', h2', h3'⟩ := h'.chairs d hd
    exact ⟨h1'.trans h1, h2'.trans h2, h3'.trans h3⟩

/-- What no operation about a loader's record writes. -/
theorem of_lists (h : State.Touches l c s t) (hr : u.rest = t.rest) (ha : u.auth = t.auth) (hw : u.windows = t.windows)
    (hb : u.builders = t.builders) (hc : u.chairs = t.chairs) : State.Touches l c s u where
  rest := hr.trans h.rest
  auth := by rw [ha]; exact h.auth
  windows := by rw [hw]; exact h.windows
  builders := by rw [hb]; exact h.builders
  chairs := by rw [hc]; exact h.chairs

theorem count (h : State.Touches l c s t) (id n) : State.Touches l c s (t.count id n) := h.of_lists rfl rfl rfl rfl rfl

theorem raise (h : State.Touches l c s t) (e k d w) : State.Touches l c s (t.raise e k d w) := h.of_lists rfl rfl rfl rfl rfl

theorem notice (h : State.Touches l c s t) (d n) : State.Touches l c s (t.notice d n) := h.of_lists rfl rfl rfl rfl rfl

theorem callWalk (h : State.Touches l c s t) : State.Touches l c s t.callWalk := h.of_lists rfl rfl rfl rfl rfl

theorem leaveList (h : State.Touches l c s t) (d) : State.Touches l c s (t.leaveList d) := h.of_lists rfl rfl rfl rfl rfl

theorem dequeue (h : State.Touches l c s t) (k) : State.Touches l c s (t.dequeue k) := h.of_lists rfl rfl rfl rfl rfl

theorem enqueue (h : State.Touches l c s t) (k w) : State.Touches l c s (t.enqueue k w) := h.of_lists rfl rfl rfl rfl rfl

theorem offerNumber (h : State.Touches l c s t) (n) : State.Touches l c s { t with offerCounter := n } :=
  h.of_lists rfl rfl rfl rfl rfl

theorem noticeIfPresent (h : State.Touches l c s t) (d n) : State.Touches l c s (t.noticeIfPresent d n) := by
  simp only [State.noticeIfPresent]
  repeat' split
  · exact h
  · exact h
  · exact h.notice _ _

theorem setAuth (h : State.Touches l c s t) (a) : State.Touches l c s (t.setAuth l a) where
  rest := h.rest
  auth k hk := (putAt_other _ _ hk.symm).trans (h.auth k hk)
  windows := h.windows
  builders := h.builders
  chairs := h.chairs

theorem setWindow (h : State.Touches l c s t) (w) : State.Touches l c s (t.setWindow l w) where
  rest := h.rest
  auth := h.auth
  windows k hk := (putAt_other _ _ hk.symm).trans (h.windows k hk)
  builders := h.builders
  chairs := h.chairs

theorem setBuilder (h : State.Touches l c s t) (b) : State.Touches l c s (t.setBuilder l b) where
  rest := h.rest
  auth := h.auth
  windows := h.windows
  builders k hk := (putAt_other _ _ hk.symm).trans (h.builders k hk)
  chairs := h.chairs

theorem advanceEpoch (h : State.Touches l c s t) : State.Touches l c s (t.advanceEpoch l) where
  rest := h.rest
  auth k hk := (putAt_other _ _ hk.symm).trans (h.auth k hk)
  windows := h.windows
  builders k hk := (putAt_other _ _ hk.symm).trans (h.builders k hk)
  chairs := h.chairs

/-- A chair's record written: chair c's, or another's with the counts and the availability it has. -/
theorem setChair (h : State.Touches l c s t) (x : Chair) {r : ChairState}
    (hr : x ≠ c → r.presence = t.chairs[x].presence ∧ r.available = t.chairs[x].available ∧ r.missed = t.chairs[x].missed) :
    State.Touches l c s (t.setChair x r) := by
  refine h.trans ⟨rfl, fun _ _ => rfl, fun _ _ => rfl, fun _ _ => rfl, fun d hd => ?_⟩
  rw [State.setChair_chairs, putAt_get]
  split
  · next hx => subst hx; exact hr hd
  · exact ⟨rfl, rfl, rfl⟩

theorem joinList (h : State.Touches l c s t) (x) : State.Touches l c s (t.joinList x) :=
  State.Touches.of_lists (t := t.setChair x { t.chairs[x] with idleSince := t.timer.number }) (h.setChair x fun _ => ⟨rfl, rfl, rfl⟩) rfl rfl rfl rfl rfl

theorem release (h : State.Touches l c s t) (x) : State.Touches l c s (t.release x) := by
  simp only [State.release]
  split
  · exact h.setChair x fun _ => ⟨rfl, rfl, rfl⟩
  · split
    · refine State.Touches.joinList (h.setChair x ?_) x
      exact fun _ => ⟨rfl, rfl, rfl⟩
    · exact h.setChair x fun _ => ⟨rfl, rfl, rfl⟩

theorem releaseOpt (h : State.Touches l c s t) (x) : State.Touches l c s (t.releaseOpt x) := by
  cases x with
  | none => exact h
  | some x => exact h.release x

theorem engage (h : State.Touches l c s t) (x st) : State.Touches l c s (t.engage x st l) := by
  refine State.Touches.leaveList (h.setChair x ?_) x
  exact fun _ => ⟨rfl, rfl, rfl⟩

theorem clearMatch (h : State.Touches l c s t) : State.Touches l c s (t.clearMatch l) := (h.setWindow _).setBuilder _

theorem refuse (h : State.Touches l c s t) (d tag k why) : State.Touches l c s (t.refuse d tag k why) := (h.notice _ _).count _ _

theorem done (h : State.Touches l c s t) (d tag k e n m) : State.Touches l c s (t.done d tag k e n m) := h.notice _ _

theorem enterCalling (h : State.Touches l c s t) (w d) : State.Touches l c s (t.enterCalling l w d) :=
  (((h.setAuth _).enqueue _ _).callWalk).raise _ _ _ _

theorem enterFree (h : State.Touches l c s t) : State.Touches l c s (t.enterFree l) := by
  simp only [State.enterFree]
  split
  · exact (h.setAuth .free).enterCalling _ _
  · exact h.setAuth .free

theorem offerGone (h : State.Touches l c s t) (x n) : State.Touches l c s (t.offerGone x n) := by
  refine State.Touches.release (h.setChair x ?_) x
  exact fun _ => ⟨rfl, rfl, rfl⟩

theorem endOffer (x n w) {go : State → State}
    (hg : State.Touches l c s (go (t.offerGone x n))) : State.Touches l c s (t.endOffer l x n w go) :=
  (hg.raise _ _ _ _).callWalk

theorem endMatching (h : State.Touches l c s t) (x) : State.Touches l c s (t.endMatching l x) := h.clearMatch.release x

theorem returnLoader (h : State.Touches l c s t) : State.Touches l c s (t.returnLoader l) := by
  simp only [State.returnLoader]
  repeat' split
  · exact h.setAuth _
  · exact h.enterCalling _ _
  · exact h.enterFree
  · exact h.enterFree

theorem endOffer_return (h : State.Touches l c s t) (x n w) : State.Touches l c s (t.endOffer l x n w (·.returnLoader l)) :=
  endOffer x n w (h.offerGone x n).returnLoader

theorem makeOffer (h : State.Touches l c s t) (x o) : State.Touches l c s (t.makeOffer l x o) :=
  (((((h.offerNumber _).dequeue _).setAuth _).engage x .offered).notice _ _).raise _ _ _ _

theorem beginMatching (h : State.Touches l c s t) (ho x o r) : State.Touches l c s (t.beginMatching l ho x o r) :=
  ((h.setAuth _).clearMatch).engage x .candidate

theorem reportStand (h : State.Touches l c s t) (k d cause) : State.Touches l c s (t.reportStand k d cause) := by
  simp only [State.reportStand]
  split
  · exact h.noticeIfPresent _ _
  · exact (h.noticeIfPresent _ _).raise _ _ _ _

theorem standEntry (h : State.Touches l c s t) (cause) : State.Touches l c s (t.standEntry l cause) := by
  have hh : State.Touches l c s (t.standHolder l cause) := by
    unfold State.standHolder
    repeat' split
    · exact h
    · exact h
    · exact h.advanceEpoch.release _
  have hp : State.Touches l c s ((t.standHolder l cause).standParties l) := by
    unfold State.standParties
    split
    · exact endOffer _ _ _ (State.Touches.offerGone (hh.notice _ _) _ _)
    · exact (hh.notice _ _).endMatching _
    · exact hh.dequeue _
    · exact hh
  exact (hp.setAuth _).reportStand _ _ _

theorem stand (h : State.Touches l c s t) (cause) : State.Touches l c s (t.stand l cause) := by
  unfold State.stand
  repeat' split
  · exact (h.setAuth _).reportStand _ _ _
  · exact h
  · exact h.standEntry _

theorem dropRetained (h : State.Touches l c s t) : State.Touches l c s (t.dropRetained l) := by
  unfold State.dropRetained
  split
  · exact (h.advanceEpoch.setAuth _).release _
  · exact h

theorem dropTaken (h : State.Touches l c s t) (d x) : State.Touches l c s (t.dropTaken d l x) := by
  simp only [State.dropTaken]
  exact State.Touches.dropRetained (h.notice _ _)

theorem missOffer (h : State.Touches l c s t) : State.Touches l c s (t.missOffer c) := by
  have hm : State.Touches l c s ((t.setChair c { t.chairs[c] with missed := min 3 (t.chairs[c].missed + 1) }).count
      (.chair c offersMissed)) := State.Touches.count (h.setChair c fun hc => absurd rfl hc) _ _
  simp only [State.missOffer]
  split
  · exact State.Touches.raise (hm.setChair c fun hc => absurd rfl hc) _ _ _ _
  · exact hm

theorem grant (h : State.Touches l c s t) (p x o m) : State.Touches l c s (t.grant l p x o m) := by
  have hm : State.Touches l c s ((t.grantMoved l x m).releaseOpt p) :=
    ((((h.advanceEpoch.setBuilder _).setAuth _).setWindow _).engage x .holding).releaseOpt p
  rw [State.grant_eq]
  simp only [State.grantReport]
  cases p with
  | none => exact ((hm.notice _ _).raise _ _ _ _).count _ _
  | some p => exact (((hm.notice _ _).notice _ _).raise _ _ _ _).count _ _

/-! ## Rows about one loader -/

theorem releaseTimeout : State.Touches l c s (s.releaseTimeout l) := by
  unfold State.releaseTimeout
  split
  · exact (refl s).standEntry _
  · exact refl s

theorem matchTimeout : State.Touches l c s (s.matchTimeout l) := by
  unfold State.matchTimeout
  repeat' split
  · exact (((((refl s).notice _ _).count _ _).raise _ _ _ _).endMatching _).returnLoader
  · exact refl s
  · exact refl s

theorem readyTest : State.Touches l c s (s.readyTest l) := by
  unfold State.readyTest
  repeat' split
  · exact (((refl s).setAuth _).raise _ _ _ _).enterFree
  · exact refl s
  · exact refl s

/-! ## Requests about one loader (Chapter 1) -/

theorem answerMissed (h : State.Touches l c s t) (d tag k n) : State.Touches l c s (t.answerMissed d tag k n) := h.refuse _ _ _ _

/-- A request about a loader touches the loader its header names, if it names one. -/
theorem authorityRequest {b tag fits} {k : State → Loader → State} (hn : ∀ m, indexOfByte 16 b = some m → m = l)
    (hk : State.Touches l c s (k s l)) : State.Touches l c s (s.authorityRequest c b tag fits k) := by
  simp only [State.authorityRequest]
  split
  · exact (refl s).refuse _ _ _ _
  · split
    · exact (refl s).refuse _ _ _ _
    · next m hm =>
      obtain rfl := hn m hm
      repeat' split
      · exact (refl s).refuse _ _ _ _
      · exact (refl s).refuse _ _ _ _
      · exact (refl s).refuse _ _ _ _
      · exact hk

variable {b : Byte} (hn : ∀ m, indexOfByte 16 b = some m → m = l)
include hn

theorem offerRequest (tag args) : State.Touches l c s (s.offerRequest c b tag args) := by
  simp only [State.offerRequest]
  refine authorityRequest hn ?_
  repeat' split
  · exact refl s
  · exact (refl s).refuse _ _ _ _
  · exact ((refl s).done _ _ _ _ _ _).makeOffer _ _

theorem acceptRequest (tag args) : State.Touches l c s (s.acceptRequest c b tag args) := by
  simp only [State.acceptRequest]
  refine authorityRequest hn ?_
  repeat' split
  · exact State.Touches.setChair (((refl s).done _ _ _ _ _ _).beginMatching _ _ _ _) c fun hc => absurd rfl hc
  · exact (refl s).answerMissed _ _ _ _
  · exact (refl s).answerMissed _ _ _ _

theorem declineRequest (tag args) : State.Touches l c s (s.declineRequest c b tag args) := by
  simp only [State.declineRequest]
  refine authorityRequest hn ?_
  repeat' split
  · exact ((refl s).done _ _ _ _ _ _).endOffer_return _ _ _
  · exact (refl s).answerMissed _ _ _ _
  · exact (refl s).answerMissed _ _ _ _

theorem cancelRequest (tag args) : State.Touches l c s (s.cancelRequest c b tag args) := by
  simp only [State.cancelRequest]
  refine authorityRequest hn ?_
  repeat' split
  · exact (((refl s).done _ _ _ _ _ _).notice _ _).endOffer_return _ _ _
  · exact (refl s).refuse _ _ _ _
  · exact (((refl s).done _ _ _ _ _ _).endMatching _).returnLoader
  · exact ((((refl s).done _ _ _ _ _ _).notice _ _).endMatching _).returnLoader
  · exact (refl s).refuse _ _ _ _
  · exact (refl s).refuse _ _ _ _

omit hn in
theorem takeSupervisor (tag) : State.Touches l c s (s.takeSupervisor c tag l) := by
  simp only [State.takeSupervisor]
  refine State.Touches.raise ?_ _ _ _ _
  have hd (e) := (refl (l := l) (c := c) s).done c tag l e 0 s.tables.device.matchTimeout
  split
  · exact ((hd _).dequeue _).beginMatching _ _ _ _
  · exact endOffer _ _ _
      (State.Touches.beginMatching (State.Touches.offerGone ((hd _).notice _ _) _ _) _ _ _ _)
  · exact (((hd _).notice _ _).endMatching _).beginMatching _ _ _ _
  · exact (hd _).beginMatching _ _ _ _
  · exact ((hd _).dropTaken _ _).beginMatching _ _ _ _
  · exact (hd _).beginMatching _ _ _ _

theorem takeRequest (tag args) : State.Touches l c s (s.takeRequest c b tag args) := by
  simp only [State.takeRequest]
  refine authorityRequest hn ?_
  repeat' split
  · exact (refl s).refuse _ _ _ _
  · exact takeSupervisor _
  · exact (refl s).refuse _ _ _ _
  · exact (((refl s).done _ _ _ _ _ _).dequeue _).beginMatching _ _ _ _

theorem releaseRequest (tag args) : State.Touches l c s (s.releaseRequest c b tag args) := by
  simp only [State.releaseRequest]
  refine authorityRequest hn ?_
  repeat' split
  · exact (refl s).refuse _ _ _ _
  · exact (((((refl s).done _ _ _ _ _ _).advanceEpoch).setAuth _).release _).raise _ _ _ _
  · exact ((refl s).done _ _ _ _ _ _).standEntry _
  · exact (refl s).refuse _ _ _ _
  · exact (refl s).refuse _ _ _ _

theorem recoverRequest (tag args) : State.Touches l c s (s.recoverRequest c b tag args) := by
  simp only [State.recoverRequest]
  refine authorityRequest hn ?_
  repeat' split
  · exact (refl s).refuse _ _ _ _
  · exact (refl s).refuse _ _ _ _
  · exact (((refl s).done _ _ _ _ _ _).enterFree).raise _ _ _ _
  · exact (((refl s).done _ _ _ _ _ _).beginMatching _ _ _ _).raise _ _ _ _
  · exact ((((refl s).done _ _ _ _ _ _).dropTaken _ _).enterFree).raise _ _ _ _
  · exact (refl s).refuse _ _ _ _
  · exact (refl s).refuse _ _ _ _

theorem stopLoaderRequest (tag fits) : State.Touches l c s (s.stopLoaderRequest c b tag fits) :=
  authorityRequest hn (State.Touches.stand ((refl s).done _ _ _ _ _ _) .stop)

end State.Touches

end Sys2Proof.Machine
end

section
/-! What the Management Agent's service may change (R162-R180), one constructor for each kind of effect. -/

namespace Sys2Proof.Machine

open Sys2Proof

/-- The states that carrying a request out may leave. -/
inductive State.Serves (s : State) : State → Prop
  | nothing : Serves s s
  | write {table index data} (w) (h : s.judgeWrite table index data = .ok w) : Serves s { s with writes := s.writes.put w }
  | clearGroup (g) : Serves s { s with rep := s.rep.clearGroup g }
  | frozen (b) : Serves s { s with rep := { s.rep with frozen := b } }
  | clearAll : Serves s { s with rep := s.rep.clearAllCounters }
  | readLog (n) : Serves s { s with rep := { s.rep with log := s.rep.log.drop n, overflow := false } }
  | attnClear : Serves s { s with rep := { s.rep with attn := false } }
  | lineAck (i) (h : s.lines[i].status = .latched) : Serves s (s.acknowledge i none)
  | resetMark : Serves s { s with agent := { s.agent with resetMark := true } }
  | save (h : s.config.phase = .idle) : Serves s { s with config := { s.config with phase := .saving s.tables } }

theorem State.writeEntryService_serves (s : State) (table index data) :
    s.Serves (s.writeEntryService table index data).state := by
  simp only [State.writeEntryService, State.answer]
  split
  · exact .nothing
  · next w hw => exact .write w hw

theorem State.readEntryService_serves (s : State) (table index data) :
    s.Serves (s.readEntryService table index data).state := by
  simp only [State.readEntryService, State.answer]
  repeat' split
  all_goals exact .nothing

theorem State.readStateService_serves (s : State) (sel index data) : s.Serves (s.readStateService sel index data).state := by
  simp only [State.readStateService, State.answer]
  repeat' split
  all_goals exact .nothing

theorem State.readCountersService_serves (s : State) (sel index data) :
    s.Serves (s.readCountersService sel index data).state := by
  simp only [State.readCountersService, State.answer]
  split
  · split
    · exact .nothing
    · next g _ =>
      split
      · dsimp only
        split
        · exact .clearGroup g
        · exact .nothing
      · exact .nothing
  · exact .nothing

theorem State.counterControlService_serves (s : State) (data) : s.Serves (s.counterControlService data).state := by
  simp only [State.counterControlService, State.answer]
  repeat' split
  · exact .frozen true
  · exact .frozen false
  · exact .clearAll
  · exact .nothing
  · exact .nothing

theorem State.readLogService_serves (s : State) (n data) : s.Serves (s.readLogService n data).state := by
  simp only [State.readLogService, State.answer]
  repeat' split
  · exact .nothing
  · exact .readLog _
  · exact .nothing

theorem State.mgmtLineAckService_serves (s : State) (line data) : s.Serves (s.mgmtLineAckService line data).state := by
  simp only [State.mgmtLineAckService, State.answer]
  repeat' split
  · exact .nothing
  · exact .nothing
  · next h => exact .lineAck _ h
  · exact .nothing

theorem State.saveConfigService_serves (s : State) (data) : s.Serves (s.saveConfigService data).state := by
  simp only [State.saveConfigService, State.answer]
  repeat' split
  · exact .nothing
  · next h => exact .save h
  · exact .nothing

/-- Carrying a request out has one of these effects. -/
theorem State.carryOut_serves (s : State) (r : MgmtRequest) : s.Serves (s.carryOut r).state := by
  unfold State.carryOut
  split
  · simp only [State.identService, State.answer]
    split <;> exact .nothing
  split
  · exact s.readEntryService_serves _ _ _
  split
  · exact s.writeEntryService_serves _ _ _
  split
  · exact s.readStateService_serves _ _ _
  split
  · exact s.readCountersService_serves _ _ _
  split
  · exact s.counterControlService_serves _
  split
  · exact s.readLogService_serves _ _
  split
  · simp only [State.attnClearService, State.answer]
    split
    · exact .attnClear
    · exact .nothing
  split
  · exact s.mgmtLineAckService_serves _ _
  split
  · simp only [State.resetAuthorityService, State.answer]
    split
    · exact .resetMark
    · exact .nothing
  split
  · exact s.saveConfigService_serves _
  · exact .nothing

/-- One move of the Agent: a request carried out, its own state with no more requests waiting than the list takes, a response
placed where the queue holds fewer than `room`, a count. -/
inductive State.Tends (room : Nat) (s : State) : State → Prop
  | served {t} (h : s.Serves t) : Tends room s t
  | agent (a : Agent) (h : a.waiting.length ≤ max 4 s.agent.waiting.length) : Tends room s { s with agent := a }
  | respond (f) (h : s.responses.length < room) : Tends room s { s with responses := s.responses ++ [f] }
  | count (id n) : Tends room s (s.count id n)

/-- The moves of the Agent, one after the other. -/
abbrev State.Tended (room : Nat) : State → State → Prop := Relation.ReflTransGen (State.Tends room)

section
variable {room : Nat} {s : State}

theorem State.Serves.waiting {t : State} (h : s.Serves t) : t.agent.waiting = s.agent.waiting := by
  cases h <;> rfl

theorem State.Serves.responses {t : State} (h : s.Serves t) : t.responses = s.responses := by
  cases h <;> rfl

theorem State.placeResponse_tended (hr : 4 ≤ room) (f : Frame) : State.Tended room s (s.placeResponse f) := by
  simp only [State.placeResponse]
  split
  · next h => exact .single (.respond f (lt_of_lt_of_le h hr))
  · exact .single (.agent _ (le_max_right _ _))

@[simp] theorem State.placeResponse_waiting (s : State) (f : Frame) :
    (s.placeResponse f).agent.waiting = s.agent.waiting := by
  simp only [State.placeResponse]
  split <;> rfl

theorem State.setInService_tends (s : State) (r : Option MgmtRequest) : State.Tends room s (s.setInService r) :=
  .agent _ (le_max_right _ _)

theorem State.serve_tended (hr : 4 ≤ room) (r : MgmtRequest) : State.Tended room s (s.serve r) := by
  have hc := (s.setInService (some r)).carryOut_serves r
  exact .head (s.setInService_tends _) (.head (.served hc) (.head (State.setInService_tends _ none)
    (State.placeResponse_tended hr _)))

@[simp] theorem State.serve_waiting (s : State) (r : MgmtRequest) : (s.serve r).agent.waiting = s.agent.waiting := by
  have h2 := ((s.setInService (some r)).carryOut_serves r).waiting
  simp only [State.serve, State.placeResponse_waiting]
  exact h2

theorem State.serveWaiting_tended (hr : 4 ≤ room) (rs : List MgmtRequest) (h : rs.length ≤ max 4 s.agent.waiting.length) :
    State.Tended room s (State.serveWaiting rs s) := by
  induction rs generalizing s with
  | nil => exact .single (.agent _ (Nat.zero_le _))
  | cons r rest ih =>
    simp only [State.serveWaiting]
    split
    · exact .single (.agent _ h)
    · exact (State.serve_tended hr r).trans (ih (by
        rw [State.serve_waiting]
        exact (Nat.le_succ _).trans h))

theorem State.responseTaken_tended (hr : 4 ≤ room) (h : s.responses.length < room) :
    State.Tended room s s.responseTaken := by
  unfold State.responseTaken
  split
  · exact .refl
  · next f _ =>
    refine .head (.respond f h) (.head (.agent { s.agent with response := none } (le_max_right _ _)) ?_)
    exact State.serveWaiting_tended (s := { s with
      responses := s.responses ++ [f], agent := { s.agent with response := none } }) hr _ (le_max_right _ _)

theorem State.mgmtArrival_tended (hr : 4 ≤ room) (r : MgmtRequest) : State.Tended room s (s.mgmtArrival r) := by
  simp only [State.mgmtArrival]
  split
  · exact State.serve_tended hr r
  · split
    · next h =>
      refine .single (.agent _ ?_)
      rw [List.length_append]
      exact (Nat.succ_le_of_lt h).trans (le_max_left _ _)
    · exact .single (.count _ _)

end

/-! ## The transmitter's take -/

/-- What a take removes from its queue and puts on the line. -/
inductive State.Taken (s : State) : State → Prop
  | nothing : Taken s s
  | notice {f rest o} (h : s.rep.notices = f :: rest) : Taken s { s with rep := { s.rep with notices := rest }, sending := o }
  | response {f rest o} (h : s.responses = f :: rest) : Taken s { s with responses := rest, sending := o }
  | forward {f rest o} (h : s.forwards = f :: rest) : Taken s { s with forwards := rest, sending := o }

theorem State.surfaceSend_eq (s : State) (f : Frame) : ∃ o, s.surfaceSend f = { s with sending := o } := by
  simp only [State.surfaceSend]
  split
  · exact ⟨_, rfl⟩
  · exact ⟨s.sending, rfl⟩

/-- A take removes a frame from its queue; the Agent then goes on, where it was a response. -/
theorem State.takeFrame_tended (s : State) : ∃ t, s.Taken t ∧ State.Tended (max 4 s.responses.length) t s.takeFrame := by
  unfold State.takeFrame
  split
  · next f rest h =>
    obtain ⟨o, ho⟩ := State.surfaceSend_eq { s with rep := { s.rep with notices := rest } } f
    rw [ho]
    exact ⟨_, .notice h, .refl⟩
  · split
    · next f rest h =>
      obtain ⟨o, ho⟩ := State.surfaceSend_eq { s with responses := rest } f
      rw [ho]
      refine ⟨_, .response (o := o) h, State.responseTaken_tended (le_max_left _ _) (lt_of_lt_of_le ?_ (le_max_right _ _))⟩
      rw [h]
      exact Nat.lt_succ_self _
    · split
      · next f rest h =>
        obtain ⟨o, ho⟩ := State.surfaceSend_eq { s with forwards := rest } f
        rw [ho]
        exact ⟨_, .forward h, .refl⟩
      · exact ⟨_, .nothing, .refl⟩

/-- What the Agent's moves keep, its arrivals and the takes keep. -/
theorem State.Tended.keeps {P : State → Prop} {room : Nat} (hP : ∀ s t, State.Tends room s t → P s → P t) {s t : State}
    (h : State.Tended room s t) (hs : P s) : P t := by
  induction h with
  | refl => exact hs
  | tail _ hm ih => exact hP _ _ hm ih

end Sys2Proof.Machine
end

section
/-! Every step keeps the records in agreement (R3, R12, R34, R44, R46). -/

namespace Sys2Proof.Machine

open Sys2Proof

theorem State.Aside.recordsAgree {s t : State} (h : s.Aside t) (hs : s.RecordsAgree) : t.RecordsAgree := by
  cases h <;> exact hs.same rfl

theorem State.Minor.recordsAgree {s t : State} (h : s.Minor t) (hs : s.RecordsAgree) : t.RecordsAgree := by
  cases h with
  | count id n => exact hs.count _ _
  | raise e l c d => exact hs.raise _ _ _ _
  | refreshPresence c => exact hs.refreshPresence c
  | undue d => exact hs.same rfl

theorem State.Tends.recordsAgree {room : Nat} {s t : State} (h : State.Tends room s t) (hs : s.RecordsAgree) : t.RecordsAgree := by
  cases h with
  | served h => cases h <;> exact hs.same rfl
  | agent a h => exact hs.same rfl
  | respond f h => exact hs.same rfl
  | count id n => exact hs.count _ _

theorem State.RecordsAgree.takeFrame {s : State} (hs : s.RecordsAgree) : s.takeFrame.RecordsAgree := by
  obtain ⟨u, hu, ht⟩ := s.takeFrame_tended
  exact ht.keeps (fun _ _ => State.Tends.recordsAgree) (by cases hu <;> exact hs.same rfl)

theorem State.RecordsAgree.saveEnd {s : State} (hs : s.RecordsAgree) (read) : (s.saveEnd read).RecordsAgree := by
  unfold State.saveEnd
  split
  · dsimp only
    split
    · exact hs.same rfl
    · split <;> exact hs.same rfl
  · exact hs

theorem State.Row.recordsAgree {s t : State} (h : s.Row t) (hs : s.RecordsAgree) : t.RecordsAgree := by
  cases h with
  | nothing => exact hs
  | saveEnd read => exact hs.saveEnd read
  | cycleStart b => exact hs.cycleStart b
  | applied order b n => exact (hs.tableApplied order b).same rfl
  | boundary order b =>
    exact State.RecordsAgree.drawPhases (s := (s.tableApplied order b).undue .phaseDraw) ((hs.tableApplied order b).same rfl)
  | drawPhases => exact hs.drawPhases
  | slotAt p k => exact hs.slotAt p k
  | staleSlot x => exact hs.staleSlot x
  | deadline l => exact hs.deadline l
  | pendingDeadline f =>
    unfold State.pendingDeadline
    split
    · next n _ =>
      exact State.RecordsAgree.deadline (s := State.seek { s with deadlines := putAt s.deadlines f.loader none } n) (hs.same rfl) _
    · exact hs
  | linkDownTest l => exact hs.linkDownTest l
  | linkUpTest l => exact hs.linkUpTest l
  | readyTest l => exact hs.readyTest l
  | offerExpiry l => exact hs.offerExpiry l
  | matchTimeout l => exact hs.matchTimeout l
  | releaseTimeout l => exact hs.releaseTimeout l
  | presenceExpiry c => exact hs.presenceExpiry c
  | authorityReset => exact hs.authorityReset
  | stepMillis => exact hs.same rfl
  | sampleAhead i v =>
    simp only [State.sampleAhead, State.sampleLine]
    split <;> exact hs.same rfl
  | sampleLine i v w =>
    simp only [State.sampleLine]
    split <;> exact hs.same rfl
  | settleLine i => exact hs.settleLine i
  | portComesUp p =>
    simp only [State.portComesUp]
    split <;> exact hs.same rfl
  | portLost p => cases p <;> exact hs.same rfl
  | commandFrameFrom c h p => exact hs.commandFrameFrom c h p
  | statusFrame l h p => exact hs.statusFrame l h p
  | chairRequest c b code tag args => exact hs.chairRequest c b code tag args
  | mgmtArrival r => exact (State.mgmtArrival_tended (le_refl 4) r).keeps (fun _ _ => State.Tends.recordsAgree) hs
  | takeFrame => exact hs.takeFrame
  | transmissionEnd => exact hs.same rfl

end Sys2Proof.Machine
end

section
/-! What keeps enabled entries off each other's slots, what is disabled at rest, and the loaders under an active line STANDING
(R97, R103, R127, R128, R133, R163). -/

namespace Sys2Proof.Machine

open Sys2Proof

/-! ## What these conditions read -/

/-- The tables with their pending writes, the Status Unit's records, the pending deadlines and the lines. -/
structure Plant where
  tables : Tables
  writes : Writes
  status : Vector LoaderStatus 16
  deadlines : Vector (Option Deadline) 16
  lines : Vector LineState 8

def Rest.plant (r : Rest) : Plant := ⟨r.tables, r.writes, r.status, r.deadlines, r.lines⟩

/-- The fields of a state that no operation of authority writes, chapter by chapter. -/
abbrev State.plant (s : State) : Plant := s.rest.plant

section
variable {s t u : State}

theorem State.tables_of_plant (h : t.plant = s.plant) : t.tables = s.tables := congrArg Plant.tables h

theorem State.status_of_plant (h : t.plant = s.plant) : t.status = s.status := congrArg Plant.status h

theorem State.lines_of_plant (h : t.plant = s.plant) : t.lines = s.lines := congrArg Plant.lines h

theorem State.zoneInterlocked_congr (ht : t.tables.lines = s.tables.lines) (hl : ∀ i : Line, t.lines[i].status = s.lines[i].status) :
    t.zoneInterlocked = s.zoneInterlocked := by
  funext z
  simp only [State.zoneInterlocked, State.lineCounts, ht, hl]

theorem State.zoneInterlocked_of_plant (h : t.plant = s.plant) : t.zoneInterlocked = s.zoneInterlocked :=
  State.zoneInterlocked_congr (by rw [State.tables_of_plant h]) fun i => by rw [State.lines_of_plant h]

/-- A loader's zone is interlocked while an enabled line that is not CLEAR covers it, an unknown zone being covered by all. -/
theorem State.zoneInterlocked_iff (s : State) (z : Option Zone) : s.zoneInterlocked z = true ↔
    ∃ i : Line, s.tables.lines[i].enabled = true ∧ s.lines[i].status ≠ .clear ∧
      ∀ w : Zone, z = some w → s.tables.lines[i].zones.getLsbD w.val = true := by
  have hall (i : Line) : i ∈ allLines := by revert i; decide
  simp only [State.zoneInterlocked, List.any_eq_true, State.lineCounts, Bool.and_eq_true, decide_eq_true_iff]
  constructor
  · rintro ⟨i, -, ⟨hen, hst⟩, hz⟩
    refine ⟨i, hen, hst, fun w hw => ?_⟩
    rw [hw] at hz
    exact hz
  · rintro ⟨i, hen, hst, hz⟩
    refine ⟨i, hall i, ⟨hen, hst⟩, ?_⟩
    cases z with
    | none => rfl
    | some w => exact hz w rfl

/-- Every enabled loader whose zone is interlocked stands (R128). -/
theorem State.interlocksStand_iff (s : State) : s.InterlocksStand ↔
    ∀ l : Loader, s.enabled l = true → s.zoneInterlocked s.status[l].zone = true → s.auth[l].state.isStanding = true := by
  constructor
  · intro h l hen hz
    obtain ⟨i, hi, hst, hw⟩ := (s.zoneInterlocked_iff _).mp hz
    exact h i l hi hst hen hw
  · intro h i l hi hst hen hw
    exact h l hen ((s.zoneInterlocked_iff _).mpr ⟨i, hi, hst, hw⟩)

/-! ## Slots apart -/

/-- The applied entries of the loaders, and their pending writes. -/
def State.entries (s : State) := (s.tables.loaders, s.writes.loaders)

theorem State.SlotsApart.same (h : s.SlotsApart) (he : t.entries = s.entries) : t.SlotsApart := by
  obtain ⟨ht, hw⟩ := Prod.mk.inj he
  simpa only [State.SlotsApart, State.loaderEntries, ht, hw] using h

theorem State.SlotsApart.congr (h : s.SlotsApart) (ht : t.tables.loaders = s.tables.loaders)
    (hw : t.writes.loaders = s.writes.loaders) : t.SlotsApart := h.same (by rw [State.entries, ht, hw]; rfl)

/-- Entries of which each was an entry before are off each other's slots. -/
theorem State.SlotsApart.of_fewer (h : s.SlotsApart) (hf : ∀ l, ∀ a ∈ t.loaderEntries l, a ∈ s.loaderEntries l) :
    t.SlotsApart := fun i j hij a ha b hb => h i j hij a (hf i a ha) b (hf j b hb)

theorem LoaderEntry.clashes_comm (a b : LoaderEntry) : a.clashes b = b.clashes a := by
  rw [Bool.eq_iff_iff]
  simp only [LoaderEntry.clashes, Bool.and_eq_true, decide_eq_true_iff]
  constructor <;> rintro ⟨⟨⟨h1, h2⟩, h3⟩, h4⟩ <;> exact ⟨⟨⟨h2, h1⟩, h3.symm⟩, h4.symm⟩

/-- A write that passes check 6 keeps enabled entries off each other's slots (R163). -/
theorem State.SlotsApart.put (h : s.SlotsApart) {w : EntryWrite} (hc : s.writeClash w = false) :
    State.SlotsApart { s with writes := s.writes.put w } := by
  cases w with
  | loader l e =>
    have hnew (j : Loader) (hj : j ≠ l) (b) (hb : b ∈ s.loaderEntries j) : e.clashes b = false := by
      by_contra hcl
      rw [Bool.not_eq_false] at hcl
      refine absurd hc (Bool.ne_false_iff.mpr (List.any_eq_true.mpr ⟨j, mem_allLoaders j, ?_⟩))
      obtain rfl | hb := List.mem_cons.mp hb
      · simp [-Fin.getElem_fin, hj, hcl]
      · rw [Option.mem_toList] at hb
        simp only [hb, hcl]
        simp [hj]
    have hentries (j : Loader) (b) (hb : b ∈ State.loaderEntries { s with writes := s.writes.put (.loader l e) } j) :
        (j = l ∧ b = e) ∨ b ∈ s.loaderEntries j := by
      obtain hb | hb := List.mem_cons.mp hb
      · exact .inr (List.mem_cons.mpr (.inl hb))
      · rw [Option.mem_toList] at hb
        change (putAt s.writes.loaders l (some e))[j] = some b at hb
        rw [putAt_get] at hb
        split at hb
        · next hj => exact .inl ⟨hj.symm, (Option.some.inj hb).symm⟩
        · exact .inr (List.mem_cons.mpr (.inr (Option.mem_toList.mpr hb)))
    intro i j hij a ha b hb
    obtain ⟨rfl, rfl⟩ | ha' := hentries i a ha
    · obtain ⟨rfl, -⟩ | hb := hentries j b hb
      · exact absurd rfl hij
      · exact hnew j hij.symm b hb
    · obtain ⟨rfl, rfl⟩ | hb' := hentries j b hb
      · rw [LoaderEntry.clashes_comm]
        exact hnew i hij a ha'
      · exact h i j hij a ha' b hb'
  | _ => exact h

/-! ## What is disabled -/

/-- What is disabled was so, and is still at rest. -/
theorem State.DisabledRest.of (h : s.DisabledRest)
    (hl : ∀ l : Loader, t.enabled l = false → s.enabled l = false ∧ t.status[l] = s.status[l] ∧ t.deadlines[l] = s.deadlines[l])
    (hi : ∀ i : Line, t.tables.lines[i].enabled = false → s.tables.lines[i].enabled = false ∧
      (s.lines[i].status = .clear → t.lines[i].status = .clear) ∧ (s.lines[i].startMark = false → t.lines[i].startMark = false)) :
    t.DisabledRest := by
  refine ⟨fun l hd => ?_, fun i hd => ?_⟩
  · obtain ⟨hs, hst, hdl⟩ := hl l hd
    rw [hst, hdl]
    exact h.1 l hs
  · obtain ⟨hs, hst, hm⟩ := hi i hd
    exact ⟨hst (h.2 i hs).1, hm (h.2 i hs).2⟩

theorem State.DisabledRest.same (h : s.DisabledRest) (hp : t.plant = s.plant) : t.DisabledRest := by
  have ht := State.tables_of_plant hp
  have hst := State.status_of_plant hp
  have hdl : t.deadlines = s.deadlines := congrArg Plant.deadlines hp
  have hl := State.lines_of_plant hp
  refine h.of (fun l hd => ?_) fun i hd => ?_
  · rw [State.enabled, ht] at hd
    rw [hst, hdl]
    exact ⟨hd, rfl, rfl⟩
  · rw [ht] at hd
    rw [hl]
    exact ⟨hd, id, id⟩

/-! ## Loaders under a line -/

/-- The loader stands. -/
abbrev State.Stands (s : State) (l : Loader) : Prop := s.auth[l].state.isStanding = true

theorem State.InterlocksStand.of (h : s.InterlocksStand)
    (hs : ∀ l : Loader, t.enabled l = true → t.zoneInterlocked t.status[l].zone = true →
      t.Stands l ∨ (s.enabled l = true ∧ s.zoneInterlocked s.status[l].zone = true ∧ (s.Stands l → t.Stands l))) :
    t.InterlocksStand := by
  rw [State.interlocksStand_iff] at h ⊢
  intro l hen hz
  obtain hst | ⟨hen', hz', hk⟩ := hs l hen hz
  · exact hst
  · exact hk (h l hen' hz')

/-- The plant is as it was, and a loader under an active line goes on standing. -/
structure State.Steady (s t : State) : Prop where
  plant : t.plant = s.plant
  stands : ∀ l : Loader, s.zoneInterlocked s.status[l].zone = true → s.Stands l → t.Stands l

theorem State.Steady.refl (s : State) : s.Steady s := ⟨rfl, fun _ _ h => h⟩

theorem State.Steady.trans (h : s.Steady t) (h' : t.Steady u) : s.Steady u := by
  refine ⟨h'.plant.trans h.plant, fun l hz hs => h'.stands l ?_ (h.stands l hz hs)⟩
  rw [State.zoneInterlocked_of_plant h.plant, State.status_of_plant h.plant]
  exact hz

/-- The records of authority are as they were. -/
theorem State.Steady.of_auth (hp : t.plant = s.plant) (ha : t.auth = s.auth) : s.Steady t :=
  ⟨hp, fun l _ hs => by rw [State.Stands, ha]; exact hs⟩

theorem State.InterlocksStand.steady (h : s.InterlocksStand) (hs : s.Steady t) : t.InterlocksStand := by
  refine h.of fun l hen hz => .inr ?_
  rw [State.enabled, State.tables_of_plant hs.plant] at hen
  rw [State.zoneInterlocked_of_plant hs.plant, State.status_of_plant hs.plant] at hz
  exact ⟨hen, hz, hs.stands l hz⟩

theorem State.DisabledRest.steady (h : s.DisabledRest) (hs : s.Steady t) : t.DisabledRest := h.same hs.plant

theorem State.SlotsApart.steady (h : s.SlotsApart) (hs : s.Steady t) : t.SlotsApart :=
  h.congr (by rw [State.tables_of_plant hs.plant]) (congrArg (fun p => p.writes.loaders) hs.plant)

/-- An operation about loader l is steady where it leaves that loader STANDING under an active line. -/
theorem State.Touches.steady {l : Loader} {c : Chair} (h : State.Touches l c s t)
    (hl : s.zoneInterlocked s.status[l].zone = true → s.Stands l → t.Stands l) : s.Steady t := by
  refine ⟨congrArg Rest.plant h.rest, fun k hz hs => ?_⟩
  by_cases hk : k = l
  · subst hk
    exact hl hz hs
  · rw [State.Stands, h.auth k hk]
    exact hs

end

/-- A state of a record that stands. -/
theorem AuthState.isStanding_iff (a : AuthState) : a.isStanding = true ↔ ∃ retained cause, a = .standing retained cause := by
  cases a <;> simp [AuthState.isStanding]

section
variable {s : State} {l : Loader}

theorem State.standCondition_of_interlocked (h : s.zoneInterlocked s.status[l].zone = true) : s.standCondition l = true := by
  rw [State.standCondition, h, Bool.or_true]

theorem State.stand_stands (s : State) (l : Loader) (cause : Cause) : (s.stand l cause).Stands l := by
  unfold State.stand
  split
  · next ha =>
    split
    · rw [State.Stands, State.reportStand_auth, State.setAuth_auth, putAt_same]
      rfl
    · rw [State.Stands, ha]
      rfl
  · rw [State.Stands, State.standEntry_auth, putAt_same]
    rfl

theorem State.standEntry_stands (s : State) (l : Loader) (cause : Cause) : (s.standEntry l cause).Stands l := by
  rw [State.Stands, State.standEntry_auth, putAt_same]
  rfl

theorem State.stand_steady (s : State) (l : Loader) (cause : Cause) : s.Steady (s.stand l cause) :=
  ((State.Touches.refl (c := 0) s).stand cause).steady fun _ _ => s.stand_stands l cause

theorem State.standEntry_steady (s : State) (l : Loader) (cause : Cause) : s.Steady (s.standEntry l cause) :=
  ((State.Touches.refl (c := 0) s).standEntry cause).steady fun _ _ => s.standEntry_stands l cause

theorem State.stands_steady (s : State) (xs : List Loader) (cause : Cause) :
    s.Steady (xs.foldl (fun s l => s.stand l cause) s) :=
  foldl_inv _ s.Steady (fun u l hu => hu.trans (u.stand_steady l cause)) xs s (.refl s)

theorem State.dropRetained_stands (h : s.Stands l) : (s.dropRetained l).Stands l := by
  rw [State.Stands, State.dropRetained_auth]
  split
  · rw [putAt_same]
    rfl
  · exact h

/-- A loader that does not stand has nothing to keep. -/
theorem State.Touches.steady_of_not_standing {t : State} {c : Chair} (h : State.Touches l c s t)
    (hn : s.auth[l].state.isStanding = false) : s.Steady t :=
  h.steady fun _ hs => absurd (hs.symm.trans hn) (by decide)

/-! ## Rows about one loader -/

theorem State.offerExpiry_steady (s : State) (l : Loader) : s.Steady (s.offerExpiry l) := by
  unfold State.offerExpiry
  split
  · next c _ _ _ _ ha =>
    split
    · refine State.Touches.steady_of_not_standing (l := l) (c := c) ?_ (by rw [ha]; rfl)
      exact (((State.Touches.refl s).notice _ _).missOffer).endOffer_return _ _ _
    · exact .refl s
  · exact .refl s

theorem State.matchTimeout_steady (s : State) (l : Loader) : s.Steady (s.matchTimeout l) := by
  refine (State.Touches.matchTimeout (c := 0)).steady fun _ hs => ?_
  obtain ⟨r, cause, ha⟩ := (AuthState.isStanding_iff _).mp hs
  simpa only [State.matchTimeout, ha] using hs

theorem State.releaseTimeout_steady (s : State) (l : Loader) : s.Steady (s.releaseTimeout l) := by
  refine (State.Touches.releaseTimeout (c := 0)).steady fun _ hs => ?_
  obtain ⟨r, cause, ha⟩ := (AuthState.isStanding_iff _).mp hs
  simpa only [State.releaseTimeout, ha] using hs

theorem State.readyTest_steady (s : State) (l : Loader) : s.Steady (s.readyTest l) := by
  refine (State.Touches.readyTest (c := 0)).steady fun hz hs => ?_
  have hc : s.standCondition l = true := State.standCondition_of_interlocked hz
  unfold State.readyTest
  split
  · rw [hc, Bool.not_true, Bool.and_false]
    exact hs
  · exact hs

/-! ## The place of a chair that goes -/

theorem State.absentPlace_steady (s : State) (c : Chair) (l : Loader) : s.Steady (s.absentPlace c l) := by
  unfold State.absentPlace
  split
  · next ha =>
    split
    · exact ((State.Touches.refl (c := c) s).dropRetained).steady fun _ hs => State.dropRetained_stands hs
    · exact .refl s
  · split
    · exact s.standEntry_steady l _
    · exact .refl s
  · next ha =>
    split
    · exact s.standEntry_steady l _
    · split
      · exact ((State.Touches.refl (c := c) s).endOffer_return _ _ _).steady_of_not_standing (by rw [ha]; rfl)
      · exact .refl s
  · next ha =>
    split
    · exact s.standEntry_steady l _
    · split
      · exact (((State.Touches.refl (c := c) s).endMatching _).returnLoader).steady_of_not_standing (by rw [ha]; rfl)
      · exact .refl s
  · exact .refl s

theorem State.becomeAbsent_steady (s : State) (c : Chair) (d : Word16) : s.Steady (s.becomeAbsent c d) := by
  have h1 : s.Steady ((((s.setChair c s.chairs[c].gone).leaveList c).clearViews c).raise .chairAbsent none (some c) d) := .of_auth rfl rfl
  simp only [State.becomeAbsent]
  split
  · exact h1
  · exact h1.trans (State.absentPlace_steady _ _ _)

theorem State.presenceExpiry_steady (s : State) (c : Chair) : s.Steady (s.presenceExpiry c) := by
  simp only [State.presenceExpiry]
  split
  · exact s.becomeAbsent_steady _ _
  · exact .refl s

theorem State.permitEnds_steady (s : State) (c : Chair) (l : Loader) : s.Steady (s.permitEnds c l) := by
  unfold State.permitEnds
  split
  · split
    · refine State.Touches.steady (l := l) (((State.Touches.refl (c := c) s).dropRetained).noticeIfPresent _ _) fun _ hs => ?_
      rw [State.Stands, State.noticeIfPresent_auth]
      exact State.dropRetained_stands hs
    · exact .refl s
  · split
    · exact s.standEntry_steady l _
    · exact .refl s
  · next ha =>
    split
    · exact s.standEntry_steady l _
    · split
      · exact (((State.Touches.refl (c := c) s).notice _ _).endOffer_return _ _ _).steady_of_not_standing (by rw [ha]; rfl)
      · exact .refl s
  · next ha =>
    split
    · exact s.standEntry_steady l _
    · split
      · exact ((((State.Touches.refl (c := c) s).notice _ _).endMatching _).returnLoader).steady_of_not_standing
          (by rw [ha]; rfl)
      · exact .refl s
  · exact .refl s

/-! ## COMMAND frames -/

theorem State.commandFrameFrom_steady (s : State) (c h p) : s.Steady (s.commandFrameFrom c h p) := by
  unfold State.commandFrameFrom
  split
  · exact .of_auth rfl rfl
  · next l _ =>
    split
    · exact .of_auth rfl rfl
    · dsimp only
      split
      · split
        · simp only [State.holderFrame]
          split <;> exact .of_auth rfl rfl
        · exact .of_auth rfl rfl
      · split
        · next hc =>
          have hn : s.auth[l].state.isStanding = false := by
            cases ha : s.auth[l].state <;> rw [ha] at hc <;> first | rfl | exact nomatch hc
          split
          · simp only [State.candidateFrame]
            split
            · split
              · refine State.Touches.steady_of_not_standing (l := l) (c := c) ?_ hn
                exact ((((State.Touches.refl s).setBuilder _).count _ _).setWindow _).grant _ _ _ _
              · exact .of_auth rfl rfl
            · exact .of_auth rfl rfl
          · exact .of_auth rfl rfl
        · simp only [State.strangerFrame]
          split <;> exact .of_auth rfl rfl

/-! ## Requests -/

/-- A request whose rule leaves a loader STANDING under an active line is steady. -/
theorem State.authorityRequest_steady {c : Chair} {b tag fits} {k : State → Loader → State}
    (hk : ∀ m, s.Steady (k s m)) : s.Steady (s.authorityRequest c b tag fits k) := by
  simp only [State.authorityRequest]
  repeat' split
  · exact .of_auth rfl rfl
  · exact .of_auth rfl rfl
  · exact .of_auth rfl rfl
  · exact .of_auth rfl rfl
  · exact .of_auth rfl rfl
  · exact hk _

theorem State.offerRequest_steady (s : State) (c b tag args) : s.Steady (s.offerRequest c b tag args) := by
  simp only [State.offerRequest]
  refine State.authorityRequest_steady fun m => ?_
  split
  · exact .refl s
  · split
    · exact .of_auth rfl rfl
    · next hnone =>
      refine State.Touches.steady_of_not_standing (l := m)
        (((State.Touches.refl (c := c) s).done _ _ _ _ _ _).makeOffer _ _) ?_
      by_contra hst
      obtain ⟨r, cause, ha⟩ := (AuthState.isStanding_iff _).mp (Bool.not_eq_false _ ▸ hst)
      simp [State.offerChecks, -Fin.getElem_fin, ha] at hnone

theorem State.acceptRequest_steady (s : State) (c b tag args) : s.Steady (s.acceptRequest c b tag args) := by
  simp only [State.acceptRequest]
  refine State.authorityRequest_steady fun m => ?_
  split
  · next ha =>
    split
    · exact State.Touches.steady_of_not_standing (l := m) (State.Touches.setChair
        (((State.Touches.refl s).done _ _ _ _ _ _).beginMatching _ _ _ _) c fun hc => absurd rfl hc) (by rw [ha]; rfl)
    · exact .of_auth rfl rfl
  · exact .of_auth rfl rfl

theorem State.declineRequest_steady (s : State) (c b tag args) : s.Steady (s.declineRequest c b tag args) := by
  simp only [State.declineRequest]
  refine State.authorityRequest_steady fun m => ?_
  split
  · next ha =>
    split
    · exact (((State.Touches.refl (l := m) (c := c) s).done _ _ _ _ _ _).endOffer_return _ _ _).steady_of_not_standing
        (by rw [ha]; rfl)
    · exact .of_auth rfl rfl
  · exact .of_auth rfl rfl

theorem State.cancelRequest_steady (s : State) (c b tag args) : s.Steady (s.cancelRequest c b tag args) := by
  simp only [State.cancelRequest]
  refine State.authorityRequest_steady fun m => ?_
  have hd (e n k) := (State.Touches.refl (l := m) (c := c) s).done c tag m e n k
  split
  · next ha =>
    split
    · exact (((hd _ _ _).notice _ _).endOffer_return _ _ _).steady_of_not_standing (by rw [ha]; rfl)
    · exact .of_auth rfl rfl
  · next ha =>
    split
    · split
      · exact (((hd _ _ _).endMatching _).returnLoader).steady_of_not_standing (by rw [ha]; rfl)
      · exact ((((hd _ _ _).notice _ _).endMatching _).returnLoader).steady_of_not_standing (by rw [ha]; rfl)
    · exact .of_auth rfl rfl
  · exact .of_auth rfl rfl

theorem State.takeRequest_steady (s : State) (c b tag args) : s.Steady (s.takeRequest c b tag args) := by
  simp only [State.takeRequest]
  refine State.authorityRequest_steady fun m => ?_
  split
  · split
    · exact .of_auth rfl rfl
    · next hnone =>
      refine (State.Touches.takeSupervisor tag).steady fun hz hs => ?_
      obtain ⟨r, cause, ha⟩ := (AuthState.isStanding_iff _).mp hs
      have hc : s.standCondition m = true := State.standCondition_of_interlocked hz
      simp only [State.takeSupervisorChecks, ha, hc, if_true] at hnone
      split at hnone
      · exact nomatch hnone
      · split at hnone <;> exact nomatch hnone
  · split
    · exact .of_auth rfl rfl
    · next hnone =>
      refine ((((State.Touches.refl (l := m) (c := c) s).done _ _ _ _ _ _).dequeue _).beginMatching _ _ _ _).steady_of_not_standing ?_
      obtain ⟨-, ha | ⟨w, ha⟩⟩ := State.RecordsAgree.takeRequest_checks hnone <;> rw [ha] <;> rfl

theorem State.releaseRequest_steady (s : State) (c b tag args) : s.Steady (s.releaseRequest c b tag args) := by
  simp only [State.releaseRequest]
  refine State.authorityRequest_steady fun m => ?_
  have hd (e n k) := (State.Touches.refl (l := m) (c := c) s).done c tag m e n k
  split
  · exact .of_auth rfl rfl
  · split
    · next ha =>
      split
      · exact ((((hd _ _ _).advanceEpoch.setAuth _).release _).raise _ _ _ _).steady_of_not_standing (by rw [ha]; rfl)
      · exact ((hd _ _ _).standEntry _).steady_of_not_standing (by rw [ha]; rfl)
    · exact .of_auth rfl rfl
    · exact .of_auth rfl rfl

theorem State.recoverRequest_steady (s : State) (c b tag args) : s.Steady (s.recoverRequest c b tag args) := by
  simp only [State.recoverRequest]
  refine State.authorityRequest_steady fun m => ?_
  have hd (e n k) := (State.Touches.refl (l := m) (c := c) s).done c tag m e n k
  split
  · split
    · exact .of_auth rfl rfl
    · split
      · exact .of_auth rfl rfl
      · next hcond =>
        have hfree {t : State} (ht : State.Touches m c s t) : s.Steady t :=
          ht.steady fun hz _ => absurd (State.standCondition_of_interlocked hz) hcond
        split
        · exact hfree (((hd _ _ _).enterFree).raise _ _ _ _)
        · split
          · exact hfree (((hd _ _ _).beginMatching _ _ _ _).raise _ _ _ _)
          · split
            · exact hfree ((((hd _ _ _).dropTaken _ _).enterFree).raise _ _ _ _)
            · exact .of_auth rfl rfl
  · exact .of_auth rfl rfl

theorem State.stopRequest_steady (s : State) (c b tag args) : s.Steady (s.stopRequest c b tag args) := by
  have hl (fits : Bool) : s.Steady (s.stopLoaderRequest c b tag fits) :=
    State.authorityRequest_steady fun m => (State.Steady.of_auth (s := s) (t := s.done c tag m s.auth[m].epoch) rfl rfl).trans
      (State.stand_steady _ _ _)
  have hz (zone : Byte) (fits : Bool) : s.Steady (s.stopZoneRequest c tag zone fits) := by
    simp only [State.stopZoneRequest]
    repeat' split
    · exact .of_auth rfl rfl
    · exact .of_auth rfl rfl
    · exact .of_auth rfl rfl
    · exact (State.Steady.of_auth (s := s) (t := s.doneNone c tag) rfl rfl).trans (State.stands_steady _ _ _)
  unfold State.stopRequest
  repeat' split
  all_goals first | exact hl _ | exact hz _ _

theorem State.setAvailable_touches (s : State) (c : Chair) (a : Bool) : State.Touches 0 c s (s.setAvailable c a) := by
  simp only [State.setAvailable]
  split
  · exact .refl s
  · have hc (r) := (State.Touches.refl (l := 0) (c := c) s).setChair c (r := r) fun hc => absurd rfl hc
    split
    · split
      · exact State.Touches.joinList (State.Touches.raise (hc _) _ _ _ _) _
      · exact State.Touches.raise (hc _) _ _ _ _
    · exact State.Touches.leaveList (State.Touches.raise (hc _) _ _ _ _) _

@[simp] theorem State.setAvailable_auth (s : State) (c : Chair) (a : Bool) : (s.setAvailable c a).auth = s.auth := by
  simp only [State.setAvailable]
  repeat' split
  all_goals rfl

theorem State.presentRequest_steady (s : State) (c tag args) : s.Steady (s.presentRequest c tag args) := by
  simp only [State.presentRequest]
  split
  · exact .of_auth rfl rfl
  · split
    · simp only [State.becomePresent]
      split <;> exact .of_auth rfl rfl
    · refine .of_auth ?_ ?_
      · rw [State.plant, (State.setAvailable_touches _ _ _).rest, State.refreshPresence_rest]
        rfl
      · rw [State.setAvailable_auth, State.refreshPresence_auth]
        rfl

theorem State.leaveRequest_steady (s : State) (c tag args) : s.Steady (s.leaveRequest c tag args) := by
  simp only [State.leaveRequest]
  repeat' split
  · exact .of_auth rfl rfl
  · exact .of_auth rfl rfl
  · exact (State.Steady.of_auth (s := s) (t := s.doneNone c tag) rfl rfl).trans (State.becomeAbsent_steady _ _ _)

theorem State.viewOnRequest_steady (s : State) (c b tag args) : s.Steady (s.viewOnRequest c b tag args) := by
  simp only [State.viewOnRequest]
  repeat' split
  all_goals exact .of_auth rfl rfl

theorem State.viewOffRequest_steady (s : State) (c b tag args) : s.Steady (s.viewOffRequest c b tag args) := by
  simp only [State.viewOffRequest]
  repeat' split
  all_goals exact .of_auth rfl rfl

/-- A chair's request is steady, or clears a LATCHED line (R130). -/
theorem State.chairRequest_steady (s : State) (c b code tag args) : s.Steady (s.chairRequest c b code tag args) ∨
    ∃ i : Line, s.lines[i].status = .latched ∧ s.chairRequest c b code tag args = (s.doneNone c tag).acknowledge i (some c) := by
  have hm := s.chairRequest_made c b code tag args
  generalize s.chairRequest c b code tag args = t at hm ⊢
  cases hm with
  | present => exact .inl (s.presentRequest_steady _ _ _)
  | leave => exact .inl (s.leaveRequest_steady _ _ _)
  | take => exact .inl (s.takeRequest_steady _ _ _ _)
  | offer => exact .inl (s.offerRequest_steady _ _ _ _)
  | accept => exact .inl (s.acceptRequest_steady _ _ _ _)
  | decline => exact .inl (s.declineRequest_steady _ _ _ _)
  | cancel => exact .inl (s.cancelRequest_steady _ _ _ _)
  | release => exact .inl (s.releaseRequest_steady _ _ _ _)
  | recover => exact .inl (s.recoverRequest_steady _ _ _ _)
  | stop => exact .inl (s.stopRequest_steady _ _ _ _)
  | viewOn => exact .inl (s.viewOnRequest_steady _ _ _ _)
  | viewOff => exact .inl (s.viewOffRequest_steady _ _ _ _)
  | lineAck =>
    simp only [State.lineAckRequest]
    split
    · exact .inl (.of_auth rfl rfl)
    · split
      · exact .inl (.of_auth rfl rfl)
      · split
        · exact .inl (.of_auth rfl rfl)
        · split
          · exact .inl (.of_auth rfl rfl)
          · next hl => exact .inr ⟨_, not_not.mp hl, rfl⟩
  | unknown => exact .inl (.of_auth rfl rfl)

/-! ## The end of an event -/

theorem State.RecordsAgree.standing_not_queued (h : s.RecordsAgree) (hs : s.Stands l) (e) (he : e ∈ s.callQueue) :
    e.loader ≠ l := by
  rintro rfl
  rw [State.Stands, (h.1.1 e he).1] at hs
  exact Bool.false_ne_true hs

theorem State.RecordsAgree.finish_steady (h : s.RecordsAgree) : s.Steady s.finish := by
  refine ⟨congrArg Rest.plant s.finish_rest, fun l _ hs => ?_⟩
  rwa [State.Stands, s.finish_auth_other (h.standing_not_queued hs)]

theorem State.RecordsAgree.walkIfCalled_steady (h : s.RecordsAgree) : s.Steady s.walkIfCalled := by
  refine ⟨congrArg Rest.plant s.walkIfCalled_rest, fun l _ hs => ?_⟩
  unfold State.walkIfCalled
  split
  · change s.walk.Stands l
    rwa [State.Stands, s.walk_auth_other (h.standing_not_queued hs)]
  · exact hs

end

end Sys2Proof.Machine
end

section
/-! The rows that write the Status Unit, the deadlines, the lines, the tables and their writes keep these conditions too, and so
does every step. -/

namespace Sys2Proof.Machine

open Sys2Proof

section
variable {s t u : State} {l : Loader} {i : Line}

/-- What an operation that stands loaders, and moves no line out of CLEAR, keeps. -/
theorem State.InterlocksStand.congr (h : s.InterlocksStand) (ht : t.tables.lines = s.tables.lines)
    (hen : ∀ l, t.enabled l = true → s.enabled l = true) (hl : ∀ i : Line, t.lines[i].status ≠ .clear → s.lines[i].status ≠ .clear)
    (hz : ∀ l : Loader, t.status[l].zone = s.status[l].zone) (hs : ∀ l, s.Stands l → t.Stands l) : t.InterlocksStand := by
  intro i l hi hst he hw
  rw [ht] at hi hw
  exact hs l (h i l hi (hl i hst) (hen l he) fun z hzz => hw z ((hz l).trans hzz))

/-- What the standing of loaders under lines reads. -/
def State.covers (s : State) := (s.tables.lines, s.tables.loaders, s.lines, s.status, s.auth)

theorem State.InterlocksStand.kept (h : s.InterlocksStand) (hc : t.covers = s.covers) : t.InterlocksStand := by
  simp only [State.covers, Prod.mk.injEq] at hc
  obtain ⟨ht, ho, hl, hst, ha⟩ := hc
  refine h.congr ht (fun l he => ?_) (fun i hi => ?_) (fun l => by rw [hst]) fun l hs => ?_
  · rwa [State.enabled, ho] at he
  · rwa [hl] at hi
  · rwa [State.Stands, ha]

/-- The Status Unit's record of a loader that is enabled is none of what must be at rest. -/
theorem State.DisabledRest.heard (h : s.DisabledRest) (hen : s.enabled l = true) (ht : t.tables = s.tables)
    (hst : ∀ k : Loader, k ≠ l → t.status[k] = s.status[k]) (hdl : ∀ k : Loader, k ≠ l → t.deadlines[k] = s.deadlines[k])
    (hl : t.lines = s.lines) : t.DisabledRest := by
  refine h.of (fun k hk => ?_) fun i hi => ?_
  · rw [State.enabled, ht] at hk
    have hkl : k ≠ l := by
      rintro rfl
      exact absurd (hen.symm.trans hk) (by decide)
    exact ⟨hk, hst k hkl, hdl k hkl⟩
  · rw [ht] at hi
    rw [hl]
    exact ⟨hi, id, id⟩

/-! ## The Status Unit's rows -/

/-- But for loader l's own record of the Status Unit, its zone apart, the plant is as it was, and a loader under an active line
goes on standing. -/
structure State.Hears (l : Loader) (s t : State) : Prop where
  tables : t.tables = s.tables
  writes : t.writes = s.writes
  deadlines : t.deadlines = s.deadlines
  lines : t.lines = s.lines
  status : ∀ k : Loader, k ≠ l → t.status[k] = s.status[k]
  zone : t.status[l].zone = s.status[l].zone
  stands : ∀ k : Loader, s.zoneInterlocked s.status[k].zone = true → s.Stands k → t.Stands k

namespace State.Hears

theorem zones (h : State.Hears l s t) (k : Loader) : t.status[k].zone = s.status[k].zone := by
  by_cases hk : k = l
  · rw [hk]
    exact h.zone
  · rw [h.status k hk]

theorem zoneInterlocked (h : State.Hears l s t) : t.zoneInterlocked = s.zoneInterlocked :=
  State.zoneInterlocked_congr (by rw [h.tables]) fun i => by rw [h.lines]

theorem of_steady (h : s.Steady t) : State.Hears l s t where
  tables := State.tables_of_plant h.plant
  writes := congrArg Plant.writes h.plant
  deadlines := congrArg Plant.deadlines h.plant
  lines := State.lines_of_plant h.plant
  status k _ := by rw [State.status_of_plant h.plant]
  zone := by rw [State.status_of_plant h.plant]
  stands := h.stands

theorem trans (h : State.Hears l s t) (h' : State.Hears l t u) : State.Hears l s u where
  tables := h'.tables.trans h.tables
  writes := h'.writes.trans h.writes
  deadlines := h'.deadlines.trans h.deadlines
  lines := h'.lines.trans h.lines
  status k hk := (h'.status k hk).trans (h.status k hk)
  zone := h'.zone.trans h.zone
  stands k hz hs := by
    refine h'.stands k ?_ (h.stands k hz hs)
    rw [h.zoneInterlocked, h.zones]
    exact hz

theorem setStatus {st : LoaderStatus} (hz : st.zone = s.status[l].zone) : State.Hears l s (s.setStatus l st) where
  tables := rfl
  writes := rfl
  deadlines := rfl
  lines := rfl
  status k hk := putAt_other _ _ hk.symm
  zone := by
    change (putAt s.status l st)[l].zone = _
    rw [putAt_same, hz]
  stands _ _ hs := hs

theorem steady (h : State.Hears l s t) (h' : t.Steady u) : State.Hears l s u := h.trans (of_steady h')

/-- One write of the loader's record, with what leaves the plant and the records. -/
theorem put {st : LoaderStatus} (hp : t.plant = (s.setStatus l st).plant) (ha : t.auth = s.auth)
    (hz : st.zone = s.status[l].zone) : State.Hears l s t :=
  steady (setStatus hz) (.of_auth hp ha)

end State.Hears

theorem State.InterlocksStand.hears (h : s.InterlocksStand) (hs : State.Hears l s t) : t.InterlocksStand := by
  refine h.of fun k hen hz => .inr ?_
  rw [State.enabled, hs.tables] at hen
  rw [hs.zoneInterlocked, hs.zones] at hz
  exact ⟨hen, hz, hs.stands k hz⟩

theorem State.DisabledRest.hears (h : s.DisabledRest) (hen : s.enabled l = true) (hs : State.Hears l s t) : t.DisabledRest :=
  h.heard hen hs.tables hs.status (fun _ _ => by rw [hs.deadlines]) hs.lines

theorem State.SlotsApart.hears (h : s.SlotsApart) (hs : State.Hears l s t) : t.SlotsApart :=
  h.congr (by rw [hs.tables]) (by rw [hs.writes])

/-- A timer that steps leaves a standing loader standing. -/
theorem State.stepTimer_steady (s : State) (l : Loader) : s.Steady (s.setAuth l s.auth[l].state.stepTimer) := by
  refine ((State.Touches.refl (c := 0) s).setAuth _).steady fun _ hs => ?_
  rw [State.Stands, State.setAuth_auth, putAt_same]
  obtain ⟨r, cause, ha⟩ := (AuthState.isStanding_iff _).mp hs
  rw [ha]
  rfl

theorem State.deadlineFalls_hears (s : State) (l : Loader) : State.Hears l s (s.deadlineFalls l) := by
  have ho : State.Hears l s (s.enterOutcome l) := by
    simp only [State.enterOutcome]
    split
    · exact .setStatus rfl
    · exact State.Hears.put rfl rfl rfl
  exact (ho.steady (State.stepTimer_steady _ l)).steady (.of_auth rfl rfl)

theorem State.linkGoesDown_hears (s : State) (l : Loader) : State.Hears l s (s.linkGoesDown l) := by
  simp only [State.linkGoesDown]
  refine State.Hears.steady ?_ (State.stand_steady _ _ _)
  exact .put rfl rfl rfl

theorem State.linkGoesUp_hears (s : State) (l : Loader) : State.Hears l s (s.linkGoesUp l) :=
  State.Hears.put rfl rfl rfl

theorem State.farEndStep_hears (s : State) (l : Loader) (b) : State.Hears l s ((s.heardStep l).farEndStep l b) := by
  have hd (u : State) : State.Hears l u (u.degradeTest l) := by
    simp only [State.degradeTest]
    repeat' split
    · exact State.Hears.put rfl rfl rfl
    · exact State.Hears.put rfl rfl rfl
    · exact .of_steady (.refl u)
  have h1 : State.Hears l s (s.heardStep l) := State.Hears.put rfl rfl rfl
  simp only [State.farEndStep]
  refine State.Hears.trans (h1.trans ?_) (hd _)
  exact .put rfl rfl rfl

theorem State.requestChanged_steady (s : State) (l : Loader) : s.Steady (s.requestChanged l) := by
  unfold State.requestChanged
  dsimp only
  have ht := State.Touches.refl (l := l) (c := 0) s
  split
  · next ha =>
    split
    · exact (ht.enterCalling _ _).steady_of_not_standing (by rw [ha]; rfl)
    · exact .refl s
  · next ha =>
    split
    · simp only [State.resort, ha]
      exact .of_auth rfl rfl
    · exact ((((ht.dequeue _).setAuth _).raise _ _ _ _).enterFree).steady_of_not_standing (by rw [ha]; rfl)
  · next ha =>
    split
    · exact .refl s
    · refine State.Touches.steady_of_not_standing (l := l) (c := 0) ?_ (by rw [ha]; rfl)
      exact State.Touches.endOffer _ _ _
        (((State.Touches.offerGone (ht.notice _ _) _ _).setAuth _).raise _ _ _ _).enterFree
  · exact .refl s

theorem State.faultReport_steady (s : State) (l : Loader) (r : Request) : s.Steady (s.faultReport l r) := by
  simp only [State.faultReport]
  split <;> exact .of_auth rfl rfl

theorem State.requestStep_hears (s : State) (l : Loader) (b) : State.Hears l s (s.requestStep l b) := by
  simp only [State.requestStep]
  have hf (f : List Request) : State.Hears l s (s.setStatus l { s.status[l] with filter := f }) := .setStatus rfl
  have hfault (u : State) (r) (h : State.Hears l s u) : State.Hears l s (u.faultReport l r) := h.steady (u.faultReport_steady l r)
  have hr (f : List Request) (r : Request) : State.Hears l s (((s.setStatus l { s.status[l] with filter := f }).setStatus l
      { (s.setStatus l { s.status[l] with filter := f }).status[l] with accepted := r }).requestChanged l) := by
    refine State.Hears.steady ((hf f).trans (.setStatus ?_)) (State.requestChanged_steady _ _)
    rfl
  split
  · split
    · exact hfault _ _ (hr _ _)
    · exact hr _ _
  · exact hf _

theorem State.modeStep_steady (s : State) (l : Loader) (b) : s.Steady (s.modeStep l b) := by
  unfold State.modeStep
  split
  · next ha =>
    split
    · exact ((((State.Touches.refl (l := l) (c := 0) s).setAuth _).raise _ _ _ _).enterFree).steady_of_not_standing
        (by rw [ha]; rfl)
    · exact .refl s
  · exact .refl s

theorem State.forwardStep_steady (s : State) (l h p) : s.Steady (s.forwardStep l h p) := by
  refine foldl_inv _ s.Steady (fun u c hu => hu.trans ?_) _ s (.refl s)
  simp only [State.forwardOne]
  split <;> exact .of_auth rfl rfl

/-- A zone entered under an active line stands the loader (R109). -/
theorem State.zoneStep_interlocks (h : s.InterlocksStand) (l : Loader) (b) : (s.zoneStep l b).InterlocksStand := by
  simp only [State.zoneStep]
  split
  · exact h
  · generalize zoneOfByte b = z
    have hother (k : Loader) (hk : k ≠ l) : (s.setStatus l { s.status[l] with zone := z }).status[k] = s.status[k] :=
      putAt_other _ _ hk.symm
    have hself : (s.setStatus l { s.status[l] with zone := z }).status[l].zone = z := by
      change (putAt s.status l _)[l].zone = z
      rw [putAt_same]
    split
    · refine h.of fun k hen hz => ?_
      by_cases hk : k = l
      · subst hk
        exact .inl (State.stand_stands _ _ _)
      · rw [State.zoneInterlocked_of_plant (s := s.setStatus l { s.status[l] with zone := z }) (by
          rw [State.plant, State.stand_rest]; rfl)] at hz
        have hst (u : State) : (u.stand l .interlock).status = u.status := congrArg Rest.status (u.stand_rest l .interlock)
        rw [hst] at hz
        change State.zoneInterlocked _ (s.setStatus l { s.status[l] with zone := z }).status[k].zone = true at hz
        rw [hother k hk] at hz
        rw [State.enabled, State.stand_tables] at hen
        refine .inr ⟨hen, hz, fun hs => ?_⟩
        rw [State.Stands, State.stand_auth_other _ _ hk]
        exact hs
    · next hni =>
      refine h.of fun k hen hz => ?_
      by_cases hk : k = l
      · subst hk
        rw [hself] at hz
        exact absurd hz hni
      · rw [hother k hk] at hz
        exact .inr ⟨hen, hz, id⟩

theorem State.zoneStep_rest (s : State) (l : Loader) (b) : (s.zoneStep l b).rest = s.rest ∨
    ∃ st, (s.zoneStep l b).rest = (s.setStatus l st).rest := by
  simp only [State.zoneStep]
  repeat' split
  · exact .inl rfl
  · exact .inr ⟨_, by rw [State.stand_rest]; rfl⟩
  · exact .inr ⟨_, rfl⟩

theorem State.DisabledRest.zoneStep (h : s.DisabledRest) (hen : s.enabled l = true) (b) : (s.zoneStep l b).DisabledRest := by
  obtain hr | ⟨st, hr⟩ := s.zoneStep_rest l b
  · exact h.same (congrArg Rest.plant hr)
  · exact h.heard hen (congrArg Rest.tables hr) (fun k hk => (congrArg (fun r => r.status[k]) hr).trans (putAt_other _ _ hk.symm))
      (fun k _ => congrArg (fun r => r.deadlines[k]) hr) (congrArg Rest.lines hr)

theorem State.SlotsApart.zoneStep (h : s.SlotsApart) (l : Loader) (b) : (s.zoneStep l b).SlotsApart := by
  obtain hr | ⟨st, hr⟩ := s.zoneStep_rest l b
  · exact h.congr (congrArg (·.tables.loaders) hr) (congrArg (·.writes.loaders) hr)
  · exact h.congr (congrArg (·.tables.loaders) hr) (congrArg (·.writes.loaders) hr)

/-! ## Lines -/

/-- But for line i, and for loaders that have come to stand, everything is as it was. -/
structure State.LineMoved (i : Line) (s t : State) : Prop where
  tables : t.tables = s.tables
  writes : t.writes = s.writes
  status : t.status = s.status
  deadlines : t.deadlines = s.deadlines
  lines : ∀ j : Line, j ≠ i → t.lines[j] = s.lines[j]
  stands : ∀ k, s.Stands k → t.Stands k

theorem State.LineMoved.refl (i : Line) (s : State) : State.LineMoved i s s :=
  ⟨rfl, rfl, rfl, rfl, fun _ _ => rfl, fun _ => id⟩

theorem State.LineMoved.trans (h : State.LineMoved i s t) (h' : State.LineMoved i t u) : State.LineMoved i s u where
  tables := h'.tables.trans h.tables
  writes := h'.writes.trans h.writes
  status := h'.status.trans h.status
  deadlines := h'.deadlines.trans h.deadlines
  lines j hj := (h'.lines j hj).trans (h.lines j hj)
  stands k hk := h'.stands k (h.stands k hk)

theorem State.setLine_moved (s : State) (i : Line) (x : LineState) : State.LineMoved i s (s.setLine i x) :=
  ⟨rfl, rfl, rfl, rfl, fun _ hj => putAt_other _ _ hj.symm, fun _ => id⟩

theorem State.LineMoved.raise (h : State.LineMoved i s t) (e l c d) : State.LineMoved i s (t.raise e l c d) :=
  ⟨h.tables, h.writes, h.status, h.deadlines, h.lines, h.stands⟩

theorem State.stand_keeps_stands (h : s.Stands l) (k : Loader) (cause : Cause) : (s.stand k cause).Stands l := by
  by_cases hk : l = k
  · subst hk
    exact State.stand_stands _ _ _
  · rwa [State.Stands, State.stand_auth_other _ _ hk]

theorem State.standAll_stands (xs : List Loader) (cause : Cause) (h : s.Stands l ∨ l ∈ xs) :
    (xs.foldl (fun s l => s.stand l cause) s).Stands l := by
  induction xs generalizing s with
  | nil => exact h.resolve_right List.not_mem_nil
  | cons x xs ih =>
    refine ih ?_
    obtain hs | hx := h
    · exact .inl (State.stand_keeps_stands hs _ _)
    · obtain rfl | hx := List.mem_cons.mp hx
      · exact .inl (State.stand_stands _ _ _)
      · exact .inr hx

theorem State.standAll_rest (s : State) (xs : List Loader) (cause : Cause) :
    (xs.foldl (fun s l => s.stand l cause) s).rest = s.rest :=
  foldl_keeps _ State.rest (fun u l => u.stand_rest l cause) xs s

theorem State.standAll_moved (s : State) (i : Line) (xs : List Loader) (cause : Cause) :
    State.LineMoved i s (xs.foldl (fun s l => s.stand l cause) s) := by
  have hr := s.standAll_rest xs cause
  exact ⟨congrArg Rest.tables hr, congrArg Rest.writes hr, congrArg Rest.status hr, congrArg Rest.deadlines hr,
    fun j _ => congrArg (fun r => r.lines[j]) hr, fun k hk => State.standAll_stands xs cause (.inl hk)⟩

/-- The enabled loaders that line i covers stand while it counts. -/
def State.LineStands (s : State) (i : Line) : Prop :=
  s.tables.lines[i].enabled = true → s.lines[i].status ≠ .clear → ∀ l : Loader, s.enabled l = true →
    (∀ z : Zone, s.status[l].zone = some z → s.tables.lines[i].zones.getLsbD z.val = true) → s.Stands l

theorem State.InterlocksStand.line (h : s.InterlocksStand) (i : Line) : s.LineStands i := fun hi hst l hen hw => h i l hi hst hen hw

/-- A line that moves keeps what the other lines require. -/
theorem State.LineMoved.interlocks (h : State.LineMoved i s t) (hs : ∀ j, j ≠ i → s.LineStands j) (ht : t.LineStands i) :
    t.InterlocksStand := by
  intro j l hj hst hen hw
  by_cases hji : j = i
  · subst hji
    exact ht hj hst l hen hw
  · rw [h.tables] at hj hw
    rw [h.lines j hji] at hst
    rw [State.enabled, h.tables] at hen
    rw [h.status] at hw
    exact h.stands l (hs j hji hj hst l hen hw)

theorem State.LineMoved.disabledRest (h : State.LineMoved i s t) (hs : s.DisabledRest)
    (hi : s.tables.lines[i].enabled = false → t.lines[i].status = .clear ∧ t.lines[i].startMark = false) : t.DisabledRest := by
  refine ⟨fun l hd => ?_, fun j hd => ?_⟩
  · rw [State.enabled, h.tables] at hd
    rw [h.status, h.deadlines]
    exact hs.1 l hd
  · rw [h.tables] at hd
    by_cases hj : j = i
    · subst hj
      exact hi hd
    · rw [h.lines j hj]
      exact hs.2 j hd

theorem State.activate_moved (s : State) (i : Line) : State.LineMoved i s (s.activate i) :=
  ((s.setLine_moved i { s.lines[i] with status := .active }).raise .interlockActive none none (lineDetail i)).trans
    (State.standAll_moved _ i _ _)

/-- A line that enters ACTIVE stands every loader it covers (R128). -/
theorem State.activate_lineStands (s : State) (i : Line) : (s.activate i).LineStands i := by
  intro _ _ l hen hw
  have hm := s.activate_moved i
  refine State.standAll_stands _ _ (.inr (List.mem_filter.mpr ⟨mem_allLoaders l, ?_⟩))
  rw [State.enabled, hm.tables] at hen
  rw [hm.tables, hm.status] at hw
  rw [State.lineReaches, Bool.and_eq_true]
  refine ⟨hen, ?_⟩
  change (match s.status[l].zone with
    | some z => inSet s.tables.lines[i].zones z.val
    | none => true) = true
  split
  · next z hz => exact hw z hz
  · rfl

theorem State.becomeSafe_moved (s : State) (i : Line) : State.LineMoved i s (s.becomeSafe i) := by
  simp only [State.becomeSafe]
  split <;> exact (s.setLine_moved i _).raise _ _ _ _

/-- A move activates the line, ends its activity, or leaves the state (R127). -/
theorem State.moveLine_cases (s : State) (i : Line) :
    s.moveLine i = s.activate i ∨ (s.lines[i].status = .active ∧ s.moveLine i = s.becomeSafe i) ∨ s.moveLine i = s := by
  unfold State.moveLine
  split
  · split
    · exact .inr (.inr rfl)
    · exact .inl rfl
  · split
    · next ha => exact .inr (.inl ⟨ha, rfl⟩)
    · exact .inr (.inr rfl)

theorem State.moveLine_moved (s : State) (i : Line) : State.LineMoved i s (s.moveLine i) := by
  obtain h | ⟨_, h⟩ | h := s.moveLine_cases i <;> rw [h]
  · exact s.activate_moved i
  · exact s.becomeSafe_moved i
  · exact .refl i s

/-- A line that its move leaves counting has stood every loader it covers, or counted before. -/
theorem State.moveLine_counts (s : State) (i : Line) (h : (s.moveLine i).lines[i].status ≠ .clear) :
    (s.moveLine i).LineStands i ∨ s.lines[i].status ≠ .clear := by
  obtain hm | ⟨ha, _⟩ | hm := s.moveLine_cases i
  · rw [hm]
    exact .inl (s.activate_lineStands i)
  · exact .inr fun hc => nomatch ha.symm.trans hc
  · rw [hm] at h
    exact .inr h

theorem State.moveLine_interlocks (h : s.InterlocksStand) (i : Line) : (s.moveLine i).InterlocksStand := by
  have hm := s.moveLine_moved i
  refine hm.interlocks (fun j _ => h.line j) fun hi hst l hen hw => ?_
  obtain hall | hst' := s.moveLine_counts i hst
  · exact hall hi hst l hen hw
  · rw [hm.tables] at hi
    rw [State.enabled, hm.tables] at hen
    rw [hm.tables, hm.status] at hw
    exact hm.stands l (h.line i hi hst' l hen hw)

theorem State.settleLine_interlocks (h : s.InterlocksStand) (i : Line) : (s.settleLine i).InterlocksStand := by
  simp only [State.settleLine]
  split
  · refine State.moveLine_interlocks ?_ i
    refine h.congr rfl (fun _ => id) (fun j hj => ?_) (fun _ => rfl) fun _ => id
    change (putAt s.lines i _)[j].status ≠ .clear at hj
    rw [putAt_get] at hj
    split at hj
    · next hij => rwa [← hij]
    · exact hj
  · exact h

theorem State.settleLine_moved (s : State) (i : Line) : State.LineMoved i s (s.settleLine i) := by
  simp only [State.settleLine]
  split
  · exact (s.setLine_moved i _).trans (State.moveLine_moved _ i)
  · exact .refl i s

theorem State.DisabledRest.settleLine (h : s.DisabledRest) (i : Line) : (s.settleLine i).DisabledRest := by
  refine (s.settleLine_moved i).disabledRest h fun hd => ?_
  rw [State.settleLine_disabled hd]
  exact h.2 i hd

theorem State.sampleLine_moved (s : State) (i : Line) (v w) : State.LineMoved i s (s.sampleLine i v w) := by
  simp only [State.sampleLine]
  split
  · exact .refl i s
  · exact s.setLine_moved i _

theorem State.sampleLine_line (s : State) (i : Line) (v w) :
    (s.sampleLine i v w).lines[i].status = s.lines[i].status ∧ (s.sampleLine i v w).lines[i].startMark = s.lines[i].startMark := by
  simp only [State.sampleLine]
  split
  · exact ⟨rfl, rfl⟩
  · simp only [State.setLine_lines, putAt_same, and_self]

theorem State.DisabledRest.sampleLine (h : s.DisabledRest) (i : Line) (v w) : (s.sampleLine i v w).DisabledRest := by
  refine (s.sampleLine_moved i v w).disabledRest h fun hd => ?_
  rw [(s.sampleLine_line i v w).1, (s.sampleLine_line i v w).2]
  exact h.2 i hd

theorem State.InterlocksStand.sampleLine (h : s.InterlocksStand) (i : Line) (v w) : (s.sampleLine i v w).InterlocksStand := by
  have hm := s.sampleLine_moved i v w
  refine hm.interlocks (fun j _ => h.line j) fun hi hst l hen hw => ?_
  rw [hm.tables] at hi
  rw [(s.sampleLine_line i v w).1] at hst
  rw [State.enabled, hm.tables] at hen
  rw [hm.tables, hm.status] at hw
  exact hm.stands l (h.line i hi hst l hen hw)

/-- An acknowledged line is CLEAR (R130). -/
theorem State.acknowledge_moved (s : State) (i : Line) (by_) : State.LineMoved i s (s.acknowledge i by_) :=
  (s.setLine_moved i { s.lines[i] with status := .clear }).raise _ _ _ _

theorem State.acknowledge_status (s : State) (i : Line) (by_) : (s.acknowledge i by_).lines[i].status = .clear := by
  change (putAt s.lines i _)[i].status = .clear
  rw [putAt_same]

theorem State.DisabledRest.acknowledge (h : s.DisabledRest) (i : Line) (by_) : (s.acknowledge i by_).DisabledRest := by
  refine (s.acknowledge_moved i by_).disabledRest h fun hd => ⟨s.acknowledge_status i by_, ?_⟩
  change (putAt s.lines i _)[i].startMark = false
  rw [putAt_same]
  exact (h.2 i hd).2

theorem State.InterlocksStand.acknowledge (h : s.InterlocksStand) (i : Line) (by_) : (s.acknowledge i by_).InterlocksStand :=
  (s.acknowledge_moved i by_).interlocks (fun j _ => h.line j) fun _ hst => absurd (s.acknowledge_status i by_) hst

end

end Sys2Proof.Machine
end

section
/-! Every step keeps enabled entries off each other's slots, what is disabled at rest and the loaders under an active line
STANDING, and the records in agreement. -/

namespace Sys2Proof.Machine

open Sys2Proof

/-- From s to t, each of the four conditions is kept; the last where the records agree. -/
structure State.Keeps (s t : State) : Prop where
  agree : s.RecordsAgree → t.RecordsAgree
  apart : s.SlotsApart → t.SlotsApart
  rest : s.DisabledRest → t.DisabledRest
  stand : s.RecordsAgree → s.InterlocksStand → t.InterlocksStand

section
variable {s t u : State} {l : Loader} {i : Line}

namespace State.Keeps

theorem refl (s : State) : s.Keeps s := ⟨id, id, id, fun _ => id⟩

theorem trans (h : s.Keeps t) (h' : t.Keeps u) : s.Keeps u where
  agree := h'.agree ∘ h.agree
  apart := h'.apart ∘ h.apart
  rest := h'.rest ∘ h.rest
  stand ha hs := h'.stand (h.agree ha) (h.stand ha hs)

theorem of_steady (ha : s.RecordsAgree → t.RecordsAgree) (h : s.Steady t) : s.Keeps t where
  agree := ha
  apart hs := hs.steady h
  rest hs := hs.steady h
  stand _ hs := hs.steady h

/-- The plant and the records of authority are as they were. -/
theorem of_plant (ha : s.RecordsAgree → t.RecordsAgree) (hp : t.plant = s.plant) (hh : t.auth = s.auth) :
    s.Keeps t := of_steady ha (.of_auth hp hh)

/-- A row about an enabled loader's record of the Status Unit. -/
theorem of_hears (ha : s.RecordsAgree → t.RecordsAgree) (hen : s.enabled l = true) (h : State.Hears l s t) : s.Keeps t where
  agree := ha
  apart hs := hs.hears h
  rest hs := hs.hears hen h
  stand _ hs := hs.hears h

end State.Keeps

/-! ## The Status Unit's rows -/

theorem State.deadline_keeps (s : State) (l : Loader) : s.Keeps (s.deadline l) := by
  cases hen : s.enabled l with
  | false =>
    rw [State.deadline, hen]
    exact .refl s
  | true =>
    refine .of_hears (fun h => h.deadline l) hen ?_
    rw [State.deadline, hen]
    exact s.deadlineFalls_hears l

theorem State.linkDownTest_keeps (s : State) (l : Loader) : s.Keeps (s.linkDownTest l) := by
  cases hen : s.enabled l with
  | false =>
    rw [State.linkDownTest, hen]
    exact .refl s
  | true =>
    refine .of_hears (fun h => h.linkDownTest l) hen ?_
    rw [State.linkDownTest, hen]
    exact s.linkGoesDown_hears l

theorem State.linkUpTest_keeps (s : State) (l : Loader) : s.Keeps (s.linkUpTest l) := by
  cases hen : s.enabled l with
  | false =>
    rw [State.linkUpTest, hen]
    exact .refl s
  | true =>
    refine .of_hears (fun h => h.linkUpTest l) hen ?_
    rw [State.linkUpTest, hen]
    exact s.linkGoesUp_hears l

theorem State.putDeadline_keeps (hen : s.enabled l = true) (d : Option Deadline) :
    s.Keeps { s with deadlines := putAt s.deadlines l d } where
  agree h := h.same rfl
  apart h := h.same rfl
  rest h := h.heard hen rfl (fun _ _ => rfl) (fun _ hk => putAt_other _ _ hk.symm) rfl
  stand _ h := h.kept rfl

theorem State.dropDeadline_keeps (s : State) (l : Loader) : s.Keeps { s with deadlines := putAt s.deadlines l none } where
  agree h := h.same rfl
  apart h := h.same rfl
  rest h := by
    refine ⟨fun k hk => ⟨(h.1 k hk).1, ?_⟩, h.2⟩
    change (putAt s.deadlines l none)[k] = none
    rw [putAt_get]
    split
    · rfl
    · exact (h.1 k hk).2
  stand _ h := h.kept rfl

theorem State.pendingDeadline_keeps (s : State) (f : DeadlineFall) : s.Keeps (s.pendingDeadline f) := by
  unfold State.pendingDeadline
  split
  · next n _ =>
    have hseek (u : State) : u.Keeps (u.seek n) := .of_plant (fun h => h.same rfl) rfl rfl
    exact ((s.dropDeadline_keeps f.loader).trans (hseek _)).trans (State.deadline_keeps _ _)
  · exact .refl s

theorem State.zoneStep_keeps (hen : s.enabled l = true) (b : Byte) : s.Keeps (s.zoneStep l b) where
  agree h := h.zoneStep l b
  apart h := h.zoneStep l b
  rest h := h.zoneStep hen b
  stand _ h := State.zoneStep_interlocks h l b

theorem State.walkIfCalled_keeps (s : State) : s.Keeps s.walkIfCalled where
  agree h := h.walkIfCalled
  apart h := h.congr (congrArg (·.tables.loaders) s.walkIfCalled_rest) (congrArg (·.writes.loaders) s.walkIfCalled_rest)
  rest h := h.same (congrArg Rest.plant s.walkIfCalled_rest)
  stand ha h := h.steady ha.walkIfCalled_steady

theorem State.statusFrame_keeps (s : State) (l : Loader) (h : Header) (p : StatusPayload) : s.Keeps (s.statusFrame l h p) := by
  cases hen : s.enabled l with
  | false =>
    simp only [State.statusFrame, hen, Bool.not_false, if_true]
    exact .refl s
  | true =>
    simp only [State.statusFrame, hen, Bool.not_true, Bool.false_eq_true, if_false]
    have h1 := s.farEndStep_hears l p.farEnd
    have hen1 : ((s.heardStep l).farEndStep l p.farEnd).enabled l = true := by
      rw [State.enabled, h1.tables]
      exact hen
    have hen2 : (((s.heardStep l).farEndStep l p.farEnd).zoneStep l p.zone).enabled l = true := by
      rw [State.enabled, State.zoneStep_tables]
      exact hen1
    have k1 : s.Keeps ((s.heardStep l).farEndStep l p.farEnd) :=
      .of_hears (fun ha => (ha.heardStep l).farEndStep l _) hen h1
    have k3 := State.Keeps.of_hears (fun ha => ha.requestStep hen2 p.request) hen2 (State.requestStep_hears _ l p.request)
    have k4 := State.Keeps.of_steady (fun ha => ha.modeStep l p.mode) (State.modeStep_steady
      ((((s.heardStep l).farEndStep l p.farEnd).zoneStep l p.zone).requestStep l p.request) l p.mode)
    exact ((((k1.trans (State.zoneStep_keeps hen1 _)).trans k3).trans k4).trans (State.walkIfCalled_keeps _)).trans
      (.of_steady (fun ha => ha.forwardStep l h p) (State.forwardStep_steady _ l h p))

/-! ## Slots -/

theorem State.setBuilder_steady (s : State) (l : Loader) (b : Builder) : s.Steady (s.setBuilder l b) := .of_auth rfl rfl

theorem State.sendFrame_steady (s : State) (l : Loader) (k : FrameKind) (o : Output) : s.Steady (s.sendFrame l k o) := by
  cases k with
  | synthesized hold => cases hold <;> exact .of_auth rfl rfl
  | neutral r => exact .of_auth rfl rfl
  | stand cause => exact .of_auth rfl rfl

theorem State.sendIdle_steady (s : State) (l : Loader) (k : FrameKind) : s.Steady (s.sendIdle l k) :=
  (s.setBuilder_steady l _).trans (State.sendFrame_steady _ l k .neutral)

theorem State.slotDriven_steady (s : State) (l : Loader) : s.Steady (s.slotDriven l) := by
  simp only [State.slotDriven]
  split
  · exact (s.standEntry_steady l .stale).trans (State.sendIdle_steady _ l _)
  · exact (s.setBuilder_steady l _).trans (State.sendFrame_steady _ l _ _)

theorem State.slotFrame_steady (s : State) (l : Loader) : s.Steady (s.slotFrame l) := by
  unfold State.slotFrame
  split
  all_goals first
    | exact .refl s
    | exact State.sendIdle_steady _ _ _
    | exact State.slotDriven_steady _ _

theorem State.slotOf_keeps (hen : s.enabled l = true) (n : Nat) : s.Keeps (s.slotOf l n) := by
  have h1 : s.Keeps (s.slotFrame l) := .of_steady (fun h => h.slotFrame hen) (s.slotFrame_steady l)
  have hen1 : (s.slotFrame l).enabled l = true := by
    rw [State.enabled, State.tables_of_plant (s.slotFrame_steady l).plant]
    exact hen
  simp only [State.slotOf]
  split
  · exact (h1.trans (t := s.slotFrame l) (u := { s.slotFrame l with due := (s.slotFrame l).due ++ [.statusDeadline l] })
      (.of_plant (fun h => h.same rfl) rfl rfl)).trans (State.putDeadline_keeps
        (s := { s.slotFrame l with due := (s.slotFrame l).due ++ [.statusDeadline l] }) hen1 _)
  · exact h1.trans (State.putDeadline_keeps hen1 _)

theorem State.seek_keeps (s : State) (n : Nat) : s.Keeps (s.seek n) := .of_plant (fun h => h.same rfl) rfl rfl

theorem State.slotAt_keeps (s : State) (p : LevelPort) (k : SlotTime) : s.Keeps (s.slotAt p k) := by
  simp only [State.slotAt]
  split
  · next l hl =>
    have hen : (s.seek (s.timer.slotInstant k)).enabled l = true := by
      have hf := List.find?_some hl
      rw [Bool.and_eq_true, Bool.and_eq_true] at hf
      exact hf.1.1
    exact (s.seek_keeps _).trans (State.slotOf_keeps hen _)
  · exact s.seek_keeps _

theorem State.staleSlot_keeps (s : State) (x : LoaderSlot) : s.Keeps (s.staleSlot x) := by
  simp only [State.staleSlot]
  split
  · next h =>
    simp only [Bool.and_eq_true] at h
    obtain ⟨⟨⟨hen, _⟩, _⟩, _⟩ := h
    exact (s.seek_keeps _).trans (State.slotOf_keeps (s := s.seek (s.timer.slotInstant x.slot)) hen _)
  · exact .refl s

/-! ## Lines -/

theorem State.settleLine_keeps (s : State) (i : Line) : s.Keeps (s.settleLine i) where
  agree h := h.settleLine i
  apart h := h.congr (by rw [(s.settleLine_moved i).tables]) (by rw [(s.settleLine_moved i).writes])
  rest h := h.settleLine i
  stand _ h := State.settleLine_interlocks h i

theorem State.sampleLine_keeps (s : State) (i : Line) (v : Level) (w : Word16) : s.Keeps (s.sampleLine i v w) where
  agree h := by
    simp only [State.sampleLine]
    split <;> exact h.same rfl
  apart h := h.congr (by rw [(s.sampleLine_moved i v w).tables]) (by rw [(s.sampleLine_moved i v w).writes])
  rest h := h.sampleLine i v w
  stand _ h := h.sampleLine i v w

theorem State.sampleAhead_keeps (s : State) (i : Line) (v : Level) : s.Keeps (s.sampleAhead i v) := by
  have ht : s.Keeps { s with timer := s.timer.toStep } := .of_plant (fun h => h.same rfl) rfl rfl
  exact ht.trans (State.sampleLine_keeps _ i v _)

theorem State.acknowledge_keeps (s : State) (i : Line) (c : Option Chair) : s.Keeps (s.acknowledge i c) where
  agree h := h.same rfl
  apart h := h.same rfl
  rest h := h.acknowledge i c
  stand _ h := h.acknowledge i c

/-! ## The start and the authority reset -/

theorem State.disabledRest_of_start (hst : ∀ l : Loader, s.status[l] = .initial) (hdl : ∀ l : Loader, s.deadlines[l] = none)
    (hl : ∀ i : Line, ∃ v, s.lines[i] = .initial s.tables.lines[i] v) : s.DisabledRest := by
  refine ⟨fun l _ => ⟨hst l, hdl l⟩, fun i hd => ?_⟩
  obtain ⟨v, hv⟩ := hl i
  rw [hv]
  simp [-Fin.getElem_fin, LineState.initial, hd]

/-- Every loader STANDING, no line can ask more. -/
theorem State.interlocksStand_of_standing (h : ∀ l, s.Stands l) : s.InterlocksStand := fun _ l _ _ _ _ => h l

theorem State.powerOnValues_plant (t : Tables) (b c p g) :
    (State.powerOnValues t b c p g).DisabledRest ∧ (State.powerOnValues t b c p g).InterlocksStand := by
  refine ⟨State.disabledRest_of_start (fun l => ?_) (fun l => ?_) fun i => ⟨p[i], tabulate_get _ _⟩,
    State.interlocksStand_of_standing fun l => ?_⟩
  · exact Vector.getElem_replicate _
  · exact Vector.getElem_replicate _
  · change (mapAll AuthRecord.initial t.loaders)[l].state.isStanding = true
    rw [mapAll_get]
    rfl

theorem State.slotsApart_of_distinct (h : loadersDistinct s.tables.loaders = true) (hw : s.writes = .none) : s.SlotsApart := by
  have hone (i : Loader) : s.loaderEntries i = [s.tables.loaders[i]] := by
    have hn : s.writes.loaders[i] = none := by
      rw [hw]
      exact Vector.getElem_replicate _
    rw [State.loaderEntries, hn]
    rfl
  intro i j hij a ha b hb
  rw [hone, List.mem_singleton] at ha hb
  have hd := List.all_eq_true.mp (List.all_eq_true.mp h i (mem_allLoaders i)) j (mem_allLoaders j)
  rw [ha, hb]
  simpa [-Fin.getElem_fin, hij] using hd

theorem empty_distinct : loadersDistinct Tables.empty.loaders = true := by decide +kernel

theorem judgeImage_distinct {read : MemoryRead} {t : Tables} (h : judgeImage read = .inl t) : loadersDistinct t.loaders = true := by
  have ho {image : List Byte} {t : Tables} (h : Tables.ofImage image = some t) : loadersDistinct t.loaders = true := by
    unfold Tables.ofImage at h
    split at h
    · split at h
      · next hd =>
        injection h with h
        rw [← h]
        exact hd
      · exact nomatch h
    · exact nomatch h
  unfold judgeImage at h
  split at h
  · exact nomatch h
  · dsimp only at h
    repeat' split at h
    · exact nomatch h
    · exact nomatch h
    · exact nomatch h
    · next hi =>
      injection h with h
      rw [← h]
      exact ho hi
    · exact nomatch h

theorem State.powerOn_keeps (s : State) (b : Bool) : s.Keeps (s.powerOn b) := by
  obtain ⟨hr, hi⟩ := State.powerOnValues_plant .empty false ⟨.loading, b⟩ s.linePins s.portSignal
  exact ⟨fun _ => .powerOn s b, fun _ => State.slotsApart_of_distinct empty_distinct rfl, fun _ => hr.same rfl, fun _ _ => hi.kept rfl⟩

theorem State.loadEnd_keeps (s : State) (read : MemoryRead) : s.Keeps (s.loadEnd read) := by
  have hs (t com) (ht : loadersDistinct t.loaders = true) : (s.startFrom t com).SlotsApart ∧ (s.startFrom t com).DisabledRest ∧
      (s.startFrom t com).InterlocksStand := by
    obtain ⟨hr, hi⟩ := State.powerOnValues_plant t com ⟨.idle, s.config.cfgoff⟩ s.linePins s.portSignal
    exact ⟨State.slotsApart_of_distinct ht rfl, (hr.same rfl), hi.kept rfl⟩
  have hall : (s.loadEnd read).SlotsApart ∧ (s.loadEnd read).DisabledRest ∧ (s.loadEnd read).InterlocksStand := by
    simp only [State.loadEnd]
    split
    · exact hs _ _ empty_distinct
    · split
      · next hj => exact hs _ _ (judgeImage_distinct hj)
      · obtain ⟨ha, hr, hi⟩ := hs .empty true empty_distinct
        exact ⟨(ha.same rfl), (hr.same rfl), hi.kept rfl⟩
  obtain ⟨ha, hr, hi⟩ := hall
  exact ⟨fun _ => .loadEnd s read, fun _ => ha, fun _ => hr, fun _ _ => hi⟩

theorem State.authorityReset_keeps (s : State) : s.Keeps s.authorityReset where
  agree h := h.authorityReset
  apart h := h.same rfl
  rest h := h.same rfl
  stand _ h := by
    refine h.congr rfl (fun _ => id) (fun _ => id) (fun _ => rfl) fun l hs => ?_
    have ha : s.authorityReset.auth[l] = s.auth[l].afterReset (s.enabled l) := tabulate_get _ _
    rw [State.Stands, ha]
    unfold AuthRecord.afterReset
    split
    · rfl
    · exact hs

end

end Sys2Proof.Machine
end

section
/-! The applications of a boundary keep these conditions, and with them every row and every step does. -/

namespace Sys2Proof.Machine

open Sys2Proof

section
variable {s t u : State} {l : Loader} {i : Line}

/-! ## LINES entries (R133) -/

/-- A loader in a widened zone set stood before under the old one, or is brought under. -/
theorem State.covered_old_or_brought {old : LineEntry} (hen : s.enabled l = true)
    (hw : ∀ z : Zone, s.status[l].zone = some z → s.tables.lines[i].zones.getLsbD z.val = true) :
    (∀ z : Zone, s.status[l].zone = some z → old.zones.getLsbD z.val = true) ∨ s.broughtUnder old i l = true := by
  cases hz : s.status[l].zone with
  | none => exact .inl fun _ h => nomatch h
  | some z =>
    cases ho : old.zones.getLsbD z.val with
    | true =>
      refine .inl fun w hzw => ?_
      cases hzw
      exact ho
    | false =>
      refine .inr ?_
      have hnew := hw z hz
      simp only [State.broughtUnder, hen, hz, inSet, hnew, ho, Bool.not_false, Bool.and_self]

theorem State.widenLine_moved (s : State) (old : LineEntry) (i : Line) : State.LineMoved i s (s.widenLine old i) := by
  simp only [State.widenLine]
  split
  · exact .refl i s
  · exact s.standAll_moved i _ _

theorem State.widenLine_line (s : State) (old : LineEntry) (i j : Line) : (s.widenLine old i).lines[j] = s.lines[j] := by
  simp only [State.widenLine]
  split
  · rfl
  · exact congrArg (fun r => r.lines[j]) (s.standAll_rest _ _)

/-- A line that counts and has stood whom it covered before it was widened stands whom it covers (R133). -/
theorem State.widenLine_lineStands {old : LineEntry}
    (hold : s.lines[i].status ≠ .clear → s.LineStands i ∨ ∀ l : Loader, s.enabled l = true →
      (∀ z : Zone, s.status[l].zone = some z → old.zones.getLsbD z.val = true) → s.Stands l) :
    (s.widenLine old i).LineStands i := by
  have hm := s.widenLine_moved old i
  intro hi hst l hen hw
  rw [s.widenLine_line] at hst
  rw [State.enabled, hm.tables] at hen
  rw [hm.tables] at hi
  rw [hm.tables, hm.status] at hw
  obtain hall | hold := hold hst
  · exact hm.stands l (hall hi hst l hen hw)
  · obtain ho | hb := State.covered_old_or_brought (old := old) hen hw
    · exact hm.stands l (hold l hen ho)
    · simp only [State.widenLine, hst, if_false]
      exact State.standAll_stands _ _ (.inr (List.mem_filter.mpr ⟨mem_allLoaders l, hb⟩))

theorem State.beginLine_moved (s : State) (i : Line) : State.LineMoved i s (s.beginLine i) :=
  (s.setLine_moved i _).trans (State.activate_moved _ i)

theorem State.endLine_moved (s : State) (i : Line) : State.LineMoved i s (s.endLine i) := s.setLine_moved i _

theorem State.endLine_line (s : State) (i : Line) :
    (s.endLine i).lines[i].status = .clear ∧ (s.endLine i).lines[i].startMark = false := by
  simp only [State.endLine, State.setLine_lines, putAt_same, and_self]

/-- The state with the line's new entry. -/
def State.withLine (s : State) (i : Line) (e : LineEntry) : State :=
  { s with tables := { s.tables with lines := putAt s.tables.lines i e } }

theorem State.withLine_entry (s : State) (i : Line) (e) : (s.withLine i e).tables.lines[i] = e := putAt_same _ _ _

theorem State.withLine_other {j : Line} (h : j ≠ i) (s : State) (e) : (s.withLine i e).tables.lines[j] = s.tables.lines[j] :=
  putAt_other _ _ h.symm

theorem State.applyLine_disabled {e : LineEntry} (h : e.enabled = false) (s : State) (i : Line) :
    s.applyLine i e = if s.tables.lines[i].enabled then (s.withLine i e).endLine i else s.withLine i e := by
  simp only [State.applyLine, h]
  rfl

theorem State.applyLine_enable {e : LineEntry} (h : e.enabled = true) (ho : s.tables.lines[i].enabled = false) :
    s.applyLine i e = (s.withLine i e).beginLine i := by
  simp only [State.applyLine, h, ho]
  rfl

theorem State.applyLine_changed {e : LineEntry} (h : e.enabled = true) (ho : s.tables.lines[i].enabled = true) :
    s.applyLine i e = ((s.withLine i e).moveLine i).widenLine s.tables.lines[i] i := by
  simp only [State.applyLine, h, ho]
  rfl

/-- What an applied LINES entry does besides its entry is a move of its line. -/
theorem State.applyLine_moved (s : State) (i : Line) (e) : State.LineMoved i (s.withLine i e) (s.applyLine i e) := by
  cases he : e.enabled with
  | false =>
    rw [State.applyLine_disabled he]
    split
    · exact State.endLine_moved _ i
    · exact .refl i _
  | true =>
    cases ho : s.tables.lines[i].enabled with
    | false =>
      rw [State.applyLine_enable he ho]
      exact State.beginLine_moved _ i
    | true =>
      rw [State.applyLine_changed he ho]
      exact (State.moveLine_moved _ i).trans (State.widenLine_moved _ _ i)

/-- The other lines' entries are as they were, and they cover whom they covered. -/
theorem State.InterlocksStand.others (h : s.InterlocksStand) (i : Line) (e) (j : Line) (hj : j ≠ i) :
    (s.withLine i e).LineStands j := by
  intro hen hst l hl hw
  rw [State.withLine_other hj] at hen hw
  exact h j l hen hst hl hw

theorem State.applyLine_stands (h : s.InterlocksStand) (i : Line) (e : LineEntry) : (s.applyLine i e).LineStands i := by
  cases he : e.enabled with
  | false =>
    intro hen
    rw [(s.applyLine_moved i e).tables, State.withLine_entry, he] at hen
    exact nomatch hen
  | true =>
    cases ho : s.tables.lines[i].enabled with
    | false =>
      rw [State.applyLine_enable he ho]
      exact State.activate_lineStands _ i
    | true =>
      rw [State.applyLine_changed he ho]
      refine State.widenLine_lineStands fun hst => ?_
      have hm := (s.withLine i e).moveLine_moved i
      obtain hall | hst' := (s.withLine i e).moveLine_counts i hst
      · exact .inl hall
      · refine .inr fun l hen hz => ?_
        rw [State.enabled, hm.tables] at hen
        rw [hm.status] at hz
        exact hm.stands l (h i l ho hst' hen hz)

theorem State.applyLine_keeps (s : State) (i : Line) (e : LineEntry) : s.Keeps (s.applyLine i e) where
  agree h := h.applyLine i e
  apart h := h.congr (by rw [(s.applyLine_moved i e).tables]; rfl) (by rw [(s.applyLine_moved i e).writes]; rfl)
  rest h := by
    have hm := s.applyLine_moved i e
    have hself : e.enabled = false → (s.applyLine i e).lines[i].status = .clear ∧ (s.applyLine i e).lines[i].startMark = false := by
      intro he
      rw [State.applyLine_disabled he]
      split
      · exact State.endLine_line _ i
      · next ho => exact h.2 i (Bool.not_eq_true _ ▸ ho)
    refine ⟨fun l hd => ?_, fun j hd => ?_⟩
    · rw [State.enabled, hm.tables] at hd
      rw [hm.status, hm.deadlines]
      exact h.1 l hd
    · by_cases hj : j = i
      · subst hj
        rw [hm.tables, State.withLine_entry] at hd
        exact hself hd
      · rw [hm.tables, State.withLine_other hj] at hd
        rw [hm.lines j hj]
        exact h.2 j hd
  stand _ h := (s.applyLine_moved i e).interlocks (h.others i e) (s.applyLine_stands h i e)

/-! ## DEVICE and CHAIRS entries (R62, R113, R41, R167) -/

theorem State.applyDevice_keeps (s : State) (e : DeviceEntry) : s.Keeps (s.applyDevice e) where
  agree h := h.applyDevice e
  apart h := h.same rfl
  rest h := by
    refine ⟨fun l hd => ?_, h.2⟩
    obtain ⟨hst, hdl⟩ := h.1 l hd
    constructor
    · simp only [State.applyDevice, mapAll_get, hst]
      simp [newest]
    · simp only [State.applyDevice, mapAll_get, hdl]
      rfl
  stand _ h := by
    refine h.congr rfl (fun _ => id) (fun _ => id) (fun l => ?_) fun _ => id
    simp only [State.applyDevice, mapAll_get]

theorem State.narrowPermits_steady (s : State) (c : Chair) : s.Steady (s.narrowPermits c) := by
  unfold State.narrowPermits
  repeat' split
  · exact .refl s
  · exact .refl s
  · exact s.permitEnds_steady c _

theorem State.applyChair_keeps (s : State) (c : Chair) (e : ChairEntry) : s.Keeps (s.applyChair c e) := by
  have htrim (u : State) (set : Word16) : u.Steady ((u.trimViews c set).callWalk) := .of_auth rfl rfl
  have hst : State.Steady { s with tables := { s.tables with chairs := putAt s.tables.chairs c e } } (s.applyChair c e) := by
    simp only [State.applyChair]
    refine State.Steady.trans ?_ (htrim _ _)
    split
    · exact State.becomeAbsent_steady _ _ _
    · split
      · exact State.becomeAbsent_steady _ _ _
      · exact State.narrowPermits_steady _ _
  exact {
    agree := fun h => h.applyChair c e
    apart := fun h => State.SlotsApart.steady (s := { s with tables := { s.tables with chairs := putAt s.tables.chairs c e } }) (h.same rfl) hst
    rest := fun h => State.DisabledRest.steady (s := { s with tables := { s.tables with chairs := putAt s.tables.chairs c e } })
      (h.of (fun _ hd => ⟨hd, rfl, rfl⟩) fun _ hd => ⟨hd, id, id⟩) hst
    stand := fun _ h => State.InterlocksStand.steady (s := { s with tables := { s.tables with chairs := putAt s.tables.chairs c e } }) (h.kept rfl) hst }

/-! ## LOADERS entries (R12, R48, R103) -/

/-- A disabled loader stands, with its record of the Status Unit at rest and no deadline; the others are as they were. -/
theorem State.disableLoader_eq (s : State) (l : Loader) : ∃ v, State.Touches l 0 s v ∧ v.Stands l ∧
    s.disableLoader l = { v.setStatus l .initial with deadlines := putAt v.deadlines l none } := by
  have ht := State.Touches.refl (l := l) (c := 0) s
  unfold State.disableLoader
  split
  · refine ⟨_, ?_, ?_, rfl⟩
    · simp only [State.disableStanding]
      split
      · exact (ht.setAuth _).reportStand _ _ _
      · exact (ht.dropRetained.setAuth _).reportStand _ _ _
    · simp only [State.Stands, State.disableStanding, State.reportStand_auth, State.setAuth_auth, putAt_same]
      rfl
  · exact ⟨_, ht.standEntry _, s.standEntry_stands l .disabled, rfl⟩

/-- The state with the loader's new entry. -/
def State.withLoader (s : State) (l : Loader) (e : LoaderEntry) : State :=
  { s with tables := { s.tables with loaders := putAt s.tables.loaders l e } }

theorem State.withLoader_entry (s : State) (l : Loader) (e) : (s.withLoader l e).tables.loaders[l] = e := putAt_same _ _ _

theorem State.withLoader_other {k : Loader} (h : k ≠ l) (s : State) (e) :
    (s.withLoader l e).tables.loaders[k] = s.tables.loaders[k] := putAt_other _ _ h.symm

/-- The loader's block acts on a change of its enabled flag. -/
def State.switchLoader (s : State) (old : Bool) (e : LoaderEntry) (l : Loader) : State :=
  if old = true ∧ (!e.enabled) = true then s.disableLoader l
  else if (!old) = true ∧ e.enabled = true then s.enableLoader l
  else s

theorem State.switchLoader_disable {e : LoaderEntry} (he : e.enabled = false) (s : State) (l : Loader) :
    s.switchLoader true e l = s.disableLoader l := by
  rw [State.switchLoader, he]
  rfl

theorem State.switchLoader_enable {e : LoaderEntry} (he : e.enabled = true) (s : State) (l : Loader) :
    s.switchLoader false e l = s.enableLoader l := by
  rw [State.switchLoader, he]
  rfl

theorem State.switchLoader_same (e : LoaderEntry) (s : State) (l : Loader) : s.switchLoader e.enabled e l = s := by
  rw [State.switchLoader]
  cases e.enabled <;> rfl

theorem State.applyLoader_eq (s : State) (l : Loader) (e : LoaderEntry) :
    s.applyLoader l e =
      (if e.priority = s.tables.loaders[l].priority then (s.withLoader l e).switchLoader s.tables.loaders[l].enabled e l
        else ((s.withLoader l e).switchLoader s.tables.loaders[l].enabled e l).resort l).callWalk := by
  simp only [State.applyLoader, State.switchLoader, State.withLoader]

theorem State.resort_auth (s : State) (l : Loader) : (s.resort l).auth = s.auth := by
  unfold State.resort
  split <;> rfl

/-- Re-sorting the queue for a new class is all else that an applied LOADERS entry does. -/
theorem State.switchLoader_applies (s : State) (l : Loader) (e : LoaderEntry) :
    (s.applyLoader l e).rest = ((s.withLoader l e).switchLoader s.tables.loaders[l].enabled e l).rest ∧
      (s.applyLoader l e).auth = ((s.withLoader l e).switchLoader s.tables.loaders[l].enabled e l).auth := by
  rw [State.applyLoader_eq]
  split
  · exact ⟨rfl, rfl⟩
  · exact ⟨State.resort_rest _ _, State.resort_auth _ _⟩

/-- What a change of the enabled flag does beyond the loader's own record. -/
structure State.Switched (l : Loader) (s t : State) : Prop where
  tables : t.tables = s.tables
  writes : t.writes = s.writes
  lines : t.lines = s.lines
  status : ∀ k : Loader, k ≠ l → t.status[k] = s.status[k]
  deadlines : ∀ k : Loader, k ≠ l → t.deadlines[k] = s.deadlines[k]
  auth : ∀ k : Loader, k ≠ l → t.auth[k] = s.auth[k]

theorem State.disableLoader_switched (s : State) (l : Loader) : State.Switched l s (s.disableLoader l) := by
  obtain ⟨v, hv, _, he⟩ := s.disableLoader_eq l
  rw [he]
  exact ⟨congrArg Rest.tables hv.rest, congrArg Rest.writes hv.rest, congrArg Rest.lines hv.rest,
    fun k hk => (putAt_other _ _ hk.symm).trans (congrArg (fun r => r.status[k]) hv.rest),
    fun k hk => (putAt_other _ _ hk.symm).trans (congrArg (fun r => r.deadlines[k]) hv.rest), hv.auth⟩

theorem State.enableLoader_cases (s : State) (l : Loader) :
    s.enableLoader l = s ∨ s.enableLoader l = s.setAuth l (.standing none .start) := by
  unfold State.enableLoader
  split
  · exact .inr rfl
  · exact .inl rfl

theorem State.enableLoader_switched (s : State) (l : Loader) : State.Switched l s (s.enableLoader l) := by
  obtain h | h := s.enableLoader_cases l <;> rw [h]
  · exact ⟨rfl, rfl, rfl, fun _ _ => rfl, fun _ _ => rfl, fun _ _ => rfl⟩
  · exact ⟨rfl, rfl, rfl, fun _ _ => rfl, fun _ _ => rfl, fun _ hk => putAt_other _ _ hk.symm⟩

theorem State.enableLoader_keeps_stands (h : s.Stands l) : (s.enableLoader l).Stands l := by
  obtain he | he := s.enableLoader_cases l <;> rw [he]
  · exact h
  · rw [State.Stands, State.setAuth_auth, putAt_same]
    rfl

theorem State.switchLoader_switched (s : State) (old : Bool) (e : LoaderEntry) (l : Loader) :
    State.Switched l s (s.switchLoader old e l) := by
  simp only [State.switchLoader]
  repeat' split
  · exact s.disableLoader_switched l
  · exact s.enableLoader_switched l
  · exact ⟨rfl, rfl, rfl, fun _ _ => rfl, fun _ _ => rfl, fun _ _ => rfl⟩

/-- An applied entry is one the loader had pending, so that no new pair of slots comes together. -/
theorem State.applyLoader_apart (h : s.SlotsApart) {e : LoaderEntry} (he : s.writes.loaders[l] = some e) :
    (State.applyLoader { s with writes := s.writes.clear (.loader l) } l e).SlotsApart := by
  generalize hu : ({ s with writes := s.writes.clear (.loader l) } : State) = u
  have hut : u.tables = s.tables := by rw [← hu]
  have huw : u.writes = s.writes.clear (.loader l) := by rw [← hu]
  obtain ⟨hr, -⟩ := u.switchLoader_applies l e
  have hs := (u.withLoader l e).switchLoader_switched u.tables.loaders[l].enabled e l
  have ht : (u.applyLoader l e).tables = (u.withLoader l e).tables := (congrArg Rest.tables hr).trans hs.tables
  have hw : (u.applyLoader l e).writes = s.writes.clear (.loader l) := ((congrArg Rest.writes hr).trans hs.writes).trans huw
  refine h.of_fewer fun k a ha => ?_
  rw [State.loaderEntries, ht, hw] at ha
  obtain rfl | ha := List.mem_cons.mp ha
  · by_cases hk : k = l
    · subst hk
      rw [State.withLoader_entry]
      exact List.mem_cons.mpr (.inr (Option.mem_toList.mpr he))
    · rw [State.withLoader_other hk, hut]
      exact List.mem_cons_self
  · rw [Option.mem_toList] at ha
    change (putAt s.writes.loaders l none)[k] = some a at ha
    rw [putAt_get] at ha
    split at ha
    · exact nomatch ha
    · exact List.mem_cons.mpr (.inr (Option.mem_toList.mpr ha))

theorem State.applyLoader_rest (h : s.DisabledRest) (l : Loader) (e : LoaderEntry) : (s.applyLoader l e).DisabledRest := by
  obtain ⟨hr, -⟩ := s.switchLoader_applies l e
  have hs := (s.withLoader l e).switchLoader_switched s.tables.loaders[l].enabled e l
  have ht : (s.applyLoader l e).tables = (s.withLoader l e).tables := (congrArg Rest.tables hr).trans hs.tables
  have hself : e.enabled = false → (s.applyLoader l e).status[l] = .initial ∧ (s.applyLoader l e).deadlines[l] = none := by
    intro he
    rw [show (s.applyLoader l e).status = _ from congrArg Rest.status hr,
      show (s.applyLoader l e).deadlines = _ from congrArg Rest.deadlines hr]
    cases ho : s.tables.loaders[l].enabled with
    | true =>
      obtain ⟨v, -, -, hv⟩ := (s.withLoader l e).disableLoader_eq l
      rw [State.switchLoader_disable he, hv]
      exact ⟨putAt_same _ _ _, putAt_same _ _ _⟩
    | false =>
      rw [← he, State.switchLoader_same]
      exact h.1 l ho
  refine ⟨fun k hk => ?_, fun i hi => ?_⟩
  · rw [State.enabled, ht] at hk
    by_cases hkl : k = l
    · subst hkl
      rw [State.withLoader_entry] at hk
      exact hself hk
    · rw [State.withLoader_other hkl] at hk
      have hst := (congrArg (fun r => r.status[k]) hr).trans (hs.status k hkl)
      have hdl := (congrArg (fun r => r.deadlines[k]) hr).trans (hs.deadlines k hkl)
      obtain ⟨h1, h2⟩ := h.1 k hk
      exact ⟨hst.trans h1, hdl.trans h2⟩
  · rw [ht] at hi
    rw [show (s.applyLoader l e).lines = _ from (congrArg Rest.lines hr).trans hs.lines]
    exact h.2 i hi

theorem State.applyLoader_interlocks (hd : s.DisabledStand) (h : s.InterlocksStand) (l : Loader) (e : LoaderEntry) :
    (s.applyLoader l e).InterlocksStand := by
  obtain ⟨hr, ha⟩ := s.switchLoader_applies l e
  have hs := (s.withLoader l e).switchLoader_switched s.tables.loaders[l].enabled e l
  have ht : (s.applyLoader l e).tables = (s.withLoader l e).tables := (congrArg Rest.tables hr).trans hs.tables
  have hl : (s.applyLoader l e).lines = s.lines := (congrArg Rest.lines hr).trans hs.lines
  have hz : (s.applyLoader l e).zoneInterlocked = s.zoneInterlocked :=
    State.zoneInterlocked_congr (by rw [ht]; rfl) fun i => by rw [hl]
  refine h.of fun k hen hzk => ?_
  rw [State.enabled, ht] at hen
  rw [hz] at hzk
  by_cases hkl : k = l
  · subst hkl
    rw [State.withLoader_entry] at hen
    cases ho : s.tables.loaders[k].enabled with
    | false =>
      refine .inl ?_
      rw [State.Stands, ha, ho, State.switchLoader_enable hen]
      refine State.enableLoader_keeps_stands (s := s.withLoader k e) ?_
      rw [State.Stands]
      change s.auth[k].state.isStanding = true
      rw [hd k ho]
      rfl
    | true =>
      have hsame : (s.withLoader k e).switchLoader s.tables.loaders[k].enabled e k = s.withLoader k e := by
        rw [ho, ← hen, State.switchLoader_same]
      rw [hsame] at hr ha
      refine .inr ⟨ho, ?_, fun hst => ?_⟩
      · rwa [show (s.applyLoader k e).status = s.status from congrArg Rest.status hr] at hzk
      · rw [State.Stands, ha]
        exact hst
  · rw [State.withLoader_other hkl] at hen
    refine .inr ⟨hen, ?_, fun hst => ?_⟩
    · rwa [show (s.applyLoader l e).status[k] = s.status[k] from
        (congrArg (fun r => r.status[k]) hr).trans (hs.status k hkl)] at hzk
    · rw [State.Stands, ha, hs.auth k hkl]
      exact hst

/-! ## The boundary (R166) -/

theorem State.applyEntry_keeps (s : State) (r : EntryRef) : s.Keeps (s.applyEntry r) := by
  have hfew : s.SlotsApart → State.SlotsApart { s with writes := s.writes.clear r } := by
    intro h
    refine h.of_fewer fun k a ha => ?_
    cases r with
    | loader l =>
      refine List.mem_cons.mpr ((List.mem_cons.mp ha).imp_right fun ha => ?_)
      change a ∈ ((putAt s.writes.loaders l none)[k]).toList at ha
      rw [putAt_get] at ha
      split at ha
      · exact absurd ha List.not_mem_nil
      · exact ha
    | _ => exact ha
  have hc : s.Keeps { s with writes := s.writes.clear r } :=
    ⟨fun h => h.same rfl, hfew, fun h => h.of (fun _ hd => ⟨hd, rfl, rfl⟩) fun _ hd => ⟨hd, id, id⟩, fun _ h => h.kept rfl⟩
  have htables (t : Tables) (hl : t.lines = s.tables.lines) (ho : t.loaders = s.tables.loaders) :
      State.Keeps { s with writes := s.writes.clear r } { s with writes := s.writes.clear r, tables := t } := by
    refine ⟨fun h => h.congr rfl (fun _ => ⟨rfl, rfl, rfl⟩) rfl rfl (fun _ => rfl) ho, fun h => h.congr ho rfl, fun h => h.of (fun k hk => ⟨?_, rfl, rfl⟩) fun j hj => ⟨?_, id, id⟩,
      fun _ h => h.congr hl (fun k hk => ?_) (fun _ => id) (fun _ => rfl) fun _ => id⟩
    · exact (congrArg (fun v => v[k].enabled) ho).symm.trans hk
    · exact (congrArg (fun v => v[j].enabled) hl).symm.trans hj
    · exact (congrArg (fun v => v[k].enabled) ho).symm.trans hk
  cases r with
  | device =>
    simp only [State.applyEntry]
    split
    · exact .refl s
    · exact hc.trans (State.applyDevice_keeps _ _)
  | chair c =>
    simp only [State.applyEntry]
    split
    · exact .refl s
    · exact hc.trans (State.applyChair_keeps _ _ _)
  | line i =>
    simp only [State.applyEntry]
    split
    · exact .refl s
    · exact hc.trans (State.applyLine_keeps _ _ _)
  | loader l =>
    simp only [State.applyEntry]
    split
    · exact .refl s
    · next e he =>
      exact ⟨fun h => (hc.agree h).applyLoader _ _, fun h => State.applyLoader_apart h he,
        fun h => State.applyLoader_rest (hc.rest h) l e,
        fun ha h => State.applyLoader_interlocks (hc.agree ha).2.2.2 (hc.stand ha h) l e⟩
  | mgmtStation i =>
    simp only [State.applyEntry]
    split
    · exact .refl s
    · exact hc.trans (htables _ rfl rfl)
  | zone z =>
    simp only [State.applyEntry]
    split
    · exact .refl s
    · exact hc.trans (htables _ rfl rfl)
  | rule i =>
    simp only [State.applyEntry]
    split
    · exact .refl s
    · exact hc.trans (htables _ rfl rfl)
  | event i =>
    simp only [State.applyEntry]
    split
    · exact .refl s
    · exact hc.trans (htables _ rfl rfl)

theorem State.applyWrites_keeps (s : State) (order : List EntryRef) : s.Keeps (s.applyWrites order) := by
  have hf := foldl_inv State.applyEntry s.Keeps (fun u r hu => hu.trans (u.applyEntry_keeps r)) (order ++ allRefs) s (.refl s)
  simp only [State.applyWrites, State.endCommissioning]
  split
  · exact hf.trans (.of_plant (fun h => h.same rfl) rfl rfl)
  · exact hf

theorem State.tableApplied_keeps (s : State) (order : List EntryRef) (b : Bool) : s.Keeps (s.tableApplied order b) := by
  have tell (u : State) (n d) : u.Keeps (if n = 0 then u else u.raise .tableApplied none none d) := by
    split
    · exact .refl u
    · exact .of_plant (fun h => h.raise _ _ _ _) rfl rfl
  simp only [State.tableApplied]
  split
  · exact (tell s _ _).trans (State.applyWrites_keeps _ _)
  · exact (s.applyWrites_keeps order).trans (tell _ _ _)

theorem State.drawPhases_steady (s : State) : s.Steady s.drawPhases := by
  refine foldl_inv _ s.Steady (fun u c hu => ?_) _ s (.refl s)
  refine foldl_inv _ s.Steady (fun v k hv => hv.trans ?_) _ u hu
  simp only [State.drawOne]
  split
  · exact .of_auth rfl rfl
  · exact .refl v

theorem State.cycleStart_steady (s : State) (b : Bool) : s.Steady (s.cycleStart b) := by
  have hd (p : Bool) (u : State) : u.Steady (if p then u.drawPhases else u) := by
    cases p
    · exact .refl u
    · exact u.drawPhases_steady
  have h1 : s.Steady (State.stepPresence { s with timer := s.timer.nextCycle }) := .of_auth rfl rfl
  have hdue (u : State) (d : List Due) : u.Steady { u with due := d } := .of_auth rfl rfl
  exact (h1.trans (hd _ _)).trans (hdue _ _)

/-! ## The Agent's moves and the transmitter's -/

/-- A write that is judged well passes checks 5, 6 and 7 of R162. -/
theorem State.judgeWrite_passes {table index : Byte} {data : List Byte} {w : EntryWrite}
    (h : s.judgeWrite table index data = .ok w) :
    s.writeInUse w = false ∧ s.writeClash w = false ∧ s.writeDenied w = false := by
  unfold State.judgeWrite at h
  split at h
  · exact nomatch h
  · split at h
    · exact nomatch h
    · split at h
      · exact nomatch h
      · next hu =>
        split at h
        · exact nomatch h
        · next hc =>
          split at h
          · exact nomatch h
          · next hd =>
            injection h with h
            subst h
            exact ⟨eq_false_of_ne_true hu, eq_false_of_ne_true hc, eq_false_of_ne_true hd⟩

theorem State.Tends.keeps {room : Nat} (h : State.Tends room s t) : s.Keeps t := by
  cases h with
  | served h =>
    cases h with
    | nothing => exact .refl s
    | write w hw =>
      obtain ⟨_, hc, _⟩ := State.judgeWrite_passes hw
      exact ⟨fun h => h.same rfl, fun h => h.put hc, fun h => h.of (fun _ hd => ⟨hd, rfl, rfl⟩) fun _ hd => ⟨hd, id, id⟩,
        fun _ h => h.kept rfl⟩
    | lineAck i hl => exact s.acknowledge_keeps i none
    | clearGroup g => exact .of_plant (fun h => h.same rfl) rfl rfl
    | frozen b => exact .of_plant (fun h => h.same rfl) rfl rfl
    | clearAll => exact .of_plant (fun h => h.same rfl) rfl rfl
    | readLog n => exact .of_plant (fun h => h.same rfl) rfl rfl
    | attnClear => exact .of_plant (fun h => h.same rfl) rfl rfl
    | resetMark => exact .of_plant (fun h => h.same rfl) rfl rfl
    | save => exact .of_plant (fun h => h.same rfl) rfl rfl
  | agent a h => exact .of_plant (fun h => h.same rfl) rfl rfl
  | respond f h => exact .of_plant (fun h => h.same rfl) rfl rfl
  | count id n => exact .of_plant (fun h => h.count _ _) rfl rfl

theorem State.Tended.keepsAll {room : Nat} (h : State.Tended room s t) : s.Keeps t :=
  State.Tended.keeps (P := s.Keeps) (fun _ _ hm hk => hk.trans hm.keeps) h (.refl s)

theorem State.takeFrame_keeps (s : State) : s.Keeps s.takeFrame := by
  obtain ⟨u, hu, ht⟩ := s.takeFrame_tended
  refine State.Keeps.trans ?_ ht.keepsAll
  cases hu with
  | nothing => exact .refl s
  | notice h => exact .of_plant (fun h => h.same rfl) rfl rfl
  | response h => exact .of_plant (fun h => h.same rfl) rfl rfl
  | forward h => exact .of_plant (fun h => h.same rfl) rfl rfl

/-! ## Every move -/

theorem State.Aside.keeps (h : s.Aside t) : s.Keeps t := by
  cases h <;> exact .of_plant (fun h => h.same rfl) rfl rfl

theorem State.Minor.keeps (h : s.Minor t) : s.Keeps t := by
  refine .of_plant h.recordsAgree ?_ ?_
  · cases h with
    | refreshPresence c => exact congrArg Rest.plant (State.refreshPresence_rest _ c)
    | _ => rfl
  · cases h with
    | refreshPresence c =>
      unfold State.refreshPresence
      split <;> rfl
    | _ => rfl

theorem State.chairRequest_keeps (s : State) (c b code tag args) : s.Keeps (s.chairRequest c b code tag args) := by
  obtain h | ⟨i, _, h⟩ := s.chairRequest_steady c b code tag args
  · exact .of_steady (fun ha => ha.chairRequest c b code tag args) h
  · rw [h]
    have hd : s.Keeps (s.doneNone c tag) := .of_plant (fun h => h.same rfl) rfl rfl
    exact hd.trans (State.acknowledge_keeps _ i (some c))

theorem State.Row.keeps (h : s.Row t) : s.Keeps t := by
  have ha := h.recordsAgree
  cases h with
  | nothing => exact .refl s
  | saveEnd read =>
    refine .of_steady ha ?_
    unfold State.saveEnd
    split
    · dsimp only
      repeat' split
      all_goals exact .of_auth rfl rfl
    · exact .refl s
  | cycleStart b => exact .of_steady ha (s.cycleStart_steady b)
  | applied order b n => exact (s.tableApplied_keeps order b).trans (.of_plant (fun h => h.same rfl) rfl rfl)
  | boundary order b =>
    have hu : State.Keeps (s.tableApplied order b) ((s.tableApplied order b).undue .phaseDraw) := .of_plant (fun h => h.same rfl) rfl rfl
    exact ((s.tableApplied_keeps order b).trans hu).trans (.of_steady (fun h => h.drawPhases) (State.drawPhases_steady _))
  | drawPhases => exact .of_steady ha s.drawPhases_steady
  | slotAt p k => exact s.slotAt_keeps p k
  | staleSlot x => exact s.staleSlot_keeps x
  | deadline l => exact s.deadline_keeps l
  | pendingDeadline f => exact s.pendingDeadline_keeps f
  | linkDownTest l => exact s.linkDownTest_keeps l
  | linkUpTest l => exact s.linkUpTest_keeps l
  | readyTest l => exact .of_steady ha (s.readyTest_steady l)
  | offerExpiry l => exact .of_steady ha (s.offerExpiry_steady l)
  | matchTimeout l => exact .of_steady ha (s.matchTimeout_steady l)
  | releaseTimeout l => exact .of_steady ha (s.releaseTimeout_steady l)
  | presenceExpiry c => exact .of_steady ha (s.presenceExpiry_steady c)
  | authorityReset => exact s.authorityReset_keeps
  | stepMillis => exact .of_plant ha rfl rfl
  | sampleAhead i v => exact s.sampleAhead_keeps i v
  | sampleLine i v w => exact s.sampleLine_keeps i v w
  | settleLine i => exact s.settleLine_keeps i
  | portComesUp p =>
    refine .of_steady ha ?_
    simp only [State.portComesUp]
    split
    · exact .refl s
    · exact .of_auth rfl rfl
  | portLost p =>
    have hl : s.Keeps ((s.setLink p false).loseFrame p) := by
      cases p <;> exact .of_plant (fun h => h.same rfl) rfl rfl
    exact hl.trans (.of_plant (fun h => h.raise _ _ _ _) rfl rfl)
  | commandFrameFrom c h p => exact .of_steady ha (s.commandFrameFrom_steady c h p)
  | statusFrame l h p => exact s.statusFrame_keeps l h p
  | chairRequest c b code tag args => exact s.chairRequest_keeps c b code tag args
  | mgmtArrival r => exact (State.mgmtArrival_tended (le_refl 4) r).keepsAll
  | takeFrame => exact s.takeFrame_keeps
  | transmissionEnd => exact .of_plant ha rfl rfl

theorem State.finish_keeps (s : State) : s.Keeps s.finish where
  agree h := h.finish
  apart h := h.congr (congrArg (·.tables.loaders) s.finish_rest) (congrArg (·.writes.loaders) s.finish_rest)
  rest h := h.same (congrArg Rest.plant s.finish_rest)
  stand ha h := h.steady ha.finish_steady

theorem State.Move.keeps (h : s.Move t) : s.Keeps t := by
  cases h with
  | aside h => exact h.keeps
  | event h =>
    obtain ⟨v, ⟨u, hu, hr⟩, rfl⟩ := h
    refine State.Keeps.trans ?_ (hr.keeps.trans v.finish_keeps)
    clear hr
    induction hu with
    | refl => exact .refl s
    | tail _ hm ih => exact ih.trans hm.keeps
  | powerOn b => exact s.powerOn_keeps b
  | loadEnd read => exact (s.loadEnd_keeps read).trans (State.finish_keeps _)

/-- Every step keeps the four conditions. -/
theorem step_keeps (h : step s = .next t) : s.Keeps t := by
  have hc := step_course h
  clear h
  induction hc with
  | refl => exact .refl s
  | tail _ hm ih => exact ih.trans hm.keeps

end

end Sys2Proof.Machine

namespace Sys2Proof
open Machine

/-- Settles O59: each of the four conditions is kept by every row, by the Agent's moves and by the start. -/
theorem everyStepKeepsRecordsAgreeing : Obligations.EveryStepKeepsRecordsAgreeing := by
  unfold Obligations.EveryStepKeepsRecordsAgreeing
  intro s t h
  have hk := step_keeps h
  exact ⟨hk.agree, hk.apart, hk.rest, hk.stand⟩

end Sys2Proof
end

section
/-! The Counter Bank (R178-R180): what a count and an event do to the counters and to the warning flag. -/

namespace Sys2Proof.Machine

open Sys2Proof

section
variable {r : Report}

/-! ## Reading the counters -/

theorem Report.setCounter_counter (r : Report) (id : CounterId) (v : Nat) (x : CounterId) :
    (r.setCounter id v).counter x = if x = id then v else r.counter x := by
  cases id with
  | loader l k =>
    cases x with
    | loader m j =>
      simp only [Report.setCounter, Report.counter, putAt_get, CounterId.loader.injEq]
      by_cases hl : l = m
      · subst hl
        simp only [if_true, putAt_get, true_and, eq_comm (a := j)]
      · simp only [hl, if_false, Ne.symm hl, false_and]
    | chair => rfl
    | device => rfl
  | chair c k =>
    cases x with
    | chair d j =>
      simp only [Report.setCounter, Report.counter, putAt_get, CounterId.chair.injEq]
      by_cases hl : c = d
      · subst hl
        simp only [if_true, putAt_get, true_and, eq_comm (a := j)]
      · simp only [hl, if_false, Ne.symm hl, false_and]
    | loader => rfl
    | device => rfl
  | device k =>
    cases x with
    | device j => simp only [Report.setCounter, Report.counter, putAt_get, CounterId.device.injEq, eq_comm (a := j)]
    | loader => rfl
    | chair => rfl

theorem Report.anyHigh_iff (r : Report) : r.anyHigh = true ↔ ∃ id, warningLevel ≤ r.counter id := by
  have hmem {α : Type} {n : Nat} (v : Vector α n) (p : α → Bool) : v.toList.any p = true ↔ ∃ i : Fin n, p v[i] = true := by
    rw [List.any_eq_true]
    constructor
    · rintro ⟨x, hx, hp⟩
      obtain ⟨k, hk, rfl⟩ := List.getElem_of_mem hx
      rw [Vector.length_toList] at hk
      exact ⟨⟨k, hk⟩, by simpa using hp⟩
    · rintro ⟨i, hp⟩
      exact ⟨v[i], by simp, hp⟩
  simp only [Report.anyHigh, Bool.or_eq_true, hmem, decide_eq_true_iff]
  constructor
  · rintro ((⟨l, k, h⟩ | ⟨c, k, h⟩) | ⟨k, h⟩)
    · exact ⟨.loader l k, h⟩
    · exact ⟨.chair c k, h⟩
    · exact ⟨.device k, h⟩
  · rintro ⟨id, h⟩
    cases id with
    | loader l k => exact .inl (.inl ⟨l, k, h⟩)
    | chair c k => exact .inl (.inr ⟨c, k, h⟩)
    | device k => exact .inr ⟨k, h⟩

theorem Report.countersRight_iff (r : Report) :
    r.CountersRight ↔ (∀ id, r.counter id ≤ 65535) ∧ r.warning = r.anyHigh := by
  constructor
  · rintro ⟨hl, hc, hd, hw⟩
    refine ⟨fun id => ?_, hw⟩
    cases id with
    | loader l k => exact hl l k
    | chair c k => exact hc c k
    | device k => exact hd k
  · rintro ⟨h, hw⟩
    exact ⟨fun l k => h (.loader l k), fun c k => h (.chair c k), fun k => h (.device k), hw⟩

/-! ## What reporting does to them -/

/-- The counters with the flags that rule them. -/
def Report.bank (r : Report) := (r.loaderCounts, r.chairCounts, r.deviceCounts, r.frozen, r.warning)

theorem Report.counter_of_bank {r r' : Report} (h : r'.bank = r.bank) (id : CounterId) : r'.counter id = r.counter id := by
  simp only [Report.bank, Prod.mk.injEq] at h
  obtain ⟨hl, hc, hd, -, -⟩ := h
  cases id <;> simp only [Report.counter, hl, hc, hd]

theorem Report.anyHigh_of_bank {r r' : Report} (h : r'.bank = r.bank) : r'.anyHigh = r.anyHigh := by
  rw [Bool.eq_iff_iff, Report.anyHigh_iff, Report.anyHigh_iff]
  simp only [Report.counter_of_bank h]

theorem Report.warning_of_bank {r r' : Report} (h : r'.bank = r.bank) : r'.warning = r.warning :=
  congrArg (fun b => b.2.2.2.2) h

theorem Report.CountersRight.of_bank {r r' : Report} (hr : r.CountersRight) (h : r'.bank = r.bank) : r'.CountersRight := by
  rw [Report.countersRight_iff] at hr ⊢
  simpa only [Report.counter_of_bank h, Report.anyHigh_of_bank h, Report.warning_of_bank h] using hr

/-- What the bank alone decides, and a count of what an event loses keeps, the event keeps. -/
theorem Report.raiseWith_keeps {P : Report → Prop} (hb : ∀ r r' : Report, r'.bank = r.bank → P r → P r')
    {cnt : CounterId → Report → Report} (hc : ∀ id r, P r → P (cnt id r)) (s : State) (e : Event) (h : P r) :
    P (r.raiseWith cnt s e) := by
  have hattn (b : Bool) (r : Report) (h : P r) : P (if b then { r with attn := true } else r) := by
    cases b
    · exact h
    · exact hb r _ rfl h
  have hlog (b : Bool) (r : Report) (h : P r) : P (if b then r.record cnt s e else r) := by
    cases b
    · exact h
    · simp only [Report.record, if_true]
      split
      · exact hb r _ rfl h
      · exact hc _ _ (hb r _ rfl h)
  have hall (r : Report) (h : P r) : P (r.notifyAll cnt s e) := by
    refine foldl_inv _ P (fun r c h => ?_) allChairs r h
    split
    · simp only [Report.offerEventNotice]
      split
      · exact hb r _ rfl h
      · exact hc _ _ (hb r _ rfl h)
    · exact h
  simp only [Report.raiseWith]
  split
  · exact hall _ (hlog _ _ (hattn _ _ h))
  · exact hlog _ _ (hattn _ _ h)

theorem Report.bump_counter (r : Report) (id : CounterId) (n : Nat) (x : CounterId) :
    (r.bump id n).counter x = if x = id ∧ r.frozen = false then min 65535 (r.counter id + n) else r.counter x := by
  simp only [Report.bump]
  cases r.frozen
  · simp only [Bool.false_eq_true, if_false, Report.setCounter_counter, and_true]
  · simp only [if_true, Bool.true_eq_false, and_false, if_false]

@[simp] theorem Report.bump_warning (r : Report) (id : CounterId) (n : Nat) : (r.bump id n).warning = r.warning := by
  simp only [Report.bump]
  split
  · rfl
  · cases id <;> rfl

theorem Report.bump_le (h : ∀ id, r.counter id ≤ 65535) (id : CounterId) (n : Nat) (x : CounterId) :
    r.counter x ≤ (r.bump id n).counter x ∧ (r.bump id n).counter x ≤ 65535 := by
  have hx := h x
  rw [Report.bump_counter]
  split
  · next hxi =>
    obtain ⟨rfl, -⟩ := hxi
    omega
  · exact ⟨le_rfl, hx⟩

/-- With the warning flag set: the counters within their range, and the one that set it still high. -/
def Report.Warned (id : CounterId) (v : Nat) (r : Report) : Prop :=
  (∀ x, r.counter x ≤ 65535) ∧ r.warning = true ∧ v ≤ r.counter id

theorem Report.Warned.of_bank {id : CounterId} {v : Nat} {r r' : Report} (h : r'.bank = r.bank) (hr : r.Warned id v) :
    r'.Warned id v := by
  obtain ⟨hle, hw, hv⟩ := hr
  refine ⟨fun x => ?_, (Report.warning_of_bank h).trans hw, ?_⟩
  · rw [Report.counter_of_bank h]
    exact hle x
  · rwa [Report.counter_of_bank h]

theorem Report.Warned.bump {id : CounterId} {v : Nat} (hr : r.Warned id v) (x : CounterId) (n : Nat) :
    (r.bump x n).Warned id v := by
  obtain ⟨hle, hw, hv⟩ := hr
  exact ⟨fun y => (Report.bump_le hle x n y).2, (Report.bump_warning r x n).trans hw, hv.trans (Report.bump_le hle x n id).1⟩

/-- A count sets the warning flag and raises COUNTER_WARNING, or records its value alone (R180). -/
theorem Report.count_cases (r : Report) (s : State) (id : CounterId) (n : Nat) :
    (r.warning = false ∧ r.frozen = false ∧ warningLevel ≤ min 65535 (r.counter id + n) ∧
        r.count s id n = Report.raiseWith (fun id r => r.bump id 1) s id.warning { r.bump id n with warning := true })
      ∨ (r.warning = true ∨ r.frozen = true ∨ min 65535 (r.counter id + n) < warningLevel) ∧ r.count s id n = r.bump id n := by
  simp only [Report.count]
  cases hw : r.warning with
  | true => exact .inr ⟨.inl rfl, rfl⟩
  | false =>
    cases hf : r.frozen with
    | true => exact .inr ⟨.inr (.inl rfl), rfl⟩
    | false =>
      have hv : (r.bump id n).counter id = min 65535 (r.counter id + n) := by
        rw [Report.bump_counter, hf, if_pos ⟨rfl, rfl⟩]
      rw [hv]
      by_cases h : warningLevel ≤ min 65535 (r.counter id + n)
      · exact .inl ⟨rfl, rfl, h, by simp only [h, decide_true, Bool.not_false, Bool.and_self, if_true]⟩
      · exact .inr ⟨.inr (.inr (Nat.lt_of_not_le h)), by simp only [h, decide_false, Bool.and_false, Bool.false_eq_true, if_false]⟩

/-- The first counter to reach 32768 leaves its value and the flag (R180). -/
theorem Report.count_warned (hle : ∀ x, r.counter x ≤ 65535) {id : CounterId} {n : Nat} (hf : r.frozen = false) (s : State) :
    Report.Warned id (min 65535 (r.counter id + n))
      (Report.raiseWith (fun id r => r.bump id 1) s id.warning { r.bump id n with warning := true }) := by
  refine Report.raiseWith_keeps (fun _ _ => Report.Warned.of_bank) (fun x _ h => h.bump x 1) s _ ?_
  refine ⟨fun x => (Report.bump_le hle id n x).2, rfl, ?_⟩
  have hv := r.bump_counter id n id
  rw [hf, if_pos ⟨rfl, rfl⟩] at hv
  exact hv.ge

/-- A count keeps the counters within their range and the flag right. -/
theorem Report.CountersRight.count (hr : r.CountersRight) (s : State) (id : CounterId) (n : Nat) :
    (r.count s id n).CountersRight := by
  rw [Report.countersRight_iff] at hr ⊢
  obtain ⟨hle, hw⟩ := hr
  obtain ⟨-, hf, hv, he⟩ | ⟨hq, he⟩ := r.count_cases s id n
  · rw [he]
    obtain ⟨h1, h2, h3⟩ := Report.count_warned hle (id := id) (n := n) hf s
    exact ⟨h1, h2.trans ((Report.anyHigh_iff _).mpr ⟨id, hv.trans h3⟩).symm⟩
  · rw [he]
    refine ⟨fun x => (Report.bump_le hle id n x).2, ?_⟩
    rw [Report.bump_warning, hw, Bool.eq_iff_iff, Report.anyHigh_iff, Report.anyHigh_iff]
    constructor
    · rintro ⟨x, hx⟩
      exact ⟨x, hx.trans (Report.bump_le hle id n x).1⟩
    · rintro ⟨x, hx⟩
      rw [Report.bump_counter] at hx
      split at hx
      · next hxi =>
        obtain h | h | h := hq
        · exact (Report.anyHigh_iff r).mp (hw.symm.trans h)
        · exact absurd (hxi.2.symm.trans h) (by decide)
        · exact absurd hx (Nat.not_le.mpr h)
      · exact ⟨x, hx⟩

theorem Report.CountersRight.raise (hr : r.CountersRight) (s : State) (e : Event) : (r.raise s e).CountersRight :=
  Report.raiseWith_keeps (P := Report.CountersRight) (fun _ _ h hr => hr.of_bank h) (fun id _ h => h.count s id 1) s e hr

theorem Report.CountersRight.notice (hr : r.CountersRight) (s : State) (c : Chair) (n : Notice) :
    (r.notice s c n).CountersRight := by
  simp only [Report.notice]
  split
  · exact hr.of_bank rfl
  · exact ((hr.of_bank (r' := r.takeNumber c) rfl).count s _ 1).raise s _

end

end Sys2Proof.Machine

namespace Sys2Proof
open Machine

/-- Settles O54: below the warning level, or with the flag set, a count is the one write of its counter; else the flag is set
ahead of what COUNTER_WARNING itself counts. -/
theorem countsSaturateAndFreeze : Obligations.CountsSaturateAndFreeze := by
  unfold Obligations.CountsSaturateAndFreeze
  intro s id n hr
  have hle := ((Report.countersRight_iff _).mp hr).1
  refine ⟨hr.count s id n, fun hf => ?_, fun hf => ⟨fun hq => ?_, fun hv => ?_⟩⟩
  · obtain ⟨-, hnf, -, -⟩ | ⟨-, he⟩ := s.rep.count_cases s id n
    · exact absurd (hnf.symm.trans hf) (by decide)
    · simp only [State.count, he, Report.bump, hf, if_true]
  · have he : s.rep.count s id n = s.rep.setCounter id (min 65535 (s.rep.counter id + n)) := by
      obtain ⟨hnw, -, hv, -⟩ | ⟨-, he⟩ := s.rep.count_cases s id n
      · obtain hw | hv' := hq
        · exact absurd (hnw.symm.trans hw) (by decide)
        · exact absurd hv (Nat.not_le.mpr hv')
      · rw [he, Report.bump, hf]
        rfl
    simp only [State.count, he]
    exact ⟨trivial, fun x => Report.setCounter_counter _ _ _ x⟩
  · obtain ⟨-, -, -, he⟩ | ⟨hq, he⟩ := s.rep.count_cases s id n
    · obtain ⟨-, hw, hc⟩ := Report.count_warned hle (id := id) (n := n) hf s
      simp only [State.count, he]
      exact ⟨hw, hc⟩
    · have hw : s.rep.warning = true := by
        obtain h | h | h := hq
        · exact h
        · exact absurd (hf.symm.trans h) (by decide)
        · exact absurd hv (Nat.not_le.mpr h)
      simp only [State.count, he, Report.bump_warning, Report.bump_counter, hf, and_self, if_true]
      exact ⟨hw, le_rfl⟩

end Sys2Proof
end

section
/-! What reporting adds to a report (R157, R174, R178-R180): counts, log entries and notices, and nothing else. A report that tells
more than another has come from it by counts, events and notices. -/

namespace Sys2Proof.Machine

open Sys2Proof

/-- A notice that is no answer to a request, unless answers are let in. -/
def NoticeName.told (answers : Bool) (n : NoticeName) : Prop := answers = true ∨ (n ≠ .done ∧ n ≠ .refused)

/-- What every write of reporting keeps. -/
structure Report.Closed (answers : Bool) (P : Report → Prop) : Prop where
  bump : ∀ r id n, P r → P (r.bump id n)
  flags : ∀ (r : Report) (a w o : Bool), (r.overflow = true → o = true) → P r → P { r with attn := a, warning := w, overflow := o }
  number : ∀ r c, P r → P (r.takeNumber c)
  log : ∀ (r : Report) e, r.log.length < logCapacity → P r → P { r with log := r.log ++ [e] }
  place : ∀ (r : Report) s c n, n.name.told answers → r.notices.length < noticeCapacity → P r → P (r.place s c n)

section
variable {answers : Bool} {P : Report → Prop} {r r' : Report}

theorem Report.Closed.raiseWith (hP : Report.Closed answers P) {cnt : CounterId → Report → Report}
    (hc : ∀ id r, P r → P (cnt id r)) (s : State) (e : Event) (h : P r) : P (r.raiseWith cnt s e) := by
  have hattn (b : Bool) (r : Report) (h : P r) : P (if b then { r with attn := true } else r) := by
    cases b
    · exact h
    · exact hP.flags r true r.warning r.overflow id h
  have hlog (b : Bool) (r : Report) (h : P r) : P (if b then r.record cnt s e else r) := by
    cases b
    · exact h
    · simp only [Report.record, if_true]
      split
      · next hr => exact hP.log r _ hr h
      · exact hc _ _ (hP.flags r r.attn r.warning true (fun _ => rfl) h)
  have hall (r : Report) (h : P r) : P (r.notifyAll cnt s e) := by
    refine foldl_inv _ P (fun r c h => ?_) allChairs r h
    split
    · simp only [Report.offerEventNotice]
      split
      · next hr => exact hP.place _ s c _ (.inr ⟨by simp [eventNotice], by simp [eventNotice]⟩) hr (hP.number r c h)
      · exact hc _ _ (hP.number r c h)
    · exact h
  simp only [Report.raiseWith]
  split
  · exact hall _ (hlog _ _ (hattn _ _ h))
  · exact hlog _ _ (hattn _ _ h)

theorem Report.Closed.count (hP : Report.Closed answers P) (s : State) (id : CounterId) (n : Nat) (h : P r) :
    P (r.count s id n) := by
  obtain ⟨-, -, -, he⟩ | ⟨-, he⟩ := r.count_cases s id n <;> rw [he]
  · exact hP.raiseWith (fun _ _ h => hP.bump _ _ _ h) s _ (hP.flags _ _ true _ (fun ho => ho) (hP.bump r id n h))
  · exact hP.bump r id n h

theorem Report.Closed.raise (hP : Report.Closed answers P) (s : State) (e : Event) (h : P r) : P (r.raise s e) :=
  hP.raiseWith (fun _ _ h => hP.count s _ 1 h) s e h

theorem Report.Closed.notice (hP : Report.Closed answers P) (s : State) (c : Chair) {n : Notice} (hn : n.name.told answers)
    (h : P r) : P (r.notice s c n) := by
  simp only [Report.notice]
  split
  · next hr => exact hP.place _ s c n hn hr (hP.number r c h)
  · exact hP.raise s _ (hP.count s _ 1 (hP.number r c h))

end

/-! ## Telling -/

/-- One count, event or notice. -/
inductive Report.Tell (answers : Bool) (r : Report) : Report → Prop
  | count (s id n) : Tell answers r (r.count s id n)
  | raise (s e) : Tell answers r (r.raise s e)
  | notice (s c) (n : Notice) (h : n.name.told answers) : Tell answers r (r.notice s c n)

/-- Counts, events and notices, one after the other. -/
abbrev Report.Tells (answers : Bool) : Report → Report → Prop := Relation.ReflTransGen (Report.Tell answers)

section
variable {answers : Bool} {P : Report → Prop} {r r' : Report}

theorem Report.Closed.tells (hP : Report.Closed answers P) (ht : Report.Tells answers r r') (h : P r) : P r' := by
  induction ht with
  | refl => exact h
  | tail _ hm ih =>
    cases hm with
    | count s id n => exact hP.count s id n ih
    | raise s e => exact hP.raise s e ih
    | notice s c n hn => exact hP.notice s c hn ih

theorem Report.CountersRight.tells (hr : r.CountersRight) (ht : Report.Tells answers r r') : r'.CountersRight := by
  induction ht with
  | refl => exact hr
  | tail _ hm ih =>
    cases hm with
    | count s id n => exact ih.count s id n
    | raise s e => exact ih.raise s e
    | notice s c n hn => exact ih.notice s c n

theorem Report.Tells.answered (ht : Report.Tells false r r') : Report.Tells true r r' := by
  refine Relation.ReflTransGen.mono (fun _ _ hm => ?_) _ _ ht
  cases hm with
  | count s id n => exact .count s id n
  | raise s e => exact .raise s e
  | notice s c n hn => exact .notice s c n (.inl rfl)

/-- A bump of a counter writes counters alone. -/
theorem Report.bump_eq (r : Report) (id : CounterId) (n : Nat) : (r.bump id n).notices = r.notices ∧ (r.bump id n).log = r.log ∧
    (r.bump id n).frozen = r.frozen := by
  simp only [Report.bump]
  split
  · exact ⟨rfl, rfl, rfl⟩
  · cases id <;> exact ⟨rfl, rfl, rfl⟩

/-- Neither the Notice Queue nor the Event Log outgrows its capacity (R157, R174). -/
theorem Report.closed_bounded :
    Report.Closed answers fun r => r.notices.length ≤ noticeCapacity ∧ r.log.length ≤ logCapacity where
  bump r id n h := by
    obtain ⟨h1, h2, -⟩ := r.bump_eq id n
    rwa [h1, h2]
  flags _ _ _ _ _ h := h
  number _ _ h := h
  log r e hr h := ⟨h.1, by
    rw [List.length_append]
    exact hr⟩
  place r s c n _ hr h := ⟨by
    rw [Report.place, List.length_append]
    exact hr, h.2⟩

/-- No notice enters a full queue (R157). -/
theorem Report.closed_full (q : List Frame) (hq : noticeCapacity ≤ q.length) : Report.Closed answers fun r => r.notices = q where
  bump r id n h := (r.bump_eq id n).1.trans h
  flags _ _ _ _ _ h := h
  number _ _ h := h
  log _ _ _ h := h
  place r s c n _ hr h := absurd hr (Nat.not_lt.mpr (by rw [h]; exact hq))

/-- What enters the queue after it was q is no answer. -/
theorem Report.closed_unanswered (q : List Frame) : Report.Closed false fun r =>
    ∃ more, r.notices = q ++ more ∧ ∀ f ∈ more, f.payload.head? ≠ some 0x01 ∧ f.payload.head? ≠ some 0x02 where
  bump r id n h := by
    rw [(r.bump_eq id n).1]
    exact h
  flags _ _ _ _ _ h := h
  number _ _ h := h
  log _ _ _ h := h
  place r s c n hn _ h := by
    obtain ⟨more, hm, hall⟩ := h
    refine ⟨more ++ [noticeFrame s c n r.noticeSeq[c]], by rw [Report.place, hm, List.append_assoc], fun f hf => ?_⟩
    obtain hf | hf := List.mem_append.mp hf
    · exact hall f hf
    · rw [List.mem_singleton.mp hf]
      obtain hn | ⟨hd, hr⟩ := hn
      · exact nomatch hn
      · change some n.name.code ≠ some 0x01 ∧ some n.name.code ≠ some 0x02
        generalize n.name = m at hd hr
        cases m <;> simp_all [NoticeName.code]

/-- While counting is not frozen it stays so, and no counter falls. -/
theorem Report.closed_counted (id : CounterId) (v : Nat) :
    Report.Closed answers fun r => (∀ x, r.counter x ≤ 65535) ∧ r.frozen = false ∧ v ≤ r.counter id where
  bump r x n h := by
    obtain ⟨hle, hf, hv⟩ := h
    exact ⟨fun y => (Report.bump_le hle x n y).2, (r.bump_eq x n).2.2.trans hf, hv.trans (Report.bump_le hle x n id).1⟩
  flags _ _ _ _ _ h := h
  number _ _ h := h
  log _ _ _ h := h
  place _ _ _ _ _ _ h := h

/-- No entry enters a full log (R174). -/
theorem Report.closed_logFull (q : List LogEntry) (hq : logCapacity ≤ q.length) : Report.Closed answers fun r => r.log = q where
  bump r id n h := (r.bump_eq id n).2.1.trans h
  flags _ _ _ _ _ h := h
  number _ _ h := h
  log r e hr h := absurd hr (Nat.not_lt.mpr (by rw [h]; exact hq))
  place _ _ _ _ _ _ h := h

/-- Reporting clears no overflow flag (R174). -/
theorem Report.closed_overflow : Report.Closed answers fun r => r.overflow = true where
  bump r id n h := by
    simp only [Report.bump]
    split
    · exact h
    · cases id <;> exact h
  flags _ _ _ _ ho h := ho h
  number _ _ h := h
  log _ _ _ h := h
  place _ _ _ _ _ _ h := h

end

end Sys2Proof.Machine
end

section
/-! What the operations report (R140, R157, R173-R181): each adds counts, events and notices to the report, and leaves the other
queues, the Agent's list and the phase generator alone. The answers to requests are apart. -/

namespace Sys2Proof.Machine

open Sys2Proof

/-- The other queues, the Agent's list and the phase generator. -/
def State.stores (s : State) := (s.responses, s.agent.waiting, s.forwards, s.phaseGen)

/-- The report has come from that of s by telling, and the stores are as they were. -/
structure State.Tells (answers : Bool) (s t : State) : Prop where
  rep : Report.Tells answers s.rep t.rep
  stores : t.stores = s.stores

namespace State.Tells
variable {answers : Bool} {s t u : State} {l : Loader} {c : Chair}

theorem refl (s : State) : State.Tells answers s s := ⟨.refl, rfl⟩

theorem trans (h : State.Tells answers s t) (h' : State.Tells answers t u) : State.Tells answers s u :=
  ⟨Relation.ReflTransGen.trans h.rep h'.rep, h'.stores.trans h.stores⟩

/-- Nothing is reported. -/
theorem silent (h : State.Tells answers s t) (hr : u.rep = t.rep) (hs : u.stores = t.stores) : State.Tells answers s u :=
  ⟨by rw [hr]; exact h.rep, hs.trans h.stores⟩

theorem count (h : State.Tells answers s t) (id n) : State.Tells answers s (t.count id n) :=
  ⟨h.rep.tail (.count t id n), h.stores⟩

theorem raise (h : State.Tells answers s t) (e k d w) : State.Tells answers s (t.raise e k d w) :=
  ⟨h.rep.tail (.raise t ⟨e, k, d, w⟩), h.stores⟩

theorem notice (h : State.Tells answers s t) (d) {n : Notice} (hn : n.name.told answers) : State.Tells answers s (t.notice d n) :=
  ⟨h.rep.tail (.notice t d n hn), h.stores⟩

theorem withdrawn (h : State.Tells answers s t) (k d n why) : State.Tells answers s (t.withdrawn k d n why) :=
  h.notice d (.inr (by exact ⟨nofun, nofun⟩))

theorem aborted (h : State.Tells answers s t) (k d why) : State.Tells answers s (t.aborted k d why) :=
  h.notice d (.inr (by exact ⟨nofun, nofun⟩))

theorem lost (h : State.Tells answers s t) (k r d e why) : State.Tells answers s (t.lost k r d e why) :=
  h.notice r (.inr (by exact ⟨nofun, nofun⟩))

theorem noticeIfPresent (h : State.Tells answers s t) (d) {n : Chair → Notice} (hn : ∀ x, (n x).name.told answers) :
    State.Tells answers s (t.noticeIfPresent d n) := by
  simp only [State.noticeIfPresent]
  repeat' split
  · exact h
  · exact h
  · exact h.notice _ (hn _)

theorem release (h : State.Tells answers s t) (d) : State.Tells answers s (t.release d) :=
  h.silent (t.release_rep d) (congrArg (fun r => (r.responses, r.agent.waiting, r.forwards, r.phaseGen)) (t.release_rest d))

theorem releaseOpt (h : State.Tells answers s t) (d) : State.Tells answers s (t.releaseOpt d) := by
  cases d with
  | none => exact h
  | some d => exact h.release d

theorem enterCalling (h : State.Tells answers s t) (k w d) : State.Tells answers s (t.enterCalling k w d) :=
  State.Tells.raise (t := ((t.setAuth k (.calling w)).enqueue k w).callWalk) (h.silent rfl rfl) _ _ _ _

theorem enterFree (h : State.Tells answers s t) (k) : State.Tells answers s (t.enterFree k) := by
  have hf : State.Tells answers s (t.setAuth k .free) := h.silent rfl rfl
  simp only [State.enterFree]
  split
  · exact hf.enterCalling _ _ _
  · exact hf

theorem makeOffer (h : State.Tells answers s t) (k d o) : State.Tells answers s (t.makeOffer k d o) := by
  simp only [State.makeOffer]
  refine State.Tells.raise (State.Tells.notice ?_ d (.inr (by exact ⟨nofun, nofun⟩))) _ _ _ _
  exact h.silent rfl rfl

theorem offerGone (h : State.Tells answers s t) (d n) : State.Tells answers s (t.offerGone d n) := by
  refine State.Tells.release ?_ d
  exact h.silent rfl rfl

theorem endOffer (k d n w) {go : State → State} (hg : State.Tells answers s (go (t.offerGone d n))) :
    State.Tells answers s (t.endOffer k d n w go) :=
  (hg.raise _ _ _ _).silent rfl rfl

theorem endMatching (h : State.Tells answers s t) (k d) : State.Tells answers s (t.endMatching k d) := by
  refine State.Tells.release ?_ d
  exact h.silent rfl rfl

theorem returnLoader (h : State.Tells answers s t) (k) : State.Tells answers s (t.returnLoader k) := by
  simp only [State.returnLoader]
  repeat' split
  · exact h.silent rfl rfl
  · exact h.enterCalling _ _ _
  · exact h.enterFree _
  · exact h.enterFree _

theorem endOffer_return (h : State.Tells answers s t) (k d n w) :
    State.Tells answers s (t.endOffer k d n w (·.returnLoader k)) :=
  endOffer k d n w ((h.offerGone d n).returnLoader k)

theorem beginMatching (h : State.Tells answers s t) (k ho d o r) : State.Tells answers s (t.beginMatching k ho d o r) :=
  h.silent rfl rfl

theorem reportStand (h : State.Tells answers s t) (k d cause) : State.Tells answers s (t.reportStand k d cause) := by
  have hn := h.noticeIfPresent d (n := standNotice k cause t.auth[k].epoch) fun _ => .inr ⟨nofun, nofun⟩
  simp only [State.reportStand]
  split
  · exact hn
  · exact hn.raise _ _ _ _

theorem standEntry (h : State.Tells answers s t) (k cause) : State.Tells answers s (t.standEntry k cause) := by
  have hh : State.Tells answers s (t.standHolder k cause) := by
    unfold State.standHolder
    repeat' split
    · exact h
    · exact h
    · refine State.Tells.release ?_ _
      exact h.silent rfl rfl
  have hp : State.Tells answers s ((t.standHolder k cause).standParties k) := by
    unfold State.standParties
    split
    · exact endOffer _ _ _ _ (State.Tells.offerGone (hh.withdrawn _ _ _ _) _ _)
    · exact (hh.aborted _ _ _).endMatching _ _
    · exact hh.silent rfl rfl
    · exact hh
  refine State.Tells.reportStand ?_ _ _ _
  exact hp.silent rfl rfl

theorem stand (h : State.Tells answers s t) (k cause) : State.Tells answers s (t.stand k cause) := by
  unfold State.stand
  repeat' split
  · refine State.Tells.reportStand ?_ _ _ _
    exact h.silent rfl rfl
  · exact h
  · exact h.standEntry _ _

theorem standAll (h : State.Tells answers s t) (xs : List Loader) (cause : Cause) :
    State.Tells answers s (xs.foldl (fun s l => s.stand l cause) t) :=
  foldl_inv _ (State.Tells answers s) (fun _ l hu => hu.stand l cause) xs t h

theorem dropRetained (h : State.Tells answers s t) (k) : State.Tells answers s (t.dropRetained k) := by
  unfold State.dropRetained
  split
  · refine State.Tells.release ?_ _
    exact h.silent rfl rfl
  · exact h

theorem dropTaken (h : State.Tells answers s t) (d k x) : State.Tells answers s (t.dropTaken d k x) :=
  State.Tells.dropRetained (h.lost _ _ _ _ _) k

/-! ## The walk and the end of an event (R52) -/

theorem walk (h : State.Tells answers s t) : State.Tells answers s t.walk := by
  refine foldl_inv _ (State.Tells answers s) (fun u e hu => ?_) t.callQueue t h
  unfold State.walkOne
  split
  · exact hu.makeOffer _ _ _
  · exact hu

theorem walkIfCalled (h : State.Tells answers s t) : State.Tells answers s t.walkIfCalled := by
  unfold State.walkIfCalled
  split
  · exact h.walk.silent rfl rfl
  · exact h

theorem finish (h : State.Tells answers s t) : State.Tells answers s t.finish := by
  unfold State.finish
  split
  · exact h.silent rfl rfl
  · exact h.walkIfCalled.silent rfl rfl

/-! ## Chairs (Chapter 2) -/

theorem absentPlace (h : State.Tells answers s t) (d k) : State.Tells answers s (t.absentPlace d k) := by
  unfold State.absentPlace
  repeat' split
  · exact h.dropRetained _
  · exact h
  · exact h.standEntry _ _
  · exact h
  · exact h.standEntry _ _
  · exact h.endOffer_return _ _ _ _
  · exact h
  · exact h.standEntry _ _
  · exact (h.endMatching _ _).returnLoader _
  · exact h
  · exact h

theorem becomeAbsent (h : State.Tells answers s t) (d w) : State.Tells answers s (t.becomeAbsent d w) := by
  have hr : State.Tells answers s ((((t.setChair d t.chairs[d].gone).leaveList d).clearViews d).raise .chairAbsent none (some d) w) := by
    refine State.Tells.raise ?_ _ _ _ _
    exact h.silent rfl rfl
  simp only [State.becomeAbsent]
  split
  · exact hr
  · exact hr.absentPlace _ _

theorem refreshPresence (h : State.Tells answers s t) (d) : State.Tells answers s (t.refreshPresence d) := by
  unfold State.refreshPresence
  split
  · exact h
  · exact h.silent rfl rfl

theorem setAvailable (h : State.Tells answers s t) (d a) : State.Tells answers s (t.setAvailable d a) := by
  have hc (r e w) : State.Tells answers s ((t.setChair d r).raise e none (some d) w) := by
    refine State.Tells.raise ?_ _ _ _ _
    exact h.silent rfl rfl
  simp only [State.setAvailable]
  repeat' split
  · exact h
  · exact (hc _ _ _).silent rfl rfl
  · exact hc _ _ _
  · exact (hc _ _ _).silent rfl rfl

theorem becomePresent (h : State.Tells answers s t) (d a) : State.Tells answers s (t.becomePresent d a) := by
  have hc (r e w) : State.Tells answers s ((t.setChair d r).raise e none (some d) w) := by
    refine State.Tells.raise ?_ _ _ _ _
    exact h.silent rfl rfl
  simp only [State.becomePresent]
  split
  · exact (hc _ _ _).silent rfl rfl
  · exact hc _ _ _

theorem presenceExpiry (s : State) (d) : State.Tells answers s (s.presenceExpiry d) := by
  unfold State.presenceExpiry
  split
  · exact (refl s).becomeAbsent _ _
  · exact refl s

theorem missOffer (h : State.Tells answers s t) (d) : State.Tells answers s (t.missOffer d) := by
  have hm : State.Tells answers s ((t.setChair d { t.chairs[d] with missed := min 3 (t.chairs[d].missed + 1) }).count
      (.chair d offersMissed)) := by
    refine State.Tells.count ?_ _ _
    exact h.silent rfl rfl
  simp only [State.missOffer]
  split
  · refine State.Tells.raise ?_ _ _ _ _
    exact hm.silent rfl rfl
  · exact hm

theorem offerExpiry (s : State) (k) : State.Tells answers s (s.offerExpiry k) := by
  unfold State.offerExpiry
  repeat' split
  · exact State.Tells.endOffer_return (((refl s).withdrawn _ _ _ _).missOffer _) _ _ _ _
  · exact refl s
  · exact refl s

theorem permitEnds (h : State.Tells answers s t) (d k) : State.Tells answers s (t.permitEnds d k) := by
  unfold State.permitEnds
  repeat' split
  · exact (h.dropRetained _).noticeIfPresent _ fun _ => .inr ⟨nofun, nofun⟩
  · exact h
  · exact h.standEntry _ _
  · exact h
  · exact h.standEntry _ _
  · exact (h.withdrawn _ _ _ _).endOffer_return _ _ _ _
  · exact h
  · exact h.standEntry _ _
  · exact ((h.aborted _ _ _).endMatching _ _).returnLoader _
  · exact h
  · exact h

/-! ## COMMAND frames and matchings (Chapter 3) -/

theorem matchTimeout (s : State) (k) : State.Tells answers s (s.matchTimeout k) := by
  unfold State.matchTimeout
  repeat' split
  · exact (((((refl s).notice _ (.inr (by exact ⟨nofun, nofun⟩))).count _ _).raise _ _ _ _).endMatching _ _).returnLoader _
  · exact refl s
  · exact refl s

theorem grant (h : State.Tells answers s t) (k p d o m) : State.Tells answers s (t.grant k p d o m) := by
  have hm : State.Tells answers s ((t.grantMoved k d m).releaseOpt p) := by
    refine State.Tells.releaseOpt ?_ p
    exact h.silent rfl rfl
  rw [State.grant_eq]
  simp only [State.grantReport]
  cases p with
  | none => exact ((hm.notice _ (.inr (by exact ⟨nofun, nofun⟩))).raise _ _ _ _).count _ _
  | some p => exact (((hm.notice _ (.inr (by exact ⟨nofun, nofun⟩))).notice _ (.inr (by exact ⟨nofun, nofun⟩))).raise _ _ _ _).count _ _

theorem commandFrameFrom (s : State) (d h p) : State.Tells answers s (s.commandFrameFrom d h p) := by
  have hs := refl (answers := answers) s
  have hb (k b) : State.Tells answers s (s.setBuilder k b) := hs.silent rfl rfl
  have hw (k b w) : State.Tells answers s (((s.setBuilder k b).count (.chair d framesAccepted)).setWindow k w) :=
    ((hb k b).count _ _).silent rfl rfl
  unfold State.commandFrameFrom
  split
  · exact hs.count _ _
  · dsimp only
    split
    · exact hs.count _ _
    · split
      · split
        · simp only [State.holderFrame]
          split
          · exact (hb _ _).count _ _
          · exact hs.count _ _
        · exact hs.count _ _
      · split
        · split
          · simp only [State.candidateFrame]
            repeat' split
            · exact (hw _ _ _).grant _ _ _ _ _
            · exact hw _ _ _
            · exact hs.count _ _
          · exact hs.count _ _
        · simp only [State.strangerFrame]
          split <;> exact hs.count _ _

/-! ## The Status Unit (Chapter 6) -/

theorem heardStep (h : State.Tells answers s t) (k) : State.Tells answers s (t.heardStep k) := by
  refine State.Tells.count ?_ _ _
  exact h.silent rfl rfl

theorem farEndStep (h : State.Tells answers s t) (k b) : State.Tells answers s (t.farEndStep k b) := by
  have hd (u : State) (hu : State.Tells answers s u) : State.Tells answers s (u.degradeTest k) := by
    have hst (st e w) : State.Tells answers s ((u.setStatus k st).raise e (some k) none w) := by
      refine State.Tells.raise ?_ _ _ _ _
      exact hu.silent rfl rfl
    simp only [State.degradeTest]
    repeat' split
    · exact hst _ _ _
    · exact hst _ _ _
    · exact hu
  simp only [State.farEndStep]
  refine hd _ (State.Tells.count ?_ _ _)
  exact h.silent rfl rfl

theorem zoneStep (h : State.Tells answers s t) (k b) : State.Tells answers s (t.zoneStep k b) := by
  have hz (st) : State.Tells answers s (t.setStatus k st) := h.silent rfl rfl
  simp only [State.zoneStep]
  repeat' split
  · exact h
  · exact ((hz _).raise _ _ _ _).stand _ _
  · exact hz _

theorem requestChanged (h : State.Tells answers s t) (k) : State.Tells answers s (t.requestChanged k) := by
  unfold State.requestChanged
  dsimp only
  repeat' split
  · exact h.enterCalling _ _ _
  · exact h
  · unfold State.resort
    split
    · exact h.silent rfl rfl
    · exact h
  · refine State.Tells.enterFree (State.Tells.raise ?_ _ _ _ _) _
    exact h.silent rfl rfl
  · exact h
  · refine endOffer _ _ _ _ (State.Tells.enterFree (State.Tells.raise ?_ _ _ _ _) _)
    exact ((h.withdrawn _ _ _ _).offerGone _ _).silent rfl rfl
  · exact h

theorem faultReport (h : State.Tells answers s t) (k r) : State.Tells answers s (t.faultReport k r) := by
  simp only [State.faultReport]
  split
  · exact h.raise _ _ _ _
  · exact (h.notice _ (.inr (by exact ⟨nofun, nofun⟩))).raise _ _ _ _

theorem requestStep (h : State.Tells answers s t) (k b) : State.Tells answers s (t.requestStep k b) := by
  have hf (f) : State.Tells answers s (t.setStatus k { t.status[k] with filter := f }) := h.silent rfl rfl
  have hr (f) (r) : State.Tells answers s (((t.setStatus k { t.status[k] with filter := f }).setStatus k
      { (t.setStatus k { t.status[k] with filter := f }).status[k] with accepted := r }).requestChanged k) := by
    refine State.Tells.requestChanged ?_ k
    exact (hf f).silent rfl rfl
  simp only [State.requestStep]
  repeat' split
  · exact (hr _ _).faultReport _ _
  · exact hr _ _
  · exact hf _

theorem modeStep (h : State.Tells answers s t) (k b) : State.Tells answers s (t.modeStep k b) := by
  unfold State.modeStep
  repeat' split
  · refine State.Tells.enterFree (State.Tells.raise ?_ _ _ _ _) _
    exact h.silent rfl rfl
  · exact h
  · exact h

theorem deadline (s : State) (k) : State.Tells answers s (s.deadline k) := by
  have ho : State.Tells answers s (s.enterOutcome k) := by
    simp only [State.enterOutcome]
    split
    · exact (refl s).silent rfl rfl
    · refine State.Tells.count ?_ _ _
      exact (refl s).silent rfl rfl
  unfold State.deadline
  split
  · exact ho.silent rfl rfl
  · exact refl s

theorem linkDownTest (s : State) (k) : State.Tells answers s (s.linkDownTest k) := by
  unfold State.linkDownTest
  split
  · simp only [State.linkGoesDown]
    refine State.Tells.stand (State.Tells.raise ?_ _ _ _ _) _ _
    exact (refl s).silent rfl rfl
  · exact refl s

theorem linkUpTest (s : State) (k) : State.Tells answers s (s.linkUpTest k) := by
  unfold State.linkUpTest
  split
  · simp only [State.linkGoesUp]
    refine State.Tells.raise ?_ _ _ _ _
    exact (refl s).silent rfl rfl
  · exact refl s

theorem readyTest (s : State) (k) : State.Tells answers s (s.readyTest k) := by
  unfold State.readyTest
  repeat' split
  · refine State.Tells.enterFree (State.Tells.raise ?_ _ _ _ _) _
    exact (refl s).silent rfl rfl
  · exact refl s
  · exact refl s

theorem releaseTimeout (s : State) (k) : State.Tells answers s (s.releaseTimeout k) := by
  unfold State.releaseTimeout
  split
  · exact (refl s).standEntry _ _
  · exact refl s

/-! ## Slots (Chapter 4) -/

theorem sendFrame (h : State.Tells answers s t) (k f o) : State.Tells answers s (t.sendFrame k f o) := by
  have hc (u : State) (hu : State.Tells answers s u) : State.Tells answers s (u.countFrame k f) := by
    cases f with
    | stand => exact hu.count _ _
    | neutral => exact hu.count _ _
    | synthesized hold =>
      cases hold with
      | false => exact hu.count _ _
      | true => exact (hu.count _ _).count _ _
  have hs (u : State) (hu : State.Tells answers s u) (p g) : State.Tells answers s (u.levelSend p g) := hu.silent rfl rfl
  simp only [State.sendFrame]
  refine hs _ (hc _ ?_) _ _
  exact h.silent rfl rfl

theorem sendIdle (h : State.Tells answers s t) (k f) : State.Tells answers s (t.sendIdle k f) := by
  refine State.Tells.sendFrame ?_ k f _
  exact h.silent rfl rfl

theorem slotFrame (h : State.Tells answers s t) (k) : State.Tells answers s (t.slotFrame k) := by
  have hd : State.Tells answers s (t.slotDriven k) := by
    simp only [State.slotDriven]
    split
    · exact (h.standEntry _ _).sendIdle _ _
    · refine State.Tells.sendFrame ?_ _ _ _
      exact h.silent rfl rfl
  unfold State.slotFrame
  split
  · exact h
  · exact h.sendIdle _ _
  · exact h.sendIdle _ _
  · exact h.sendIdle _ _
  · exact h.sendIdle _ _
  · exact hd
  · exact hd
  · exact hd
  · exact h.sendIdle _ _
  · exact h.sendIdle _ _

theorem slotOf (h : State.Tells answers s t) (k n) : State.Tells answers s (t.slotOf k n) := by
  simp only [State.slotOf]
  split <;> exact (h.slotFrame k).silent rfl rfl

/-! ## Lines (Chapter 7) -/

theorem activate (h : State.Tells answers s t) (i) : State.Tells answers s (t.activate i) := by
  simp only [State.activate]
  refine State.Tells.standAll (State.Tells.raise ?_ _ _ _ _) _ _
  exact h.silent rfl rfl

theorem becomeSafe (h : State.Tells answers s t) (i) : State.Tells answers s (t.becomeSafe i) := by
  have hl (x e w) : State.Tells answers s ((t.setLine i x).raise e none none w) := by
    refine State.Tells.raise ?_ _ _ _ _
    exact h.silent rfl rfl
  simp only [State.becomeSafe]
  split <;> exact hl _ _ _

theorem moveLine (h : State.Tells answers s t) (i) : State.Tells answers s (t.moveLine i) := by
  obtain he | ⟨_, he⟩ | he := t.moveLine_cases i <;> rw [he]
  · exact h.activate i
  · exact h.becomeSafe i
  · exact h

theorem settleLine (s : State) (i) : State.Tells answers s (s.settleLine i) := by
  simp only [State.settleLine]
  split
  · refine State.Tells.moveLine ?_ i
    exact (refl s).silent rfl rfl
  · exact refl s

theorem acknowledge (h : State.Tells answers s t) (i d) : State.Tells answers s (t.acknowledge i d) := by
  refine State.Tells.raise ?_ _ _ _ _
  exact h.silent rfl rfl

theorem applyLine (h : State.Tells answers s t) (i e) : State.Tells answers s (t.applyLine i e) := by
  have hw : State.Tells answers s (t.withLine i e) := h.silent rfl rfl
  cases he : e.enabled with
  | false =>
    rw [State.applyLine_disabled he]
    split
    · exact hw.silent rfl rfl
    · exact hw
  | true =>
    cases ho : t.tables.lines[i].enabled with
    | false =>
      rw [State.applyLine_enable he ho]
      simp only [State.beginLine]
      refine State.Tells.activate ?_ i
      exact hw.silent rfl rfl
    | true =>
      rw [State.applyLine_changed he ho]
      simp only [State.widenLine]
      split
      · exact hw.moveLine i
      · exact (hw.moveLine i).standAll _ _

/-! ## Tables (Chapter 10) -/

theorem applyChair (h : State.Tells answers s t) (d e) : State.Tells answers s (t.applyChair d e) := by
  have hw : State.Tells answers s { t with tables := { t.tables with chairs := putAt t.tables.chairs d e } } := h.silent rfl rfl
  have htrim (u : State) (hu : State.Tells answers s u) (set) : State.Tells answers s (u.trimViews d set).callWalk :=
    hu.silent rfl rfl
  simp only [State.applyChair]
  refine htrim _ ?_ _
  repeat' split
  · exact hw.becomeAbsent _ _
  · exact hw.becomeAbsent _ _
  · unfold State.narrowPermits
    repeat' split
    · exact hw
    · exact hw
    · exact hw.permitEnds _ _

theorem applyLoader (h : State.Tells answers s t) (k e) : State.Tells answers s (t.applyLoader k e) := by
  have hw : State.Tells answers s (t.withLoader k e) := h.silent rfl rfl
  have hdis : State.Tells answers s ((t.withLoader k e).disableLoader k) := by
    unfold State.disableLoader
    split
    · refine State.Tells.silent (t := (t.withLoader k e).disableStanding k _) ?_ rfl rfl
      simp only [State.disableStanding]
      refine State.Tells.reportStand ?_ _ _ _
      split
      · exact hw.silent rfl rfl
      · exact (hw.dropRetained k).silent rfl rfl
    · exact (hw.standEntry k .disabled).silent rfl rfl
  have hsw (old : Bool) : State.Tells answers s ((t.withLoader k e).switchLoader old e k) := by
    simp only [State.switchLoader]
    repeat' split
    · exact hdis
    · obtain he | he := (t.withLoader k e).enableLoader_cases k <;> rw [he]
      · exact hw
      · exact hw.silent rfl rfl
    · exact hw
  have hcall (u : State) (hu : State.Tells answers s u) : State.Tells answers s u.callWalk := hu.silent rfl rfl
  rw [State.applyLoader_eq]
  refine hcall _ ?_
  split
  · exact hsw _
  · unfold State.resort
    split
    · exact (hsw _).silent rfl rfl
    · exact hsw _

theorem applyEntry (h : State.Tells answers s t) (r) : State.Tells answers s (t.applyEntry r) := by
  have hc : State.Tells answers s { t with writes := t.writes.clear r } := h.silent rfl rfl
  cases r with
  | chair d =>
    simp only [State.applyEntry]
    split
    · exact h
    · exact hc.applyChair _ _
  | loader k =>
    simp only [State.applyEntry]
    split
    · exact h
    · exact hc.applyLoader _ _
  | line i =>
    simp only [State.applyEntry]
    split
    · exact h
    · exact hc.applyLine _ _
  | device => simp only [State.applyEntry]; split <;> exact h.silent rfl rfl
  | mgmtStation => simp only [State.applyEntry]; split <;> exact h.silent rfl rfl
  | zone => simp only [State.applyEntry]; split <;> exact h.silent rfl rfl
  | rule => simp only [State.applyEntry]; split <;> exact h.silent rfl rfl
  | event => simp only [State.applyEntry]; split <;> exact h.silent rfl rfl

theorem tableApplied (s : State) (order b) : State.Tells answers s (s.tableApplied order b) := by
  have happly (u : State) (hu : State.Tells answers s u) : State.Tells answers s (u.applyWrites order) := by
    have hf := foldl_inv State.applyEntry (State.Tells answers s) (fun u r hu => hu.applyEntry r) (order ++ allRefs) u hu
    simp only [State.applyWrites, State.endCommissioning]
    split
    · exact hf.silent rfl rfl
    · exact hf
  have tell (u : State) (hu : State.Tells answers s u) (n d) :
      State.Tells answers s (if n = 0 then u else u.raise .tableApplied none none d) := by
    split
    · exact hu
    · exact hu.raise _ _ _ _
  simp only [State.tableApplied]
  split
  · exact happly _ (tell s (refl s) _ _)
  · exact tell _ (happly s (refl s)) _ _

end State.Tells

end Sys2Proof.Machine
end

section
/-! Command Synthesis: the slew and the deadman (R81-R83), and the phase generator with its draw (R124). -/

namespace Sys2Proof.Machine

open Sys2Proof

/-! ## The slew and the deadman -/

/-- The slew goes from the output toward the target, at most the step limit far and never past it. -/
theorem slew_between (step : Nat) (y t : Int) :
    min y t ≤ slew step y t ∧ slew step y t ≤ max y t ∧ (slew step y t - y).natAbs ≤ step := by
  unfold slew
  split_ifs <;> omega

/-- A step limit as wide as the range of an axis reaches every target at once. -/
theorem slew_wide {y t : Int} (hy : -2047 ≤ y) (hy' : y ≤ 2047) (ht : -2047 ≤ t) (ht' : t ≤ 2047) : slew 4095 y t = t := by
  unfold slew
  split_ifs <;> omega

theorem brakeRelease_getLsbD (n : Nat) : brakeRelease.getLsbD n = decide (n = 2) := by
  have h : brakeRelease = BitVec.twoPow 8 2 := by decide
  rw [h, BitVec.getLsbD_twoPow]
  simp [eq_comm]

/-- Turning BRAKE_RELEASE off leaves every other switch. -/
theorem switches_without_brakeRelease (b : Byte) (n : Nat) : (b &&& ~~~brakeRelease).getLsbD n = (b.getLsbD n && n ≠ 2) := by
  rw [BitVec.getLsbD_and, BitVec.getLsbD_not, brakeRelease_getLsbD]
  cases hb : b.getLsbD n
  · rfl
  · have hn : n < 8 := BitVec.lt_of_getLsbD hb
    simp [hn]

/-! ## One step of the phase generator -/

theorem topDigit_getLsbD (d : Bool) (n : Nat) : (if d then 0x8000 else 0 : Word16).getLsbD n = (d && n = 15) := by
  have h : (0x8000 : Word16) = BitVec.twoPow 16 15 := by decide
  cases d
  · simp
  · rw [if_pos rfl, h, BitVec.getLsbD_twoPow]
    simp [eq_comm]

/-- Every digit moves one place toward digit 0. -/
theorem phaseStep_getLsbD (r : Word16) {n : Nat} (h : n < 15) : (phaseStep r).getLsbD n = r.getLsbD (n + 1) := by
  have hn : n ≠ 15 := by omega
  simp only [phaseStep, BitVec.getLsbD_or, BitVec.getLsbD_ushiftRight, topDigit_getLsbD, hn, decide_false, Bool.and_false,
    Bool.or_false, Nat.add_comm]

/-- The exclusive-or of digits 0, 2, 3 and 5 enters at digit 15. -/
theorem phaseStep_top (r : Word16) :
    (phaseStep r).getLsbD 15 = (r.getLsbD 0 ^^ r.getLsbD 2 ^^ r.getLsbD 3 ^^ r.getLsbD 5) := by
  simp only [phaseStep, BitVec.getLsbD_or, BitVec.getLsbD_ushiftRight, topDigit_getLsbD]
  simp

/-- A step can be undone: the digits that moved are all but digit 0, which the new one gives back. -/
theorem phaseStep_injective : Function.Injective phaseStep := by
  intro r q h
  have moved (n : Nat) (hn : n < 15) : r.getLsbD (n + 1) = q.getLsbD (n + 1) := by
    rw [← phaseStep_getLsbD r hn, ← phaseStep_getLsbD q hn, h]
  have top := congrArg (·.getLsbD 15) h
  simp only [phaseStep_top, moved 1 (by decide), moved 2 (by decide), moved 4 (by decide), Bool.xor_left_inj] at top
  refine BitVec.eq_of_getLsbD_eq fun n hn => ?_
  cases n with
  | zero => exact top
  | succ n => exact moved n (by omega)

theorem phaseStep_ne_zero {r : Word16} (h : r ≠ 0) : phaseStep r ≠ 0 := fun hz => h (phaseStep_injective hz)

theorem phaseAfter_phaseStep (r : Word16) (n : Nat) : phaseAfter (phaseStep r) n = phaseAfter r (n + 1) := by
  induction n with
  | zero => rfl
  | succ n ih => exact congrArg phaseStep ih

/-! ## The draw -/

/-- The view entry draws a phase. -/
def ViewEntry.draws (e : ViewEntry) : Bool := e.active && e.random

/-- Every view entry, in the order of the draw. -/
def viewRefs : List (Chair × Loader) := allChairs.flatMap fun c => allLoaders.map fun l => (c, l)

/-- The draw of the entry a pair names. -/
def State.drawAt (s : State) (x : Chair × Loader) : State := s.drawOne x.1 x.2

theorem State.drawPhases_eq (s : State) : s.drawPhases = viewRefs.foldl State.drawAt s := by
  rw [viewRefs, List.foldl_flatMap]
  simp only [List.foldl_map]
  rfl

theorem State.drawAt_draws {s : State} {x : Chair × Loader} (h : s.views[x.1][x.2].draws = true) :
    s.drawAt x = { s.setView x.1 x.2 { s.views[x.1][x.2] with
      phase := (phaseStep s.phaseGen).toNat % s.views[x.1][x.2].period } with phaseGen := phaseStep s.phaseGen } := by
  simp only [State.drawAt, State.drawOne]
  exact if_pos h

theorem State.drawAt_passes {s : State} {x : Chair × Loader} (h : s.views[x.1][x.2].draws = false) : s.drawAt x = s := by
  simp only [State.drawAt, State.drawOne]
  exact if_neg (by rw [ViewEntry.draws] at h; rw [h]; decide)

theorem State.setView_get (s : State) (c d : Chair) (k l : Loader) (e : ViewEntry) :
    (s.setView c k e).views[d][l] = if (c, k) = (d, l) then e else s.views[d][l] := by
  simp only [State.setView, putAt_get, Prod.mk.injEq]
  by_cases hc : c = d
  · subst hc
    by_cases hk : k = l <;> simp [-Fin.getElem_fin, hk, putAt_get]
  · simp [-Fin.getElem_fin, hc]

/-- What the draw of some entries makes of a state: the generator stepped once for each that draws, and each of these with the
phase its turn gives. -/
structure State.Drawn (s : State) (xs : List (Chair × Loader)) (t : State) : Prop where
  phaseGen : t.phaseGen = phaseAfter s.phaseGen xs.length
  view : ∀ x : Chair × Loader, t.views[x.1][x.2] =
    if x ∈ xs then { s.views[x.1][x.2] with
      phase := (phaseAfter s.phaseGen (xs.idxOf x + 1)).toNat % s.views[x.1][x.2].period }
    else s.views[x.1][x.2]
  rest : t = { s with views := t.views, phaseGen := t.phaseGen }

/-- An entry that draws, then others. -/
theorem State.Drawn.cons {s t : State} {x : Chair × Loader} {xs : List (Chair × Loader)}
    (hd : s.views[x.1][x.2].draws = true) (hx : x ∉ xs) (h : (s.drawAt x).Drawn xs t) : s.Drawn (x :: xs) t := by
  obtain ⟨hg, hv, hr⟩ := h
  rw [State.drawAt_draws hd] at hg hv hr
  constructor
  · rw [hg, phaseAfter_phaseStep, List.length_cons]
  · intro y
    rw [hv y]
    simp only [State.setView_get, phaseAfter_phaseStep, Prod.mk.eta]
    by_cases hy : x = y
    · subst hy
      simp [-Fin.getElem_fin, hx, phaseAfter]
    · simp [-Fin.getElem_fin, hy, Ne.symm hy, List.idxOf_cons_ne]
  · rw [hr]
    rfl

theorem State.foldl_drawAt (xs : List (Chair × Loader)) (hn : xs.Nodup) (s : State) :
    s.Drawn (xs.filter fun x => s.views[x.1][x.2].draws) (xs.foldl State.drawAt s) := by
  induction xs generalizing s with
  | nil => exact ⟨rfl, fun _ => rfl, rfl⟩
  | cons x xs ih =>
    obtain ⟨hx, hxs⟩ := List.nodup_cons.mp hn
    have same : (xs.filter fun y => (s.drawAt x).views[y.1][y.2].draws) = xs.filter fun y => s.views[y.1][y.2].draws := by
      refine List.filter_congr fun y hy => ?_
      have hne : x ≠ y := fun he => hx (he ▸ hy)
      cases hd : s.views[x.1][x.2].draws
      · rw [State.drawAt_passes hd]
      · rw [State.drawAt_draws hd]
        simp only [State.setView_get, Prod.mk.eta, hne, if_false]
    have hrest := ih hxs (s.drawAt x)
    rw [same] at hrest
    rw [List.foldl_cons, List.filter_cons]
    split
    · next hd => exact hrest.cons hd fun hm => hx (List.mem_filter.mp hm).1
    · next hd =>
      rwa [State.drawAt_passes (Bool.eq_false_iff.mpr hd)] at hrest ⊢

theorem viewRefs_nodup : viewRefs.Nodup := by decide +kernel

/-- A boundary's draw (R124). -/
theorem State.drawPhases_drawn (s : State) : s.Drawn s.drawn s.drawPhases := by
  rw [State.drawPhases_eq]
  exact s.foldl_drawAt viewRefs viewRefs_nodup

end Sys2Proof.Machine

namespace Sys2Proof

open Machine

/-- Settles O56. -/
theorem slewAndDeadman : Obligations.SlewAndDeadman := by
  intro step y t e g last m
  obtain ⟨hlo, hhi, hstep⟩ := slew_between step y t
  refine ⟨rfl, hlo, hhi, hstep, fun h1 h2 h3 h4 => slew_wide h1 h2 h3 h4, ?_⟩
  cases hm : m.held
  · simp only [synthesize, hm, slewAxes, targets, switches_without_brakeRelease, Bool.false_or, Bool.false_eq_true, if_false]
    simp
  · simp [synthesize, hm, slewAxes, targets]

/-- Settles O57. -/
theorem phaseGeneratorSteps : Obligations.PhaseGeneratorSteps := by
  intro r q s
  obtain ⟨hgen, hview, hrest⟩ := s.drawPhases_drawn
  exact ⟨⟨hgen, fun c l => hview (c, l), hrest⟩, fun n hn => phaseStep_getLsbD r hn, phaseStep_top r,
    fun h => phaseStep_injective h, phaseStep_ne_zero⟩

end Sys2Proof
end

section
/-! The forms of Chapter 8 read back: each table entry (R147), the configuration image (R148), and what a read-back that differs
from the image shows (R172). -/

namespace Sys2Proof.Machine

open Sys2Proof

/-! ## Table entries (R147) -/

theorem byteOfBool_getLsbD (b : Bool) : (byteOfBool b).getLsbD 0 = b := by cases b <;> rfl

theorem flagBits_getLsbD (a b c : Bool) :
    (flagBits a b c).getLsbD 0 = a ∧ (flagBits a b c).getLsbD 1 = b ∧ (flagBits a b c).getLsbD 2 = c := by
  revert a b c
  decide

theorem signed16_toInt {x : Int} (h : -32768 ≤ x) (h' : x < 32768) : (signed16 x).toInt = x := by
  rw [signed16, BitVec.toInt_ofInt]
  exact Int.bmod_eq_of_le (by omega) (by omega)

theorem indexOfByte_byteOfIndex {n : Nat} (hn : n ≤ 255) (x : Option (Fin n)) : indexOfByte n (byteOfIndex x) = x := by
  cases x with
  | none =>
    have h : ¬ (0xFF : Byte).toNat < n := by
      rw [show (0xFF : Byte).toNat = 255 from rfl]
      omega
    exact dif_neg h
  | some i => exact indexOfByte_byteOf (by omega) i

theorem RuleAction.ofCode_code (a : RuleAction) : RuleAction.ofCode a.code = some a := by cases a <;> rfl

theorem within_le {lo hi n : Nat} (h : within lo hi n = true) : n ≤ hi := by
  simp only [within, Bool.and_eq_true, decide_eq_true_eq] at h
  exact h.2

theorem DeviceEntry.decode_encode {e : DeviceEntry} (h : e.valid = true) : DeviceEntry.decode e.encode = some e := by
  have hv := h
  simp only [DeviceEntry.valid, Bool.and_eq_true] at h
  obtain ⟨⟨⟨⟨⟨⟨⟨⟨⟨⟨⟨⟨⟨⟨⟨-, hp⟩, ho⟩, hm⟩, hr⟩, hs⟩, hh⟩, hl⟩, hc⟩, hql⟩, hqc⟩, hd⟩, hu⟩, hg⟩, hk⟩, -⟩ := h
  have ranges := And.intro (within_le hp) (And.intro (within_le ho) (And.intro (within_le hm) (And.intro (within_le hr)
    (And.intro (within_le hs) (And.intro (within_le hh) (And.intro (within_le hl) (And.intro (within_le hc)
    (And.intro (within_le hql) (And.intro (within_le hqc) (And.intro (within_le hd) (And.intro (within_le hu)
    (And.intro (within_le hg) (within_le hk)))))))))))))
  clear hp ho hm hr hs hh hl hc hql hqc hd hu hg hk
  cases e
  simp only at ranges
  simp only [DeviceEntry.encode, bytes16, List.cons_append, List.nil_append, DeviceEntry.decode, word16_own_bytes]
  rw [byteOf_toNat (by omega), byteOf_toNat (by omega), byteOf_toNat (by omega), byteOf_toNat (by omega),
    byteOf_toNat (by omega), byteOf_toNat (by omega), byteOf_toNat (by omega), byteOf_toNat (by omega),
    byteOf_toNat (by omega), byteOf_toNat (by omega), byteOf_toNat (by omega), byteOf_toNat (by omega),
    wordOf_toNat (by omega), byteOf_toNat (by omega), if_pos hv]

theorem MgmtEntry.decode_encode {e : MgmtEntry} (h : e.valid = true) : MgmtEntry.decode e.encode = some e := by
  simp only [MgmtEntry.encode, bytes16, List.cons_append, List.nil_append, MgmtEntry.decode, word16_own_bytes,
    byteOfBool_getLsbD]
  exact if_pos h

theorem ChairEntry.decode_encode {e : ChairEntry} (h : e.valid = true) : ChairEntry.decode e.encode = some e := by
  obtain ⟨h0, h1, -⟩ := flagBits_getLsbD e.enabled e.takesCalls false
  have hrole : decide ((if e.supervisor then 0x02 else 0x01 : Byte) = 0x02) = e.supervisor := by
    cases e.supervisor <;> rfl
  have hcode : (decide ((if e.supervisor then 0x02 else 0x01 : Byte) = 0x01)
      || decide ((if e.supervisor then 0x02 else 0x01 : Byte) = 0x02)) = true := by
    cases e.supervisor <;> rfl
  simp only [ChairEntry.encode, bytes16, List.cons_append, List.nil_append, ChairEntry.decode, word16_own_bytes, h0, h1,
    hrole]
  rw [hrole] at hcode
  rw [hcode]
  exact if_pos (by rw [Bool.and_true]; exact h)

theorem AxisLimits.decode_encode {a : AxisLimits} (h : a.valid = true) : AxisLimits.decode a.encode = a := by
  obtain ⟨hmin, hlo, hhi, hmax⟩ := AxisLimits.bounds_of_valid h
  simp only [AxisLimits.valid, Bool.and_eq_true] at h
  obtain ⟨⟨-, hs⟩, ht⟩ := h
  have hs' := within_le hs
  have ht' := within_le ht
  simp only [AxisLimits.encode, bytes16, List.cons_append, List.nil_append, AxisLimits.decode, word16_own_bytes]
  rw [signed16_toInt (by omega) (by omega), signed16_toInt (by omega) (by omega), wordOf_toNat (by omega),
    wordOf_toNat (by omega)]

theorem AxisLimits.encode_length (a : AxisLimits) : a.encode.length = 8 := rfl

theorem LoaderEntry.decode_encode {e : LoaderEntry} (h : e.valid = true) : LoaderEntry.decode e.encode = some e := by
  have hv := h
  simp only [LoaderEntry.valid, Bool.and_eq_true] at h
  obtain ⟨⟨⟨⟨⟨-, hp⟩, ht⟩, hs⟩, hb⟩, hk⟩ := h
  have hp' := within_le hp
  have hslot : indexOfByte 16 (byteOf e.slot.val) = some e.slot := indexOfByte_byteOf (by decide) e.slot
  have hport : (decide (portCode e.port = 0x00) || decide (portCode e.port = 0x01)) = true := by cases e.port <;> rfl
  have hport' : (if portCode e.port = 0x01 then LevelPort.b else .a) = e.port := by cases e.port <;> rfl
  have hlen : (e.throttle.encode ++ (e.steer.encode ++ (e.boom.encode ++ e.bucket.encode))).length = 32 := rfl
  have d8 : (e.throttle.encode ++ (e.steer.encode ++ (e.boom.encode ++ e.bucket.encode))).drop 8
      = e.steer.encode ++ (e.boom.encode ++ e.bucket.encode) := List.drop_left' rfl
  have d16 : (e.throttle.encode ++ (e.steer.encode ++ (e.boom.encode ++ e.bucket.encode))).drop 16
      = e.boom.encode ++ e.bucket.encode := by
    rw [show 16 = 8 + 8 from rfl, ← List.drop_drop, d8]
    exact List.drop_left' rfl
  have d24 : (e.throttle.encode ++ (e.steer.encode ++ (e.boom.encode ++ e.bucket.encode))).drop 24 = e.bucket.encode := by
    rw [show 24 = 16 + 8 from rfl, ← List.drop_drop, d16]
    exact List.drop_left' rfl
  simp only [LoaderEntry.encode, bytes16, List.cons_append, List.nil_append, List.append_assoc, LoaderEntry.decode,
    word16_own_bytes, hlen, hport, decide_true, Bool.and_self, if_true, hslot, hport', byteOfBool_getLsbD, d8, d16, d24]
  rw [List.take_left' e.throttle.encode_length, List.take_left' e.steer.encode_length,
    List.take_left' e.boom.encode_length, AxisLimits.decode_encode ht,
    AxisLimits.decode_encode hs, AxisLimits.decode_encode hb, AxisLimits.decode_encode hk, byteOf_toNat (by omega)]
  exact if_pos hv

theorem ZoneEntry.decode_encode {e : ZoneEntry} (h : e.valid = true) : ZoneEntry.decode e.encode = some e := by
  have hg := within_le h
  have hb : indexOfByte 4 (byteOfIndex e.beacon) = e.beacon := indexOfByte_byteOfIndex (by decide) e.beacon
  have hcode : (decide ((byteOfIndex e.beacon).toNat < 4) || decide (byteOfIndex e.beacon = 0xFF)) = true := by
    cases hx : e.beacon with
    | none => rfl
    | some i =>
      rw [hx] at hb
      have hi : (byteOfIndex (some i)).toNat < 4 := by
        by_contra hn
        rw [indexOfByte, dif_neg hn] at hb
        exact absurd hb (by simp)
      rw [decide_eq_true hi, Bool.true_or]
  simp only [ZoneEntry.encode, bytes16, List.cons_append, List.nil_append, ZoneEntry.decode, word16_own_bytes, hb, hcode,
    Bool.and_true]
  rw [wordOf_toNat (by omega)]
  exact if_pos h

theorem LineEntry.decode_encode {e : LineEntry} (h : e.valid = true) : LineEntry.decode e.encode = some e := by
  have hd := within_le h
  obtain ⟨h0, h1, h2⟩ := flagBits_getLsbD e.enabled e.openIsActive e.latching
  simp only [LineEntry.encode, LineEntry.decode, h0, h1, h2]
  rw [byteOf_toNat (by omega)]
  exact if_pos h

theorem RuleEntry.decode_encode (e : RuleEntry) : RuleEntry.decode e.encode = some e := by
  simp only [RuleEntry.encode, bytes16, List.cons_append, List.nil_append, RuleEntry.decode, word16_own_bytes,
    byteOfBool_getLsbD, RuleAction.ofCode_code]

theorem EventEntry.decode_encode (e : EventEntry) : EventEntry.decode e.encode = some e := by
  obtain ⟨h0, h1, h2⟩ := flagBits_getLsbD e.log e.attn e.notify
  simp only [EventEntry.encode, EventEntry.decode, h0, h1, h2]

/-! ## The image (R148) -/

section entries
variable {α : Type} {size : Nat} {encode : α → List Byte} {decode : List Byte → Option α}

theorem flatMap_length (hsize : ∀ x, (encode x).length = size) (xs : List α) :
    (xs.flatMap encode).length = size * xs.length := by
  induction xs with
  | nil => rfl
  | cons x xs ih => rw [List.flatMap_cons, List.length_append, hsize, ih, List.length_cons, Nat.mul_succ, Nat.add_comm]

/-- Entries written one after another are read back one after another. -/
theorem decodeEntries_flatMap (hsize : ∀ x, (encode x).length = size) (xs : List α)
    (hdec : ∀ x ∈ xs, decode (encode x) = some x) (rest : List Byte) :
    decodeEntries size decode xs.length (xs.flatMap encode ++ rest) = some xs := by
  induction xs with
  | nil => rfl
  | cons x xs ih =>
    have ih' := ih fun y hy => hdec y (List.mem_cons_of_mem _ hy)
    simp only [List.length_cons, decodeEntries, List.flatMap_cons, List.append_assoc, List.take_left' (hsize x),
      hdec x List.mem_cons_self, List.drop_left' (hsize x), ih']

/-- A table is read back from an image that holds it at its position. -/
theorem imageTable_eq {image before rest : List Byte} {n at_ : Nat} {v : Vector α n}
    (hsize : ∀ x, (encode x).length = size) (himage : image = before ++ (v.toList.flatMap encode ++ rest))
    (hat : before.length = at_) (hdec : ∀ i : Fin n, decode (encode v[i]) = some v[i]) :
    imageTable image at_ size n decode = some v := by
  have hmem (x) (hx : x ∈ v.toList) : decode (encode x) = some x := by
    obtain ⟨i, hi, rfl⟩ := List.getElem_of_mem hx
    exact hdec ⟨i, by simpa using hi⟩
  have hread := decodeEntries_flatMap hsize v.toList hmem rest
  rw [Vector.length_toList] at hread
  rw [imageTable, himage, List.drop_left' hat, hread]
  exact (dif_pos Vector.length_toList).trans rfl

end entries

section image
variable (t : Tables)

theorem mgmt_bytes_length : (t.mgmt.toList.flatMap MgmtEntry.encode).length = 6 := by
  rw [flatMap_length (size := 3) fun _ => rfl, Vector.length_toList]

theorem chairs_bytes_length : (t.chairs.toList.flatMap ChairEntry.encode).length = 64 := by
  rw [flatMap_length (size := 8) fun _ => rfl, Vector.length_toList]

theorem loaders_bytes_length : (t.loaders.toList.flatMap LoaderEntry.encode).length = 608 := by
  rw [flatMap_length (size := 38) fun _ => rfl, Vector.length_toList]

theorem zones_bytes_length : (t.zones.toList.flatMap ZoneEntry.encode).length = 24 := by
  rw [flatMap_length (size := 3) fun _ => rfl, Vector.length_toList]

theorem lines_bytes_length : (t.lines.toList.flatMap LineEntry.encode).length = 24 := by
  rw [flatMap_length (size := 3) fun _ => rfl, Vector.length_toList]

theorem rules_bytes_length : (t.rules.toList.flatMap RuleEntry.encode).length = 224 := by
  rw [flatMap_length (size := 14) fun _ => rfl, Vector.length_toList]

theorem events_bytes_length : (t.events.toList.flatMap EventEntry.encode).length = 64 := by
  rw [flatMap_length (size := 1) fun _ => rfl, Vector.length_toList]

/-- The first four bytes of an image. -/
def imageHead : List Byte := bytes16 imageCode ++ bytes16 imageBody

theorem imageHead_length : imageHead.length = 4 := rfl

theorem bytes16_length (w : Word16) : (bytes16 w).length = 2 := rfl

theorem DeviceEntry.encode_length (e : DeviceEntry) : e.encode.length = 18 := rfl

/-- The image: its head, the eight tables in their order, the check word. -/
theorem Tables.image_eq : t.image = imageHead ++ (t.device.encode ++ (t.mgmt.toList.flatMap MgmtEntry.encode
    ++ (t.chairs.toList.flatMap ChairEntry.encode ++ (t.loaders.toList.flatMap LoaderEntry.encode
    ++ (t.zones.toList.flatMap ZoneEntry.encode ++ (t.lines.toList.flatMap LineEntry.encode
    ++ (t.rules.toList.flatMap RuleEntry.encode ++ (t.events.toList.flatMap EventEntry.encode
    ++ bytes16 (checkWord (bytes16 imageCode ++ bytes16 imageBody ++ t.encode)))))))))) := by
  simp only [Tables.image, Tables.encode, imageHead, List.append_assoc]

theorem Tables.image_length : t.image.length = imageLength := by
  rw [Tables.image_eq]
  simp only [List.length_append, mgmt_bytes_length, chairs_bytes_length, loaders_bytes_length, zones_bytes_length,
    lines_bytes_length, rules_bytes_length, events_bytes_length, imageHead_length, DeviceEntry.encode_length, bytes16_length]
  rfl

theorem Tables.ofImage_image (h : t.Valid) : Tables.ofImage t.image = some t := by
  obtain ⟨hd, hm, hc, hl, hz, hn, hdis⟩ := h
  have htables := t.image_eq
  have device : (t.image.drop 4).take 18 = t.device.encode := by
    rw [htables, List.drop_left' imageHead_length, List.take_left' t.device.encode_length]
  have mgmt : imageTable t.image 22 3 2 MgmtEntry.decode = some t.mgmt :=
    imageTable_eq (before := imageHead ++ t.device.encode) (fun _ => rfl)
      (by rw [htables]; simp only [List.append_assoc]; rfl) rfl fun i => MgmtEntry.decode_encode (hm i)
  have chairs : imageTable t.image 28 8 8 ChairEntry.decode = some t.chairs :=
    imageTable_eq (before := imageHead ++ (t.device.encode ++ t.mgmt.toList.flatMap MgmtEntry.encode)) (fun _ => rfl)
      (by rw [htables]; simp only [List.append_assoc]; rfl)
      (by simp only [List.length_append, imageHead_length, DeviceEntry.encode_length, mgmt_bytes_length]) fun i => ChairEntry.decode_encode (hc i)
  have loaders : imageTable t.image 92 38 16 LoaderEntry.decode = some t.loaders :=
    imageTable_eq (before := imageHead ++ (t.device.encode ++ (t.mgmt.toList.flatMap MgmtEntry.encode
      ++ t.chairs.toList.flatMap ChairEntry.encode))) (fun _ => rfl)
      (by rw [htables]; simp only [List.append_assoc]; rfl)
      (by simp only [List.length_append, imageHead_length, DeviceEntry.encode_length, mgmt_bytes_length, chairs_bytes_length])
      fun i => LoaderEntry.decode_encode (hl i)
  have zones : imageTable t.image 700 3 8 ZoneEntry.decode = some t.zones :=
    imageTable_eq (before := imageHead ++ (t.device.encode ++ (t.mgmt.toList.flatMap MgmtEntry.encode
      ++ (t.chairs.toList.flatMap ChairEntry.encode ++ t.loaders.toList.flatMap LoaderEntry.encode)))) (fun _ => rfl)
      (by rw [htables]; simp only [List.append_assoc]; rfl)
      (by simp only [List.length_append, imageHead_length, DeviceEntry.encode_length, mgmt_bytes_length, chairs_bytes_length, loaders_bytes_length])
      fun i => ZoneEntry.decode_encode (hz i)
  have lines : imageTable t.image 724 3 8 LineEntry.decode = some t.lines :=
    imageTable_eq (before := imageHead ++ (t.device.encode ++ (t.mgmt.toList.flatMap MgmtEntry.encode
      ++ (t.chairs.toList.flatMap ChairEntry.encode ++ (t.loaders.toList.flatMap LoaderEntry.encode
      ++ t.zones.toList.flatMap ZoneEntry.encode))))) (fun _ => rfl)
      (by rw [htables]; simp only [List.append_assoc]; rfl)
      (by simp only [List.length_append, imageHead_length, DeviceEntry.encode_length, mgmt_bytes_length, chairs_bytes_length, loaders_bytes_length,
        zones_bytes_length])
      fun i => LineEntry.decode_encode (hn i)
  have rules : imageTable t.image 748 14 16 RuleEntry.decode = some t.rules :=
    imageTable_eq (before := imageHead ++ (t.device.encode ++ (t.mgmt.toList.flatMap MgmtEntry.encode
      ++ (t.chairs.toList.flatMap ChairEntry.encode ++ (t.loaders.toList.flatMap LoaderEntry.encode
      ++ (t.zones.toList.flatMap ZoneEntry.encode ++ t.lines.toList.flatMap LineEntry.encode)))))) (fun _ => rfl)
      (by rw [htables]; simp only [List.append_assoc]; rfl)
      (by simp only [List.length_append, imageHead_length, DeviceEntry.encode_length, mgmt_bytes_length, chairs_bytes_length, loaders_bytes_length,
        zones_bytes_length, lines_bytes_length])
      fun i => RuleEntry.decode_encode _
  have events : imageTable t.image 972 1 64 EventEntry.decode = some t.events :=
    imageTable_eq (before := imageHead ++ (t.device.encode ++ (t.mgmt.toList.flatMap MgmtEntry.encode
      ++ (t.chairs.toList.flatMap ChairEntry.encode ++ (t.loaders.toList.flatMap LoaderEntry.encode
      ++ (t.zones.toList.flatMap ZoneEntry.encode ++ (t.lines.toList.flatMap LineEntry.encode
      ++ t.rules.toList.flatMap RuleEntry.encode))))))) (fun _ => rfl)
      (by rw [htables]; simp only [List.append_assoc]; rfl)
      (by simp only [List.length_append, imageHead_length, DeviceEntry.encode_length, mgmt_bytes_length, chairs_bytes_length, loaders_bytes_length,
        zones_bytes_length, lines_bytes_length, rules_bytes_length])
      fun i => EventEntry.decode_encode _
  simp only [Tables.ofImage, device, DeviceEntry.decode_encode hd, mgmt, chairs, loaders, zones, lines, rules, events, hdis,
    if_true]

/-- The image of valid tables passes the checks of R171 and is read as those tables. -/
theorem judgeImage_image (h : t.Valid) : judgeImage (.bytes t.image) = .inl t := by
  have hread : t.image.take imageLength = t.image := List.take_of_length_le (by rw [t.image_length])
  have hlen : ¬ t.image.length < imageLength := by rw [t.image_length]; exact Nat.lt_irrefl _
  have hhead : t.image.take 4 = bytes16 imageCode ++ bytes16 imageBody := by
    rw [t.image_eq]
    exact List.take_left' rfl
  have hcheck : checkWord t.image = 0 := checkWord_closed _
  simp only [judgeImage, hread, hlen, if_false, hhead, hcheck, ne_eq, not_true_eq_false, Tables.ofImage_image t h]

end image

/-! ## Read-backs (R172) -/

theorem firstDifference_self (xs : List Byte) (n : Nat) : firstDifference xs xs n = none := by
  induction xs generalizing n with
  | nil => rfl
  | cons x xs ih => exact (if_pos rfl).trans (ih (n + 1))

/-- A read-back that agrees with what was written before a position and differs there shows that position. -/
theorem firstDifference_eq {written back : List Byte} {p : Nat} (hp : p < written.length) (hb : p < back.length)
    (hsame : back.take p = written.take p) (hdiff : back[p]? ≠ written[p]?) (n : Nat) :
    firstDifference written back n = some (n + p) := by
  induction p generalizing written back n with
  | zero =>
    obtain ⟨w, ws, rfl⟩ := List.exists_cons_of_length_pos hp
    obtain ⟨b, bs, rfl⟩ := List.exists_cons_of_length_pos hb
    have hne : w ≠ b := fun h => hdiff (congrArg some h.symm)
    exact if_neg hne
  | succ p ih =>
    obtain ⟨w, ws, rfl⟩ := List.exists_cons_of_length_pos (Nat.zero_lt_of_lt hp)
    obtain ⟨b, bs, rfl⟩ := List.exists_cons_of_length_pos (Nat.zero_lt_of_lt hb)
    rw [List.take_succ_cons, List.take_succ_cons, List.cons.injEq] at hsame
    obtain ⟨rfl, hs⟩ := hsame
    have hrest := ih (Nat.lt_of_succ_lt_succ hp) (Nat.lt_of_succ_lt_succ hb) hs hdiff (n + 1)
    rw [firstDifference, if_pos rfl, hrest, Nat.add_right_comm, Nat.add_assoc]

end Sys2Proof.Machine

namespace Sys2Proof

open Machine

/-- Settles O5. -/
theorem imageRoundTrip : Obligations.ImageRoundTrip := fun t h => judgeImage_image t h

/-- Settles O25. -/
theorem frameRoundTrip : Obligations.FrameRoundTrip := fun marker _ hlen hfits => judgeBurst_frameBurst marker hlen hfits

/-- Settles O6. -/
theorem saveEndReportsTheSave : Obligations.SaveEndReportsTheSave := by
  intro s snapshot hr hphase idle
  have run (read : MemoryRead) : exec (.saveEnd read) s = .next (s.saveEnd read).finish := congrArg _ (hr.run _)
  have told (name : EventName) (detail : Word16) : (idle.raise name none none detail).finish = idle.raise name none none detail :=
    State.finish_quiet hr.1 rfl rfl rfl rfl rfl
  have ended (read : MemoryRead) : s.saveEnd read = match read with
      | .noAnswer => idle.raise .configSaveFailed none none 0xFFFF
      | .bytes back => match firstDifference snapshot.image back 0 with
        | none => idle.raise .configSaved
        | some position => idle.raise .configSaveFailed none none (wordOf position) := by
    simp only [State.saveEnd, hphase]
    rfl
  refine ⟨?equal, ?silent, fun back p hp hlen hsame hdiff => ?differs⟩
  case equal => rw [run, ended]; simp only [firstDifference_self]; exact congrArg _ (told _ _)
  case silent => rw [run, ended]; exact congrArg _ (told _ _)
  case differs =>
    have hpi : p < snapshot.image.length := by
      rw [snapshot.image_length]
      omega
    rw [run, ended]
    simp only [firstDifference_eq hpi hp hsame hdiff 0, Nat.zero_add]
    exact congrArg _ (told _ _)

end Sys2Proof
end

section
/-! Power-on and the end of the load (R171), commands that have no effect, the cycle start (R94), the sampling of the lines (R126) and
the port links (R149). -/

namespace Sys2Proof.Machine

open Sys2Proof

/-- An event that calls for no walk and changes no record, zone or table ends as it stands. -/
theorem State.BeaconsShow.finish_shown {s t : State} (h : s.BeaconsShow) (hw : t.walkCalled = s.walkCalled)
    (hb : t.beacons = s.beacons) (ha : t.auth = s.auth) (hs : t.status = s.status) (ht : t.tables = s.tables) :
    t.finish = t := by
  obtain ⟨hcalled, hshown⟩ := h
  rw [State.finish_idle (hw.trans hcalled), State.setBeacons_shown hshown hb ha hs ht]

/-- An event raised by a state that reporting reads like another. -/
theorem State.SameReporting.raise_eq {s t : State} (h : s.SameReporting t) (name : EventName) (l c d) :
    t.raise name l c d = { t with rep := t.rep.raise s ⟨name, l, c, d⟩ } :=
  congrArg (fun r => { t with rep := r }) (Report.raise_same h _ _)

theorem State.SameReporting.count_eq {s t : State} (h : s.SameReporting t) (id n) :
    t.count id n = { t with rep := t.rep.count s id n } :=
  congrArg (fun r => { t with rep := r }) (Report.count_same h _ _ _)

theorem State.SameReporting.notice_eq {s t : State} (h : s.SameReporting t) (c n) :
    t.notice c n = { t with rep := t.rep.notice s c n } :=
  congrArg (fun r => { t with rep := r }) (Report.notice_same h _ _ _)

/-! ## Records at rest -/

/-- No beacon is on while every loader stands (R135). -/
theorem State.beaconOn_of_standing {s : State} (h : ∀ l : Loader, s.auth[l].state.isStanding = true) (n : Beacon) :
    s.beaconOn n = false := by
  simp [-Fin.getElem_fin, State.beaconOn, AuthState.driven, h]

theorem State.powerOnValues_beacons (t : Tables) (com : Bool) (config : ConfigLoader) (pins signal) (n : Beacon) :
    (State.powerOnValues t com config pins signal).beacons[n] = false := Vector.getElem_replicate _

theorem State.powerOnValues_beaconOn (t : Tables) (com : Bool) (config : ConfigLoader) (pins signal) (n : Beacon) :
    (State.powerOnValues t com config pins signal).beaconOn n = false := by
  refine State.beaconOn_of_standing (fun l => ?_) n
  change (mapAll AuthRecord.initial t.loaders)[l].state.isStanding = true
  rw [mapAll_get]
  rfl

theorem Report.initial_countersRight : Report.initial.CountersRight :=
  ⟨fun l k => by simp [Report.initial], fun c k => by simp [Report.initial], fun k => by simp [Report.initial],
    by decide +kernel⟩

/-- After power-on nothing waits, whatever tables are applied. -/
theorem State.powerOnValues_quiet (t : Tables) (com : Bool) (config : ConfigLoader) (pins signal) :
    (State.powerOnValues t com config pins signal).Quiet := by
  refine ⟨rfl, rfl, rfl, family_ext fun n => ?_⟩
  rw [tabulate_get, State.powerOnValues_beaconOn, State.powerOnValues_beacons]

theorem State.powerOnValues_safe {t : Tables} (h : loadersDistinct t.loaders = true) (com : Bool) (config : ConfigLoader)
    (pins signal) : (State.powerOnValues t com config pins signal).Safe := by
  obtain ⟨hrest, hstand⟩ := State.powerOnValues_plant t com config pins signal
  obtain ⟨-, -, hwalk, hbeacons⟩ := State.powerOnValues_quiet t com config pins signal
  exact ⟨⟨fun hw => absurd (hwalk.symm.trans hw) Bool.false_ne_true, hbeacons⟩,
    ⟨Nat.zero_le _, Nat.zero_le _, Nat.zero_le _, Nat.zero_le _, Nat.zero_le _⟩, Report.initial_countersRight,
    State.powerOnValues_agree t com config pins signal, State.slotsApart_of_distinct h rfl, hrest, hstand, by
      simp only [State.powerOnValues]
      decide⟩

/-! ## The end of the load (R171) -/

/-- What an event raised first of all leaves of the report: CONFIG_BAD sets ATTN and is the first entry of the log. -/
theorem State.configBad_report (s : State) (com : Bool) (reason : Nat) :
    ((s.startFrom .empty com).raise .configBad none none (wordOf reason)).rep = { Report.initial with
      attn := true, log := [⟨0, 0, ⟨.configBad, none, none, wordOf reason⟩⟩] } := by
  have hmap : (s.startFrom .empty com).eventEntry ⟨.configBad, none, none, wordOf reason⟩ = ⟨true, true, false⟩ :=
    tabulate_get EventEntry.empty 35
  simp only [State.raise, Report.raise, Report.raiseWith, hmap, if_true, Bool.false_eq_true, if_false, Report.record]
  rfl

/-- The end of the load: power-on values over the tables it applied, with the report of a bad image. -/
theorem State.loadEnd_cases (s : State) (read : MemoryRead) :
    (s.config.cfgoff = true ∧ s.loadEnd read = s.startFrom .empty true)
    ∨ (s.config.cfgoff = false ∧ ∃ tb, judgeImage read = .inl tb ∧ s.loadEnd read = s.startFrom tb (!tb.someListed))
    ∨ (s.config.cfgoff = false ∧ ∃ reason, judgeImage read = .inr reason
        ∧ s.loadEnd read = (s.startFrom .empty true).raise .configBad none none (wordOf reason)) := by
  cases hc : s.config.cfgoff
  · right
    cases hj : judgeImage read with
    | inl tb => exact .inl ⟨rfl, tb, rfl, by simp only [State.loadEnd, hc, hj]; rfl⟩
    | inr reason => exact .inr ⟨rfl, reason, rfl, by simp only [State.loadEnd, hc, hj]; rfl⟩
  · exact .inl ⟨rfl, if_pos hc⟩

/-- A part that has just been given its power-on values, whatever it has reported. -/
theorem State.startFrom_finish (s : State) (t : Tables) (com : Bool) (r : Report) :
    { s.startFrom t com with rep := r }.finish = { s.startFrom t com with rep := r } := by
  obtain ⟨-, -, -, hb⟩ := State.powerOnValues_quiet t com ⟨.idle, s.config.cfgoff⟩ s.linePins s.portSignal
  rw [State.finish_idle rfl]
  exact State.setBeacons_shown (s := State.powerOnValues t com ⟨.idle, s.config.cfgoff⟩ s.linePins s.portSignal) hb rfl rfl
    rfl rfl

/-! ## Rows of the table as one of the instant's events -/

/-- A consequence row takes the event it is for. -/
theorem exec_consequence {i : Instr} {d : Due} (h : i.consequence = some d) :
    ∃ body : State → State, ∀ s : State, exec i s = .next (s.runDue d body) := by
  cases i <;> simp only [Instr.consequence, Option.some.injEq, reduceCtorEq] at h <;> exact ⟨_, fun s => by rw [← h]; rfl⟩

/-! ## Cycle starts (R94) -/

theorem State.drawPhases_congr {s t : State} (hv : t.views = s.views) (hg : t.phaseGen = s.phaseGen) :
    t.drawPhases = { t with views := s.drawPhases.views, phaseGen := s.drawPhases.phaseGen } := by
  obtain ⟨hsg, hsv, -⟩ := s.drawPhases_drawn
  obtain ⟨htg, htv, hrest⟩ := t.drawPhases_drawn
  have hd : t.drawn = s.drawn := by simp only [State.drawn, hv]
  have hgen : t.drawPhases.phaseGen = s.drawPhases.phaseGen := by rw [hsg, htg, hd, hg]
  have hviews : t.drawPhases.views = s.drawPhases.views :=
    family_ext fun c => family_ext fun l => by rw [htv (c, l), hsv (c, l), hd, hg, hv]
  rw [hrest, hgen, hviews]

/-- The state of a cycle start, its draw apart. -/
def State.cycleStepped (s : State) : State := { s with timer := s.timer.nextCycle }.stepPresence

/-- The end of a cycle start's row: what the draw leaves, and the actions still to come. -/
def State.cycleEnds (s : State) (views : Vector (Vector ViewEntry 16) 8) (gen : Word16) (drawFirst : Bool) : State :=
  { s with views := views, phaseGen := gen, due := s.due ++ s.cycleDue drawFirst }

theorem State.cycleStart_eq (s : State) (drawFirst : Bool) : s.cycleStart drawFirst = s.cycleStepped.cycleEnds
    (if s.cycleStepped.timer.boundary && drawFirst then s.drawPhases.views else s.views)
    (if s.cycleStepped.timer.boundary && drawFirst then s.drawPhases.phaseGen else s.phaseGen) drawFirst := by
  have hstart : s.cycleStart drawFirst =
      (let u := if s.cycleStepped.timer.boundary && drawFirst then s.cycleStepped.drawPhases else s.cycleStepped
       { u with due := u.due ++ u.cycleDue drawFirst }) := rfl
  have hdraw : s.cycleStepped.drawPhases =
      { s.cycleStepped with views := s.drawPhases.views, phaseGen := s.drawPhases.phaseGen } :=
    State.drawPhases_congr rfl rfl
  rw [hstart, hdraw]
  generalize s.drawPhases.views = views
  generalize s.drawPhases.phaseGen = gen
  split <;> rfl

theorem State.cycleStepped_chair (s : State) (c : Chair) : s.cycleStepped.chairs[c] =
    if s.chairs[c].status = .absent then s.chairs[c] else { s.chairs[c] with presence := s.chairs[c].presence - 1 } :=
  mapAll_get _ _ _

theorem State.cycleStepped_presenceOut (s : State) (c : Chair) :
    s.cycleStepped.presenceOut c = true ↔ s.chairs[c].status ≠ .absent ∧ s.chairs[c].presence ≤ 1 := by
  rw [State.presenceOut, State.cycleStepped_chair]
  by_cases h : s.chairs[c].status = .absent
  · simp [-Fin.getElem_fin, h]
  · simp only [h, if_false, ne_eq, not_false_eq_true, decide_true, Bool.true_and, decide_eq_true_eq, true_and]
    omega

/-- The actions of a cycle start (R38, R94, R101, R124, R170). -/
theorem State.mem_cycleDue {s : State} {drawFirst : Bool} {d : Due} : d ∈ s.cycleDue drawFirst ↔
    (∃ c : Chair, s.presenceOut c = true ∧ .presenceExpiry c = d) ∨ (s.agent.resetMark = true ∧ d = .authorityReset)
    ∨ (s.timer.boundary = true ∧ (d = .tableApplied ∨ (drawFirst = false ∧ d = .phaseDraw))) := by
  have hall (c : Chair) : c ∈ allChairs := List.mem_finRange c
  simp only [State.cycleDue, List.mem_append, List.mem_map, List.mem_filter, hall, true_and, List.mem_ite_nil_right,
    List.mem_ite_nil_left, List.mem_singleton, or_assoc, Bool.not_eq_true]

/-! ## Sampling (R126) -/

theorem Timer.toStep_eq (t : Timer) : t.toStep = { t with position := t.toStep.position, now := t.toStep.now } := by
  rw [Timer.toStep]
  split <;> rfl

/-- A step of the millisecond count falls at the instant last taken exactly where the count is one behind it. -/
theorem Timer.millisInstant_now {t : Timer} :
    t.millisInstant = some t.now ↔ t.now % 16 = 0 ∧ wordOf (t.now / 16) = t.millis + 1 := by
  simp only [Timer.millisInstant]
  split
  · next h => exact ⟨fun _ => ⟨h.1, h.2.symm⟩, fun _ => rfl⟩
  · next h =>
    refine ⟨fun he => ?_, fun ⟨h1, h2⟩ => absurd ⟨h1, h2.symm⟩ h⟩
    split at he
    · rw [Option.some.injEq] at he
      omega
    · exact nomatch he

/-- Where the count and the cycles agree, the next step is at the next whole millisecond. -/
theorem Timer.millisInstant_agreeing {t : Timer} (h : wordOf (t.now / 16) = t.millis) :
    t.millisInstant = some (16 * (t.now / 16 + 1)) := by
  have hne : t.millis + 1 ≠ wordOf (t.now / 16) := by
    rw [h]
    bv_omega
  have hstep : t.millis + 1 = wordOf (t.now / 16 + 1) := by
    rw [← h]
    exact (BitVec.ofNat_add _ _).symm
  rw [Timer.millisInstant, if_neg (fun hc => hne hc.2), if_pos hstep]

/-- A level change sampled at a millisecond step, ahead of it, has measured no time there. -/
theorem State.not_settled_of_changed {s : State} {i : Line} (hs : s.due = []) (hd : s.tables.lines[i].debounce ≠ 0)
    (hc : s.lines[i].changed = s.timer.millis + 1) : .lineSettle i ∉ s.stepMillis.due := by
  have hz : (s.timer.millis + 1 - s.lines[i].changed).toNat = 0 := by
    rw [hc, BitVec.sub_self]
    rfl
  have hheld : { s with timer := s.timer.stepMillis }.lineHeld i = false := by
    change (_ && decide (s.tables.lines[i].debounce ≤ (s.timer.millis + 1 - s.lines[i].changed).toNat)) = false
    rw [hz]
    simp [-Fin.getElem_fin, hd]
  intro hm
  simp only [State.stepMillis, hs, List.nil_append, List.mem_map, List.mem_filter] at hm
  obtain ⟨j, ⟨-, hj⟩, hij⟩ := hm
  cases hij
  exact Bool.false_ne_true (hheld.symm.trans hj)

/-! ## Port links (R149) -/

/-- A port's link coming UP reads as one event. -/
theorem State.portComesUp_eq (s : State) (p : Port) : s.portComesUp p = if s.linkIsUp p then s else { s with
    portUp := putAt s.portUp (Port.index p) true
    rep := s.rep.raise s ⟨.portLinkUp, none, none, wordOf (Port.index p).val⟩ } := by
  have same : s.SameReporting (s.setLink p true) := ⟨rfl, rfl, fun _ => Iff.rfl⟩
  rw [State.portComesUp, same.raise_eq]
  rfl

theorem State.loseFrame_eq (s : State) (p : Port) : s.loseFrame p = { s with
    sending := if p = .surface then none else s.sending
    lSending := match p with
      | .surface => s.lSending
      | .levelA => putAt s.lSending 0 none
      | .levelB => putAt s.lSending 1 none } := by
  cases p <;> rfl

/-- A port going DOWN with no burst cut off: the link, the frame it was sending, one event. -/
theorem State.portGoesDown_eq (s : State) (p : Port) : s.portGoesDown p none = if s.linkIsUp p then
    { (s.setLink p false).loseFrame p with
      rep := s.rep.raise s ⟨.portLinkDown, none, none, wordOf (Port.index p).val⟩ } else s := by
  have same : s.SameReporting ((s.setLink p false).loseFrame p) := by
    rw [State.loseFrame_eq]
    exact ⟨rfl, rfl, fun _ => Iff.rfl⟩
  have hrep : ((s.setLink p false).loseFrame p).rep = s.rep := by
    rw [State.loseFrame_eq]
    rfl
  simp only [State.portGoesDown, same.raise_eq, hrep]

section
variable {s : State} {p : Port}

theorem State.Ready.exec_portLinkUp (h : s.Ready) : exec (.portLinkUp p) s = .next (if s.portUp[Port.index p] then
    { s with portSignal := putAt s.portSignal (Port.index p) true } else { s with
      portSignal := putAt s.portSignal (Port.index p) true
      portUp := putAt s.portUp (Port.index p) true
      rep := s.rep.raise s ⟨.portLinkUp, none, none, wordOf (Port.index p).val⟩ }) := by
  have same : s.SameReporting (s.setSignal p true) := ⟨rfl, rfl, fun _ => Iff.rfl⟩
  change execPortLinkUp p s = _
  simp only [execPortLinkUp, h.1.settle]
  rw [if_pos (by exact h.2), State.portComesUp_eq, Report.raise_same same]
  change Host.Outcome.next (if s.portUp[Port.index p] = true then _ else _ : State).finish = _
  split
  · exact congrArg _ (State.finish_quiet h.1 rfl rfl rfl rfl rfl)
  · exact congrArg _ (State.finish_quiet h.1 rfl rfl rfl rfl rfl)

theorem State.Ready.exec_portLinkDown (h : s.Ready) : exec (.portLinkDown p none) s = .next (
    if !s.portUp[Port.index p] then { s with portSignal := putAt s.portSignal (Port.index p) false } else { s with
      portSignal := putAt s.portSignal (Port.index p) false
      portUp := putAt s.portUp (Port.index p) false
      sending := if p = .surface then none else s.sending
      lSending := match p with
        | .surface => s.lSending
        | .levelA => putAt s.lSending 0 none
        | .levelB => putAt s.lSending 1 none
      rep := s.rep.raise s ⟨.portLinkDown, none, none, wordOf (Port.index p).val⟩ }) := by
  have same : s.SameReporting (s.setSignal p false) := ⟨rfl, rfl, fun _ => Iff.rfl⟩
  have link : (s.setSignal p false).linkIsUp p = s.portUp[Port.index p] := rfl
  change execPortLinkDown p none s = _
  simp only [execPortLinkDown, h.1.settle]
  rw [if_pos (by exact h.2), State.portGoesDown_eq, State.loseFrame_eq, Report.raise_same same, link]
  cases s.portUp[Port.index p]
  · exact congrArg _ (State.finish_quiet h.1 rfl rfl rfl rfl rfl)
  · exact congrArg _ (State.finish_quiet h.1 rfl rfl rfl rfl rfl)

end

end Sys2Proof.Machine

namespace Sys2Proof

open Machine

/-- Settles O1. -/
theorem stepRunsFrontCommand : Obligations.StepRunsFrontCommand := by
  intro s i rest h
  simp only [step, h]

/-- Settles O2. -/
theorem resetIsLoadingAndSafe : Obligations.ResetIsLoadingAndSafe :=
  ⟨rfl, State.powerOnValues_beacons _ _ _ _ _, rfl, rfl, rfl, rfl, State.powerOnValues_quiet _ _ _ _ _,
    State.powerOnValues_safe empty_distinct _ _ _ _⟩

/-- Settles O3. -/
theorem powerOnLoads : Obligations.PowerOnLoads := fun s cfgoff =>
  ⟨s.powerOn cfgoff, rfl, rfl, rfl,
    State.powerOnValues_beacons .empty false ⟨.loading, cfgoff⟩ s.linePins s.portSignal, rfl, rfl, rfl,
    fun _ => Vector.getElem_replicate _, rfl, rfl, rfl⟩

/-- Settles O4. -/
theorem loadEndStartsThePart : Obligations.LoadEndStartsThePart := by
  intro s read hload
  have hrun : s.running = false := by rw [State.running, hload]; rfl
  have hexec : exec (.loadEnd read) s = .next (s.loadEnd read).finish :=
    congrArg _ (if_neg (by rw [hrun]; exact Bool.false_ne_true))
  -- the values of the state reached, for any tables and for any report that tells CONFIG_BAD at most
  have values (tb : Tables) (com : Bool) (a : Bool) (log : List LogEntry) :
      let t := { s.startFrom tb com with rep := { Report.initial with attn := a, log := log } }
      t.config.phase = .idle ∧ t.timer = ⟨0, 0, t.tables.device.period, 0, 0, 0⟩
      ∧ (∀ l : Loader, t.auth[l] = ⟨.standing none (if t.enabled l then .start else .disabled), 0⟩)
      ∧ (∀ c : Chair, t.chairs[c] = ⟨.absent, false, 0, 0, 0, none, none⟩)
      ∧ (∀ l : Loader, t.status[l] = ⟨false, [], 0, false, [], false, [], .none, none⟩ ∧ t.deadlines[l] = none)
      ∧ (∀ l : Loader, t.builders[l] = ⟨none, false, none, 0, ⟨0, 0, 0, 0⟩, .neutral, 0, none, none⟩ ∧ t.windows[l] = [])
      ∧ (∀ (c : Chair) (l : Loader), t.views[c][l].active = false ∧ t.views[c][l].phase = 0)
      ∧ (∀ i : Line, let e := t.tables.lines[i]
          t.lines[i] = ⟨s.linePins[i], 0,
            if e.enabled then (if e.openIsActive then .opened else .closed) else s.linePins[i],
            if e.enabled then .active else .clear, e.enabled⟩)
      ∧ t.offerCounter = 0 ∧ t.freeList = [] ∧ t.callQueue = [] ∧ t.writes = .none ∧ t.phaseGen = 0xACE1
      ∧ t.portUp = s.portSignal ∧ t.rep.notices = [] ∧ t.responses = [] ∧ t.forwards = [] ∧ t.sending = none
      ∧ (∀ p : Fin 2, t.lSending[p] = none) ∧ (∀ c : Chair, t.rep.noticeSeq[c] = 0)
      ∧ (∀ id : CounterId, t.rep.counter id = 0) ∧ t.rep.frozen = false ∧ t.rep.warning = false ∧ t.rep.overflow = false
      ∧ t.agent = ⟨none, [], none, false, t.agent.commissioning⟩
      ∧ (∀ n : Beacon, t.beacons[n] = false) ∧ t.due = [] ∧ t.pending = s.pending := by
    intro t
    have hview (c : Chair) (l : Loader) : t.views[c][l] = .initial := by
      simp [t, State.startFrom, State.powerOnValues]
    refine ⟨rfl, rfl, fun l => mapAll_get _ _ _, fun _ => Vector.getElem_replicate _,
      fun _ => ⟨Vector.getElem_replicate _, Vector.getElem_replicate _⟩,
      fun _ => ⟨Vector.getElem_replicate _, Vector.getElem_replicate _⟩,
      fun c l => ⟨by rw [hview]; rfl, by rw [hview]; rfl⟩, fun i => tabulate_get _ _, rfl, rfl, rfl, rfl, rfl, rfl, rfl, rfl,
      rfl, rfl, fun _ => Vector.getElem_replicate _, fun _ => Vector.getElem_replicate _, fun id => ?_, rfl, rfl, rfl, rfl,
      fun _ => Vector.getElem_replicate _, rfl, rfl⟩
    cases id <;> simp [t, Report.counter, Report.initial]
  obtain ⟨hc, he⟩ | ⟨hc, tb, hj, he⟩ | ⟨hc, reason, hj, he⟩ := s.loadEnd_cases read
  · refine ⟨_, hexec.trans (congrArg _ ((congrArg State.finish he).trans (s.startFrom_finish _ _ Report.initial))),
      fun _ => ⟨rfl, rfl, rfl, rfl⟩, fun h => ?_, fun h => ?_, values _ _ _ _⟩ <;>
    exact absurd (hc.symm.trans h) (by decide)
  · refine ⟨_, hexec.trans (congrArg _ ((congrArg State.finish he).trans (s.startFrom_finish _ _ Report.initial))),
      fun h => absurd (hc.symm.trans h) (by decide), fun _ tb' hj' => ?_, fun _ _ hj' => ?_, values _ _ _ _⟩
    · cases hj.symm.trans hj'
      exact ⟨rfl, rfl, rfl, rfl⟩
    · cases hj.symm.trans hj'
  · have hraised := congrArg (fun r => { s.startFrom .empty true with rep := r }) (s.configBad_report true reason)
    refine ⟨_, hexec.trans (congrArg _ ((congrArg State.finish (he.trans hraised)).trans (s.startFrom_finish _ _ _))),
      fun h => absurd (hc.symm.trans h) (by decide), fun _ _ hj' => ?_, fun _ reason' hj' => ?_, values _ _ _ _⟩
    · cases hj.symm.trans hj'
    · cases hj.symm.trans hj'
      exact ⟨rfl, rfl, rfl, rfl⟩

/-- Settles O7. -/
theorem cycleStartStepsTheCycle : Obligations.CycleStartStepsTheCycle := by
  intro s drawFirst h
  have hb : s.BeaconsShow := h.2.1
  have hquiet : (s.cycleStart drawFirst).finish = s.cycleStart drawFirst := by
    rw [s.cycleStart_eq drawFirst]
    exact hb.finish_shown rfl rfl rfl rfl rfl
  have hexec : exec (.cycleStart drawFirst) s = .next (s.cycleStart drawFirst) :=
    congrArg _ ((h.runAt rfl _).trans hquiet)
  rw [s.cycleStart_eq drawFirst] at hexec
  have hbound : s.cycleStepped.timer.boundary = decide ((s.timer.number + 1).toNat % 16 = 0) := rfl
  refine ⟨_, hexec, _, rfl, rfl, s.cycleStepped_chair, fun c => ?_, ?_, ?_, ?_, fun d hd => ?_, ⟨rfl, rfl⟩, rfl⟩
  · simp [State.mem_cycleDue, State.cycleStepped_presenceOut]
  · simp [State.mem_cycleDue]
    rfl
  · simp [State.mem_cycleDue, hbound]
  · simp [State.mem_cycleDue, hbound]
  · obtain ⟨c, -, hd⟩ | ⟨-, hd⟩ | ⟨-, hd | ⟨-, hd⟩⟩ := State.mem_cycleDue.mp hd
    · exact .inr (.inr (.inr ⟨c, hd.symm⟩))
    · exact .inl hd
    · exact .inr (.inl hd)
    · exact .inr (.inr (.inl hd))

/-- Settles O14. -/
theorem spentCommandsHaveNoEffect : Obligations.SpentCommandsHaveNoEffect := by
  intro s i d l k ahead p burst read
  have alone (h : s.Quiet) (instant : State → Option Nat) (body : State → State) (hb : body s = s) :
      s.runAt instant body = s := by
    simp only [State.runAt, h.arriveAt, hb]
    split
    · exact State.finish_quiet h rfl rfl rfl rfl rfl
    · rfl
  have idle (h : s.Quiet) (hl : s.config.phase = .loading) (body : State → State) : s.run body = s := by
    have hr : s.running = false := by rw [State.running, hl]; rfl
    simp only [State.run, h.settle, hr, Bool.false_eq_true, if_false]
  have idleAt (h : s.Quiet) (hl : s.config.phase = .loading) (instant) (body : State → State) : s.runAt instant body = s := by
    have hr : s.running = false := by rw [State.running, hl]; rfl
    simp only [State.runAt, h.arriveAt, hr, Bool.false_eq_true, if_false]
  refine ⟨fun hi hd => ?_, fun h hd => ?_, fun h hc => ?_, fun h => ?_, fun h hp => ?_, fun h hl => ?_⟩
  · obtain ⟨body, hbody⟩ := exec_consequence hi
    rw [hbody, State.runDue_idle hd]
  · have hn : .statusDeadline l ∉ s.due := by rw [h.1]; exact List.not_mem_nil
    have hbody : s.pendingDeadline ⟨l, ahead⟩ = s := by
      simp only [State.pendingDeadline, State.fallInstant, hd, Option.map_none]
    exact congrArg _ ((if_neg hn).trans (alone h _ _ hbody))
  · refine congrArg _ (alone h _ _ (?_ : s.staleSlot ⟨l, k⟩ = s))
    refine if_neg ?_
    simp only [Bool.and_eq_true, not_and, State.atSlot, State.slotStale, Builder.staleNext, decide_eq_true_eq]
    rintro ⟨⟨-, hs⟩, hdr⟩ hst
    obtain hc | hc | hc := hc
    · exact absurd (hc.symm.trans hdr) Bool.false_ne_true
    · rw [hc] at hst
      exact absurd hst (Nat.not_lt_zero _)
    · exact hc (congrArg Fin.val hs).symm
  · exact congrArg _ (if_pos (decide_eq_true h))
  · simp only [step, hp, h.settle]
  · exact ⟨congrArg _ (idle h hl _), congrArg _ (idleAt h hl _ _), congrArg _ (idleAt h hl _ _), congrArg _ (idle h hl _)⟩

/-- Settles O20. -/
theorem linesAreSampled : Obligations.LinesAreSampled := by
  intro s i level h millis timer
  have step_exec (u : State) (hu : u.Ready) : exec .millisecondStep u = .next u.stepMillis :=
    congrArg _ ((hu.runAt _ _).trans (State.finish_quiet hu.1 rfl rfl rfl rfl rfl))
  have hstep : timer = { s.timer with millis := millis, position := timer.position, now := timer.now } := by
    change { s.timer.toStep with millis := millis } = _
    rw [s.timer.toStep_eq]
    rfl
  have hahead : { timer with millis := s.timer.millis } = s.timer.toStep := by
    rw [hstep]
    exact s.timer.toStep_eq.symm
  have hstart := h.1.1
  have sampled (u : State) (hu : u.Quiet) (count : Word16) :
      ((u.setPin i level).sampleLine i level count).finish = { u with
        linePins := putAt u.linePins i level
        lines := if u.lines[i].raw = level then u.lines
          else putAt u.lines i { u.lines[i] with raw := level, changed := count } } := by
    by_cases hr : u.lines[i].raw = level
    · rw [if_pos hr]
      exact (congrArg State.finish (if_pos hr)).trans (State.finish_quiet hu rfl rfl rfl rfl rfl)
    · rw [if_neg hr]
      exact (congrArg State.finish (if_neg hr)).trans (State.finish_quiet hu rfl rfl rfl rfl rfl)
  have hnow : exec (.lineLevelChange i ⟨level, false⟩) s =
      .next ((s.setPin i level).sampleLine i level s.timer.changeTime).finish := by
    change execLineLevelChange i ⟨level, false⟩ s = _
    simp only [execLineLevelChange, Bool.false_eq_true, if_false, h.1.arriveAt]
    exact congrArg _ (if_neg (by change ¬ (!s.running) = true; rw [h.2]; decide))
  have hat : exec (.lineLevelChange i ⟨level, true⟩) s =
      .next (({ s with timer := s.timer.toStep }.setPin i level).sampleLine i level millis).finish := by
    change execLineLevelChange i ⟨level, true⟩ s = _
    simp only [execLineLevelChange, if_true, h.1.arriveAt]
    exact congrArg _ (if_neg (by change ¬ (!s.running) = true; rw [h.2]; decide))
  have hquiet : { s with timer := s.timer.toStep }.Quiet := h.1
  rw [sampled _ h.1] at hnow
  rw [sampled _ hquiet] at hat
  refine ⟨hstep, fun hagree => ?_, ?_, ?_, ?_, fun hraw hdeb => ?_⟩
  · have hi := Timer.millisInstant_agreeing hagree
    have htimer : timer = { s.timer.seek (16 * (s.timer.now / 16 + 1)) with millis := millis } := by
      change { s.timer.toStep with millis := millis } = _
      rw [Timer.toStep, hi]
    rw [htimer]
    exact ⟨rfl, rfl⟩
  · have hdue (due : List Due) : s.due ++ due = due := by rw [hstart, List.nil_append]
    exact (step_exec s h).trans (congrArg (fun due => Host.Outcome.next { s with timer := timer, due := due }) (hdue _))
  · have hcount : s.timer.changeTime =
        if (s.timer.now % 16 = 0 && wordOf (s.timer.now / 16) = millis) = true then millis else s.timer.millis := by
      simp only [Timer.changeTime, Timer.millisInstant_now, Bool.and_eq_true, decide_eq_true_eq]
      rfl
    rw [hnow, hcount]
  · rw [hat, hahead]
  · refine ⟨_, _, hat, step_exec _ ⟨?_, h.2⟩, fun hm => ?_⟩
    · exact h.1
    · refine absurd hm (State.not_settled_of_changed hstart hdeb ?_)
      simp only [hraw, if_false, putAt_same]
      rw [s.timer.toStep_eq]

/-- Settles O22. -/
theorem portLinksFollowTheSignal : Obligations.PortLinksFollowTheSignal := fun _ _ h =>
  ⟨h.exec_portLinkUp, h.exec_portLinkDown⟩

end Sys2Proof
end

section
/-! The Management Agent's requests (R162-R180): serving one is carrying it out, whatever the Agent has in service or waiting, and
placing its response. -/

namespace Sys2Proof.Machine

open Sys2Proof

/-! ## Serving a request (R168) -/

/-- The state with the Agent's request in service and its waiting list replaced. -/
def State.attended (s : State) (r : Option MgmtRequest) (waiting : List MgmtRequest) : State :=
  { s with agent := { s.agent with inService := r, waiting := waiting } }

/-- What an operation answers, by an Agent with another request in service and another waiting list. -/
def Served.attended (v : Served) (r : Option MgmtRequest) (waiting : List MgmtRequest) : Served :=
  { v with state := v.state.attended r waiting }

section attended
variable (s : State) (i : Option MgmtRequest) (w : List MgmtRequest)

theorem State.sameReporting_of_records {s t : State} (ht : t.timer = s.timer) (htab : t.tables = s.tables)
    (hc : t.chairs = s.chairs) : s.SameReporting t := ⟨ht, htab, fun c => by rw [hc]⟩

theorem State.judgeWrite_attended (table index data) :
    (s.attended i w).judgeWrite table index data = s.judgeWrite table index data := rfl

theorem State.writeEntryService_attended (table index data) :
    (s.attended i w).writeEntryService table index data = (s.writeEntryService table index data).attended i w := by
  simp only [State.writeEntryService, State.judgeWrite_attended]
  split <;> rfl

theorem State.readEntryService_attended (table index data) :
    (s.attended i w).readEntryService table index data = (s.readEntryService table index data).attended i w := by
  simp only [State.readEntryService]
  repeat' split
  all_goals rfl

theorem State.readStateService_attended (sel index data) :
    (s.attended i w).readStateService sel index data = (s.readStateService sel index data).attended i w := by
  simp only [State.readStateService]
  repeat' split
  all_goals rfl

theorem State.readCountersService_attended (sel index data) :
    (s.attended i w).readCountersService sel index data = (s.readCountersService sel index data).attended i w := by
  simp only [State.readCountersService]
  repeat' split
  all_goals rfl

theorem State.counterControlService_attended (data) :
    (s.attended i w).counterControlService data = (s.counterControlService data).attended i w := by
  simp only [State.counterControlService]
  repeat' split
  all_goals rfl

theorem State.readLogService_attended (n data) :
    (s.attended i w).readLogService n data = (s.readLogService n data).attended i w := by
  simp only [State.readLogService]
  repeat' split
  all_goals rfl

theorem State.acknowledge_eq (k : Line) (c : Option Chair) : s.acknowledge k c = { s with
    lines := putAt s.lines k { s.lines[k] with status := .clear }
    rep := s.rep.raise s ⟨.interlockAck, none, c, lineDetail k⟩ } := by
  have same : s.SameReporting (s.setLine k { s.lines[k] with status := .clear }) :=
    State.sameReporting_of_records rfl rfl rfl
  rw [State.acknowledge, same.raise_eq]
  rfl

theorem State.mgmtLineAckService_attended (line data) :
    (s.attended i w).mgmtLineAckService line data = (s.mgmtLineAckService line data).attended i w := by
  have hack (k : Line) : (s.attended i w).acknowledge k none = (s.acknowledge k none).attended i w := by
    have same : s.SameReporting (s.attended i w) := State.sameReporting_of_records rfl rfl rfl
    rw [State.acknowledge_eq, State.acknowledge_eq, Report.raise_same same]
    rfl
  have hlines : (s.attended i w).lines = s.lines := rfl
  simp only [State.mgmtLineAckService, hack, hlines]
  repeat' split
  all_goals rfl

theorem State.saveConfigService_attended (data) :
    (s.attended i w).saveConfigService data = (s.saveConfigService data).attended i w := by
  have hconfig : (s.attended i w).config = s.config := rfl
  simp only [State.saveConfigService, hconfig]
  repeat' split
  all_goals rfl

theorem State.identService_attended (data) :
    (s.attended i w).identService data = (s.identService data).attended i w := by
  simp only [State.identService]
  split <;> rfl

theorem State.attnClearService_attended (data) :
    (s.attended i w).attnClearService data = (s.attnClearService data).attended i w := by
  simp only [State.attnClearService]
  split <;> rfl

theorem State.resetAuthorityService_attended (data) :
    (s.attended i w).resetAuthorityService data = (s.resetAuthorityService data).attended i w := by
  simp only [State.resetAuthorityService]
  split <;> rfl

/-- No operation reads or writes what the Agent has in service or waiting. -/
theorem State.carryOut_attended (r : MgmtRequest) : (s.attended i w).carryOut r = (s.carryOut r).attended i w := by
  have simple (p : Prop) [Decidable p] (a b : Served) : (if p then a else b).attended i w =
      if p then a.attended i w else b.attended i w := by
    split <;> rfl
  simp only [State.carryOut, simple, State.writeEntryService_attended, State.readEntryService_attended,
    State.readStateService_attended, State.readCountersService_attended, State.counterControlService_attended,
    State.readLogService_attended, State.mgmtLineAckService_attended, State.saveConfigService_attended,
    State.identService_attended, State.attnClearService_attended, State.resetAuthorityService_attended]
  rfl

end attended

/-- What carrying out a request leaves (R168). -/
theorem State.Serves.keeps {s t : State} (h : s.Serves t) : t.walkCalled = s.walkCalled ∧ t.beacons = s.beacons
    ∧ t.auth = s.auth ∧ t.status = s.status ∧ t.tables = s.tables ∧ t.agent.inService = s.agent.inService := by
  cases h <;> exact ⟨rfl, rfl, rfl, rfl, rfl, rfl⟩

/-- The response to a request that has been carried out. -/
def State.answerTo (s : State) (r : MgmtRequest) (v : Served) : State :=
  v.state.placeResponse (responseFrame s.tables.device.station r v.status v.data)

theorem State.serve_attended (s : State) (i : Option MgmtRequest) (w : List MgmtRequest) (r : MgmtRequest) :
    (s.attended i w).serve r = s.answerTo r ((s.carryOut r).attended none w) := by
  obtain ⟨-, -, -, -, htab, -⟩ := (s.carryOut_serves r).keeps
  have hcarry : ((s.attended i w).setInService (some r)).carryOut r = (s.carryOut r).attended (some r) w :=
    s.carryOut_attended (some r) w r
  simp only [State.serve, hcarry, State.answerTo, Served.attended]
  have hstation : ((s.carryOut r).state.attended (some r) w).tables = s.tables := htab
  rw [hstation]
  rfl

/-- Serving a request: carrying it out, the Agent's service over, and placing its response. -/
theorem State.serve_eq (s : State) (r : MgmtRequest) :
    s.serve r = s.answerTo r ((s.carryOut r).attended none s.agent.waiting) := s.serve_attended s.agent.inService s.agent.waiting r

/-- Serving with no request in service leaves none, and nothing else besides what the request asks for. -/
theorem State.serve_idle {s : State} (h : s.agent.inService = none) (r : MgmtRequest) :
    s.serve r = s.answerTo r (s.carryOut r) := by
  obtain ⟨-, -, -, -, -, hin⟩ := (s.carryOut_serves r).keeps
  have hw := (s.carryOut_serves r).waiting
  have hsame : (s.carryOut r).attended none s.agent.waiting = s.carryOut r := by
    rw [← hw, ← h, ← hin]
    rfl
  rw [s.serve_eq r, hsame]

/-- Serving changes the waiting list in no way, and does not read it. -/
theorem State.serve_withWaiting (u : State) (r : MgmtRequest) (waiting : List MgmtRequest) :
    State.serve { u with agent := { u.agent with waiting := waiting } } r =
      { u.serve r with agent := { (u.serve r).agent with waiting := waiting } } := by
  have hplace (x : State) (f : Frame) (w : List MgmtRequest) : (x.attended none waiting).placeResponse f =
      { (x.attended none w).placeResponse f with
        agent := { ((x.attended none w).placeResponse f).agent with waiting := waiting } } := by
    by_cases hr : x.responses.length < responseCapacity
    · rw [State.placeResponse, State.placeResponse, if_pos (by exact hr), if_pos (by exact hr)]
      rfl
    · rw [State.placeResponse, State.placeResponse, if_neg (by exact hr), if_neg (by exact hr)]
      rfl
  exact (u.serve_attended u.agent.inService waiting r).trans ((hplace _ _ u.agent.waiting).trans (by rw [u.serve_eq r]; rfl))

section idle
variable {s : State} {h : Header} {op : Byte} {tag : Word16} {a b : Byte} {data : List Byte}

theorem State.placeResponse_finish {t : State} (hq : s.Quiet) (hw : t.walkCalled = s.walkCalled) (hb : t.beacons = s.beacons)
    (ha : t.auth = s.auth) (hs : t.status = s.status) (ht : t.tables = s.tables) (f : Frame) :
    (t.placeResponse f).finish = t.placeResponse f := by
  unfold State.placeResponse
  split
  · exact State.finish_quiet hq hw hb ha hs ht
  · exact State.finish_quiet hq hw hb ha hs ht

/-- A management request that finds the Agent idle is carried out and answered (R168). -/
theorem State.AdmitsMgmt.mgmtCommand_idle (ha : s.AdmitsMgmt (mgmtFrame h op tag a b data)) (hi : s.agent.idle = true) :
    s.mgmtCommand h op tag a b data =
      s.answerTo (mgmtRequestOf h op tag a b data) (s.carryOut (mgmtRequestOf h op tag a b data)) := by
  have hin : s.agent.inService = none := by
    simp only [Agent.idle, Bool.and_eq_true, Option.isNone_iff_eq_none] at hi
    exact hi.1.1
  have hserve : s.mgmtArrival (mgmtRequestOf h op tag a b data) = s.serve (mgmtRequestOf h op tag a b data) := if_pos hi
  obtain ⟨hw, hb, hau, hs, ht, -⟩ := (s.carryOut_serves (mgmtRequestOf h op tag a b data)).keeps
  rw [ha.mgmtCommand, hserve, State.serve_idle hin]
  exact State.placeResponse_finish ha.1.1 hw hb hau hs ht _

/-- The row of a management request, at an idle Agent. -/
theorem State.AdmitsMgmt.exec_idle {i : Instr} (ha : s.AdmitsMgmt (mgmtFrame h op tag a b data)) (hi : s.agent.idle = true)
    (hm : managed i = some (h, op, tag, a, b, data)) {v : Served} (hv : s.carryOut (mgmtRequestOf h op tag a b data) = v) :
    exec i s = .next (v.state.placeResponse (responseFrame s.tables.device.station
      ⟨h.source, h.sequence, op, tag, a, b, data⟩ v.status v.data)) := by
  rw [exec_managed hm, ha.mgmtCommand_idle hi, hv]
  rfl

end idle

/-! ## Requests by their operation code (R145) -/

section carryOut
variable (s : State) {r : MgmtRequest}

theorem State.carryOut_ident (h : r.operation = 0x01) : s.carryOut r = s.identService r.data := by
  simp [State.carryOut, h]

theorem State.carryOut_readEntry (h : r.operation = 0x02) : s.carryOut r = s.readEntryService r.selector r.index r.data := by
  simp [State.carryOut, h]

theorem State.carryOut_writeEntry (h : r.operation = 0x03) : s.carryOut r = s.writeEntryService r.selector r.index r.data := by
  simp [State.carryOut, h]

theorem State.carryOut_readState (h : r.operation = 0x04) : s.carryOut r = s.readStateService r.selector r.index r.data := by
  simp [State.carryOut, h]

theorem State.carryOut_readCounters (h : r.operation = 0x05) :
    s.carryOut r = s.readCountersService r.selector r.index r.data := by
  simp [State.carryOut, h]

theorem State.carryOut_counterControl (h : r.operation = 0x06) : s.carryOut r = s.counterControlService r.data := by
  simp [State.carryOut, h]

theorem State.carryOut_readLog (h : r.operation = 0x07) : s.carryOut r = s.readLogService r.index r.data := by
  simp [State.carryOut, h]

theorem State.carryOut_attnClear (h : r.operation = 0x08) : s.carryOut r = s.attnClearService r.data := by
  simp [State.carryOut, h]

theorem State.carryOut_lineAck (h : r.operation = 0x09) : s.carryOut r = s.mgmtLineAckService r.index r.data := by
  simp [State.carryOut, h]

theorem State.carryOut_resetAuthority (h : r.operation = 0x0A) : s.carryOut r = s.resetAuthorityService r.data := by
  simp [State.carryOut, h]

theorem State.carryOut_saveConfig (h : r.operation = 0x0B) : s.carryOut r = s.saveConfigService r.data := by
  simp [State.carryOut, h]

theorem State.carryOut_unknown (h : r.operation ∉ operationCodes) : s.carryOut r = s.answer .badValue := by
  simp only [operationCodes, List.mem_cons, List.not_mem_nil, or_false, not_or] at h
  obtain ⟨h1, h2, h3, h4, h5, h6, h7, h8, h9, h10, h11⟩ := h
  simp only [State.carryOut, h1, h2, h3, h4, h5, h6, h7, h8, h9, h10, h11, if_false]

end carryOut

end Sys2Proof.Machine

namespace Sys2Proof

open Machine

/-- Settles O51. -/
theorem managementRequestsWait : Obligations.ManagementRequestsWait := by
  intro s h operation tag a b data ha request
  have hfin (t : State) (hw : t.walkCalled = s.walkCalled) (hb : t.beacons = s.beacons) (hau : t.auth = s.auth)
      (hs : t.status = s.status) (ht : t.tables = s.tables) : t.finish = t := State.finish_quiet ha.1.1 hw hb hau hs ht
  have hexec : exec (.mgmtRequest h operation tag a b data) s = .next (s.mgmtCommand h operation tag a b data) := rfl
  refine ⟨fun u f => rfl, ⟨_, hexec⟩, fun hi => ?_, fun u r waiting => u.serve_withWaiting r waiting, ?_⟩
  · have hin : s.agent.inService = none := by
      simp only [Agent.idle, Bool.and_eq_true, Option.isNone_iff_eq_none] at hi
      exact hi.1.1
    rw [hexec, ha.mgmtCommand_idle hi, State.serve_idle hin]
    rfl
  · by_cases hi : s.agent.idle = false
    · rw [if_pos hi, hexec, ha.mgmtCommand, State.mgmtArrival, if_neg (by rw [hi]; decide)]
      split
      · next hw =>
        rw [if_pos (by exact hw)]
        exact congrArg _ (hfin _ rfl rfl rfl rfl rfl)
      · next hw =>
        rw [if_neg (by exact hw)]
        exact congrArg _ (hfin _ rfl rfl rfl rfl rfl)
    · rw [if_neg hi]
      by_cases h1 : operation = 0x01
      · rw [if_pos h1, h1]
        rfl
      rw [if_neg h1]
      by_cases h2 : operation = 0x02
      · rw [if_pos h2, h2]
        rfl
      rw [if_neg h2]
      by_cases h3 : operation = 0x03
      · rw [if_pos h3, h3]
        rfl
      rw [if_neg h3]
      by_cases h4 : operation = 0x04
      · rw [if_pos h4, h4]
        rfl
      rw [if_neg h4]
      by_cases h5 : operation = 0x05
      · rw [if_pos h5, h5]
        rfl
      rw [if_neg h5]
      by_cases h6 : operation = 0x06
      · rw [if_pos h6, h6]
        split
        · rfl
        · rfl
        · rfl
        · next hf hu hc =>
          subst h6
          refine ha.exec_idle (Bool.of_not_eq_false hi) rfl (v := s.answer .badValue) ?_
          rw [s.carryOut_counterControl rfl]
          change s.counterControlService data = _
          simp only [State.counterControlService]
          split
          · next action =>
            rw [if_neg (fun he => hf [] (by rw [he]; rfl)), if_neg (fun he => hu [] (by rw [he]; rfl)),
              if_neg (fun he => hc [] (by rw [he]; rfl))]
          · rfl
      rw [if_neg h6]
      by_cases h7 : operation = 0x07
      · rw [if_pos h7, h7]
        rfl
      rw [if_neg h7]
      by_cases h8 : operation = 0x08
      · rw [if_pos h8, h8]
        rfl
      rw [if_neg h8]
      by_cases h9 : operation = 0x09
      · rw [if_pos h9, h9]
        rfl
      rw [if_neg h9]
      by_cases h10 : operation = 0x0A
      · rw [if_pos h10, h10]
        rfl
      rw [if_neg h10]
      by_cases h11 : operation = 0x0B
      · rw [if_pos h11, h11]
        rfl
      rw [if_neg h11]
      rfl

end Sys2Proof
end

section
/-! The operations of an idle Agent (R146, R162-R165, R169, R175, R176, R179) and LINE_ACK (R130, R131). -/

namespace Sys2Proof.Machine

open Sys2Proof

/-! ## The records of READ_STATE (R146) -/

theorem flagBits_two (a b : Bool) : flagBits a b false = (if a then 1 else 0) ||| (if b then 2 else 0) := by
  revert a b
  decide

theorem indexOfByte_eq_some {n : Nat} {b : Byte} {i : Fin n} : indexOfByte n b = some i ↔ b.toNat = i.val := by
  unfold indexOfByte
  split
  · rw [Option.some.injEq, Fin.ext_iff]
  · next h => exact ⟨nofun, fun he => absurd (he ▸ i.isLt) h⟩

theorem indexOfByte_eq_none {n : Nat} {b : Byte} : indexOfByte n b = none ↔ n ≤ b.toNat := by
  unfold indexOfByte
  split
  · next h => exact ⟨nofun, fun hn => absurd h (Nat.not_lt.mpr hn)⟩
  · next h => exact ⟨fun _ => Nat.not_lt.mp h, fun _ => rfl⟩

/-! ## Counters (R179) -/

theorem counterGroup_eq_ok {a b : Byte} {g : CounterGroup} : counterGroup a b = .ok g ↔ match g with
    | .loader l => a = 0x01 ∧ b.toNat = l.val
    | .chair c => a = 0x02 ∧ b.toNat = c.val
    | .device => a = 0x03 := by
  unfold counterGroup
  by_cases h1 : a = 0x01
  · subst h1
    simp only [if_true]
    cases hb : indexOfByte 16 b with
    | none =>
      have hno (i : Fin 16) : ¬ b.toNat = i.val := fun he => nomatch hb.symm.trans (indexOfByte_eq_some.mpr he)
      cases g <;> simp [hno]
    | some i => cases g <;> simp [← indexOfByte_eq_some, hb]
  by_cases h2 : a = 0x02
  · subst h2
    simp only [h1, if_false, if_true]
    cases hb : indexOfByte 8 b with
    | none =>
      have hno (i : Fin 8) : ¬ b.toNat = i.val := fun he => nomatch hb.symm.trans (indexOfByte_eq_some.mpr he)
      cases g <;> simp [hno]
    | some i => cases g <;> simp [← indexOfByte_eq_some, hb]
  by_cases h3 : a = 0x03
  · subst h3
    simp only [h1, h2, if_false, if_true]
    cases g <;> simp
  · simp only [h1, h2, h3, if_false]
    cases g <;> simp only [false_and, reduceCtorEq]

/-- The checks of a selector and an index that name no group. -/
theorem counterGroup_error {a b : Byte} (h : a ∉ ([0x01, 0x02, 0x03] : List Byte) ∨
    (decide (a = 0x01) && decide (16 ≤ b.toNat) || decide (a = 0x02) && decide (8 ≤ b.toNat)) = true) :
    counterGroup a b = .error (if a ∉ ([0x01, 0x02, 0x03] : List Byte) then .badTable else .badIndex) := by
  by_cases hm : a ∉ ([0x01, 0x02, 0x03] : List Byte)
  · rw [if_pos hm]
    simp only [List.mem_cons, List.not_mem_nil, or_false, not_or] at hm
    obtain ⟨h1, h2, h3⟩ := hm
    simp only [counterGroup, h1, h2, h3, if_false]
  · rw [if_neg hm]
    have ho := h.resolve_left hm
    simp only [Bool.or_eq_true, Bool.and_eq_true, decide_eq_true_eq] at ho
    obtain ⟨rfl, hb⟩ | ⟨rfl, hb⟩ := ho
    · rw [counterGroup, if_pos rfl, indexOfByte_eq_none.mpr hb]
    · rw [counterGroup, if_neg (by decide), if_pos rfl, indexOfByte_eq_none.mpr hb]

/-- A cleared group holds 0, and no other counter changes (R179). -/
theorem Report.clearGroup_counter (r : Report) (g : CounterGroup) (x : CounterId) :
    (r.clearGroup g).counter x = if x.group = g then 0 else r.counter x := by
  cases g with
  | loader l =>
    cases x with
    | loader k i =>
      by_cases h : l = k
      · subst h
        simp [-Fin.getElem_fin, Report.clearGroup, Report.judgeWarning, Report.counter, CounterId.group]
        exact Vector.getElem_replicate _
      · have h' : ¬ k = l := fun he => h he.symm
        simp [-Fin.getElem_fin, Report.clearGroup, Report.judgeWarning, Report.counter, CounterId.group, putAt_get, h, h']
    | chair c i => rfl
    | device i => rfl
  | chair c =>
    cases x with
    | loader k i => rfl
    | chair k i =>
      by_cases h : c = k
      · subst h
        simp [-Fin.getElem_fin, Report.clearGroup, Report.judgeWarning, Report.counter, CounterId.group]
        exact Vector.getElem_replicate _
      · have h' : ¬ k = c := fun he => h he.symm
        simp [-Fin.getElem_fin, Report.clearGroup, Report.judgeWarning, Report.counter, CounterId.group, putAt_get, h, h']
    | device i => rfl
  | device =>
    cases x with
    | loader k i => rfl
    | chair k i => rfl
    | device i => exact Vector.getElem_replicate _

theorem Report.clearGroup_eq (r : Report) (g : CounterGroup) : (r.clearGroup g).warning = (r.clearGroup g).anyHigh ∧
    r.clearGroup g = { r with
      loaderCounts := (r.clearGroup g).loaderCounts, chairCounts := (r.clearGroup g).chairCounts
      deviceCounts := (r.clearGroup g).deviceCounts, warning := (r.clearGroup g).warning } := by
  cases g <;> exact ⟨rfl, rfl⟩

theorem Report.clearAllCounters_counter (r : Report) (x : CounterId) : r.clearAllCounters.counter x = 0 := by
  cases x <;> simp [Report.clearAllCounters, Report.judgeWarning, Report.counter]

theorem Report.clearAllCounters_warning (r : Report) : r.clearAllCounters.warning = false := by
  have h : Report.initial.anyHigh = false := by decide +kernel
  exact h

/-! ## Judging a write (R162-R164) -/

/-- The entry a write is for. -/
def EntryWrite.ref : EntryWrite → EntryRef
  | .device _ => .device
  | .mgmtStation i _ => .mgmtStation i
  | .chair c _ => .chair c
  | .loader l _ => .loader l
  | .zone z _ => .zone z
  | .line i _ => .line i
  | .rule i _ => .rule i
  | .event i _ => .event i

theorem readWrite_ref {r : EntryRef} {data : List Byte} {w : EntryWrite} (h : readWrite r data = some w) : w.ref = r := by
  cases r <;> simp only [readWrite, Option.map_eq_some_iff] at h <;> obtain ⟨e, -, rfl⟩ := h <;> rfl

/-- A write marks its entry and no other. -/
theorem Writes.put_marked (w : Writes) (x : EntryWrite) (y : EntryRef) :
    (w.put x).marked y = (decide (y = x.ref) || w.marked y) := by
  have family {α : Type} {n : Nat} (v : Vector (Option α) n) (i j : Fin n) (e : α) :
      (putAt v i (some e))[j].isSome = (decide (j = i) || v[j].isSome) := by
    rw [putAt_get]
    by_cases h : i = j
    · simp [-Fin.getElem_fin, h]
    · simp [-Fin.getElem_fin, h, Ne.symm h]
  cases x <;> cases y <;> simp [-Fin.getElem_fin, Writes.put, Writes.marked, EntryWrite.ref, family]

theorem AuthState.unengaged_iff (a : AuthState) : a.unengaged = true ↔
    a = .free ∨ a.cause = some .disabled ∨ (a.isStanding = true ∧ a.holder = none) := by
  cases a with
  | standing retained cause =>
    cases retained <;> cases cause <;> simp [AuthState.unengaged, AuthState.cause, AuthState.isStanding, AuthState.holder]
  | _ => simp [AuthState.unengaged, AuthState.cause, AuthState.isStanding]

theorem State.writeInUse_loader (s : State) (l : Loader) (e : LoaderEntry) : s.writeInUse (.loader l e) = true ↔
    (e.station ≠ s.tables.loaders[l].station ∨ e.port ≠ s.tables.loaders[l].port ∨ e.slot ≠ s.tables.loaders[l].slot
      ∨ e.enabled ≠ s.tables.loaders[l].enabled)
    ∧ ¬(s.auth[l].state = .free ∨ s.auth[l].state.cause = some .disabled
      ∨ (s.auth[l].state.isStanding = true ∧ s.auth[l].state.holder = none)) := by
  rw [← AuthState.unengaged_iff]
  simp only [State.writeInUse, Bool.and_eq_true, Bool.or_eq_true, decide_eq_true_eq, Bool.not_eq_true', Bool.not_eq_true, or_assoc]

theorem State.writeInUse_chair (s : State) (c : Chair) (e : ChairEntry) : s.writeInUse (.chair c e) = true ↔
    (e.station ≠ s.tables.chairs[c].station ∨ e.supervisor ≠ s.tables.chairs[c].supervisor) ∧ s.chairs[c].status ≠ .absent := by
  simp only [State.writeInUse, Bool.and_eq_true, Bool.or_eq_true, decide_eq_true_eq]

theorem LoaderEntry.clashes_iff (a b : LoaderEntry) :
    a.clashes b = true ↔ a.enabled = true ∧ b.enabled = true ∧ b.port = a.port ∧ b.slot = a.slot := by
  simp only [LoaderEntry.clashes, Bool.and_eq_true, decide_eq_true_eq, and_assoc, eq_comm (a := b.port), eq_comm (a := b.slot)]

theorem State.writeClash_loader (s : State) (l : Loader) (e : LoaderEntry) : s.writeClash (.loader l e) = true ↔
    e.enabled = true ∧ ∃ j : Loader, j ≠ l ∧ ∃ x ∈ s.tables.loaders[j] :: s.writes.loaders[j].toList,
      x.enabled = true ∧ x.port = e.port ∧ x.slot = e.slot := by
  have among (x : LoaderEntry) (w : Option LoaderEntry) : (∃ y ∈ x :: w.toList, e.clashes y = true) ↔
      e.clashes x = true ∨ (match w with
        | none => false
        | some w => e.clashes w) = true := by
    cases w <;> simp
  have one (j : Loader) := (among s.tables.loaders[j] s.writes.loaders[j]).trans (Bool.or_eq_true_iff (x := _) (y := _)).symm
  rw [State.writeClash, List.any_eq_true]
  constructor
  · rintro ⟨j, -, hj⟩
    rw [Bool.and_eq_true, decide_eq_true_eq] at hj
    obtain ⟨x, hx, hc⟩ := (one j).mpr hj.2
    obtain ⟨he, h⟩ := (e.clashes_iff x).mp hc
    exact ⟨he, j, hj.1, x, hx, h⟩
  · rintro ⟨he, j, hj, x, hx, h⟩
    refine ⟨j, mem_allLoaders j, ?_⟩
    rw [Bool.and_eq_true, decide_eq_true_eq]
    exact ⟨hj, (one j).mp ⟨x, hx, (e.clashes_iff x).mpr ⟨he, h⟩⟩⟩

theorem State.writeDenied_mgmt (s : State) (i : Fin 2) (e : MgmtEntry) : s.writeDenied (.mgmtStation i e) = true ↔
    s.agent.commissioning = false ∧ e.listed = false
      ∧ ∀ j : Fin 2, j ≠ i → (s.writes.mgmt[j].getD s.tables.mgmt[j]).listed = false := by
  have other : (∀ j : Fin 2, j ≠ i → (s.mgmtToBe j).listed = false) ↔ (s.mgmtToBe (if i = 0 then 1 else 0)).listed = false := by
    obtain rfl | rfl : i = 0 ∨ i = 1 := by omega
    · exact ⟨fun h => h 1 (by decide), fun h j hj => by rwa [show j = 1 by omega]⟩
    · exact ⟨fun h => h 0 (by decide), fun h j hj => by rwa [show j = 0 by omega]⟩
  simp only [State.writeDenied, Bool.and_eq_true, Bool.not_eq_true', and_assoc]
  rw [← other]
  rfl

/-! ## LINE_ACK of a chair (R131) -/

theorem State.refreshPresence_rep (s : State) (c : Chair) : (s.refreshPresence c).rep = s.rep := by
  unfold State.refreshPresence
  split <;> rfl

/-- The line, then its event after the DONE notice. -/
theorem State.SameReporting.doneNone_acknowledge {s u : State} (h : s.SameReporting u) (hrep : u.rep = s.rep) (c : Chair)
    (tag : Word16) (k : Line) : (u.doneNone c tag).acknowledge k (some c) = { u with
      lines := putAt u.lines k { u.lines[k] with status := .clear }
      rep := (s.rep.notice s c ⟨.done, tag, none, some c, 0, 0, 0, 0, 0⟩).raise s
        ⟨.interlockAck, none, some c, lineDetail k⟩ } := by
  have hd : u.doneNone c tag = { u with rep := s.rep.notice s c ⟨.done, tag, none, some c, 0, 0, 0, 0, 0⟩ } := by
    rw [State.doneNone, h.notice_eq, hrep]
  have hr : s.SameReporting (u.doneNone c tag) := ⟨h.timer, h.tables, h.present⟩
  rw [State.acknowledge_eq, Report.raise_same hr, hd]

end Sys2Proof.Machine

namespace Sys2Proof

open Machine

/-- Settles O47. -/
theorem managementReads : Obligations.ManagementReads := by
  intro s h tag a b data hi answer authority chair queue lines links
  have hauth (l : Loader) : authority l = s.authorityBytes l := by
    simp only [authority, State.authorityBytes, flagBits_two]
    generalize s.auth[l].state.cause = cause
    generalize s.auth[l].state.origin = origin
    cases cause <;> match origin with
      | none => rfl
      | some (.call _) => rfl
      | some .direct => rfl
  have hchair (c : Chair) : chair c = s.chairBytes c := by
    simp only [chair, State.chairBytes]
    generalize s.chairs[c].status = status
    cases status <;> rfl
  have hlines : lines = s.lineBytes := by
    refine congrArg₂ (· ++ ·) (congrArg (fun f => List.flatMap f allLines) (funext fun i => ?_))
      (congrArg (fun x => [x]) ?_)
    rotate_left
    · generalize s.beacons[0] = x
      generalize s.beacons[1] = y
      generalize s.beacons[2] = z
      generalize s.beacons[3] = w
      revert x y z w
      decide
    dsimp only
    generalize s.lines[i] = x
    simp only [flagBits, decide_eq_true_eq]
    cases x.status <;> rfl
  have hlinks : links = s.linkBytes := by
    refine congrArg (fun f => allLoaders.flatMap f) (funext fun l => ?_)
    dsimp only
    generalize s.status[l] = st
    simp only [LoaderStatus.linkByte, flagBits_two, missedCount, LoaderStatus.farEndSum]
    cases st.zone <;> rfl
  refine ⟨fun ha => ?_, fun ha => ?_, fun ha => ?_⟩
  · refine (ha.exec_idle hi rfl (s.carryOut_ident rfl)).trans (congrArg _ ?_)
    cases data <;> rfl
  · refine (ha.exec_idle hi rfl (s.carryOut_readEntry rfl)).trans ?_
    change Host.Outcome.next (s.answerTo (mgmtRequestOf h 0x02 tag a b data) (s.readEntryService a b data)) = _
    unfold State.readEntryService
    cases entryRef a b with
    | error st => rfl
    | ok r => cases data <;> rfl
  · refine (ha.exec_idle hi rfl (s.carryOut_readState rfl)).trans (congrArg _ ?_)
    change s.answerTo (mgmtRequestOf h 0x04 tag a b data) (s.readStateService a b data) = _
    have hload : queue = s.queueBytes := rfl
    rw [hload, hlines, hlinks]
    simp only [hauth, hchair]
    by_cases hd : data ≠ []
    · rw [if_pos hd, State.readStateService, if_pos (by simpa using hd)]
      rfl
    rw [if_neg hd, State.readStateService, if_neg (by simpa using hd)]
    by_cases h1 : a = 0x01
    · rw [if_pos h1, if_pos h1]
      unfold indexOfByte
      by_cases hb : b.toNat < 16
      · rw [dif_pos hb, dif_pos hb]
        rfl
      · rw [dif_neg hb, dif_neg hb]
        rfl
    rw [if_neg h1, if_neg h1]
    by_cases h2 : a = 0x02
    · rw [if_pos h2, if_pos h2]
      unfold indexOfByte
      by_cases hb : b.toNat < 8
      · rw [dif_pos hb, dif_pos hb]
        rfl
      · rw [dif_neg hb, dif_neg hb]
        rfl
    rw [if_neg h2, if_neg h2]
    by_cases h3 : a = 0x03
    · rw [if_pos h3, if_pos h3]
      rfl
    rw [if_neg h3, if_neg h3]
    by_cases h4 : a = 0x04
    · rw [if_pos h4, if_pos h4]
      rfl
    rw [if_neg h4, if_neg h4]
    by_cases h5 : a = 0x05
    · rw [if_pos h5, if_pos h5]
      rfl
    · rw [if_neg h5, if_neg h5]
      rfl

/-- Settles O48. -/
theorem writeEntryLeavesAPendingWrite : Obligations.WriteEntryLeavesAPendingWrite := by
  intro s h tag table index data ha hi answer refused inUse clash denied
  have hexec {v : Served} (hv : s.writeEntryService table index data = v) : exec (.writeEntry h tag table index data) s =
      .next (v.state.placeResponse (responseFrame s.tables.device.station
        ⟨h.source, h.sequence, 0x03, tag, table, index, data⟩ v.status v.data)) :=
    ha.exec_idle hi rfl ((s.carryOut_writeEntry rfl).trans hv)
  have hrefused {status : MgmtStatus} (hj : s.judgeWrite table index data = .error status) : refused status :=
    hexec (v := s.answer status) (by rw [State.writeEntryService, hj])
  cases hr : entryRef table index with
  | error status => exact hrefused (by rw [State.judgeWrite, hr])
  | ok r =>
    dsimp only
    cases hw : readWrite r data with
    | none => exact hrefused (by simp only [State.judgeWrite, hr, hw])
    | some w =>
      have huse : s.writeInUse w = true ↔ inUse w := by
        cases w with
        | loader l e => exact s.writeInUse_loader l e
        | chair c e => exact s.writeInUse_chair c e
        | _ => exact ⟨nofun, nofun⟩
      have hclash : s.writeClash w = true ↔ clash w := by
        cases w with
        | loader l e => exact s.writeClash_loader l e
        | _ => exact ⟨nofun, nofun⟩
      have hdenied : s.writeDenied w = true ↔ denied w := by
        cases w with
        | mgmtStation i e => exact s.writeDenied_mgmt i e
        | _ => exact ⟨nofun, nofun⟩
      dsimp only
      rw [← huse, ← hclash, ← hdenied]
      refine ⟨fun h1 => hrefused ?_, fun h1 h2 => hrefused ?_, fun h1 h2 h3 => hrefused ?_, fun h1 h2 h3 => ?_, fun x => ?_⟩
      · simp only [State.judgeWrite, hr, hw, h1, if_true]
      · simp only [State.judgeWrite, hr, hw, h1, h2, if_true, if_false, Bool.false_eq_true]
      · simp only [State.judgeWrite, hr, hw, h1, h2, h3, if_true, if_false, Bool.false_eq_true]
      · exact hexec (v := ⟨{ s with writes := s.writes.put w }, .ok, []⟩)
          (by simp only [State.writeEntryService, State.judgeWrite, hr, hw, h1, h2, h3, if_false, Bool.false_eq_true])
      · rw [Writes.put_marked, readWrite_ref hw]

/-- Settles O49. -/
theorem countersAreReadAndControlled : Obligations.CountersAreReadAndControlled := by
  intro s h tag a b flag data g hi _ answer bad values outside
  have hread {data : List Byte} {v : Served} (ha : s.AdmitsMgmt (mgmtFrame h 0x05 tag a b data))
      (hv : s.readCountersService a b data = v) : exec (.readCounters h tag a b data) s =
      .next (v.state.placeResponse (responseFrame s.tables.device.station
        ⟨h.source, h.sequence, 0x05, tag, a, b, data⟩ v.status v.data)) :=
    ha.exec_idle hi rfl ((s.carryOut_readCounters rfl).trans hv)
  have hctl {i : Instr} {data : List Byte} (hm : managed i = some (h, 0x06, tag, a, b, data)) {v : Served}
      (hv : s.counterControlService data = v) (ha : s.AdmitsMgmt (mgmtFrame h 0x06 tag a b data)) : exec i s =
      .next (v.state.placeResponse (responseFrame s.tables.device.station
        ⟨h.source, h.sequence, 0x06, tag, a, b, data⟩ v.status v.data)) :=
    ha.exec_idle hi hm ((s.carryOut_counterControl rfl).trans hv)
  have hextra (x : Byte) (hd : data ≠ []) : s.counterControlService (x :: data) = s.answer .badValue := by
    obtain ⟨y, ys, rfl⟩ := List.exists_cons_of_ne_nil hd
    rfl
  refine ⟨counterGroup_eq_ok, fun ha hbad => ?_, fun hd => ⟨hctl rfl (hextra _ hd), hctl rfl (hextra _ hd), hctl rfl (hextra _ hd)⟩,
    fun ha hg => ⟨?_, ?_⟩, hctl rfl rfl, hctl rfl rfl, fun ha => ⟨_, hctl rfl rfl ha, s.rep.clearAllCounters_counter, ?_, ?_⟩⟩
  · suffices hs : s.readCountersService a b data = s.answer (
        if data.length ≠ 1 then .badValue
        else if a ∉ ([0x01, 0x02, 0x03] : List Byte) then .badTable
        else if outside then .badIndex
        else .badValue) from hread ha hs
    match data with
    | [] => rfl
    | _ :: _ :: _ => rfl
    | [x] =>
      have hlen : ¬ [x].length ≠ 1 := fun hn => hn rfl
      rw [if_neg hlen]
      replace hbad := hbad.resolve_left hlen
      simp only [State.readCountersService]
      by_cases hout : a ∉ ([0x01, 0x02, 0x03] : List Byte) ∨ outside = true
      · rw [counterGroup_error hout]
        by_cases ht : a ∉ ([0x01, 0x02, 0x03] : List Byte)
        · rw [if_pos ht, if_pos ht]
        · rw [if_neg ht, if_neg ht, if_pos (hout.resolve_left ht)]
      · obtain ⟨ht, ho⟩ := not_or.mp hout
        obtain ⟨h0, h1⟩ := (hbad.resolve_left ht).resolve_left ho
        have hflag : ¬ (x = 0x00 ∨ x = 0x01) := by
          rintro (rfl | rfl)
          · exact h0 rfl
          · exact h1 rfl
        rw [if_neg ht, if_neg ho]
        have hok : ∃ g, counterGroup a b = .ok g := by
          simp only [outside, Bool.or_eq_true, Bool.and_eq_true, decide_eq_true_eq, not_or, not_and, not_le] at ho
          simp only [not_not, List.mem_cons, List.not_mem_nil, or_false] at ht
          obtain rfl | rfl | rfl := ht
          · exact ⟨.loader ⟨b.toNat, ho.1 rfl⟩, counterGroup_eq_ok.mpr ⟨rfl, rfl⟩⟩
          · exact ⟨.chair ⟨b.toNat, ho.2 rfl⟩, counterGroup_eq_ok.mpr ⟨rfl, rfl⟩⟩
          · exact ⟨.device, counterGroup_eq_ok.mpr rfl⟩
        obtain ⟨g', hg'⟩ := hok
        simp only [hg', hflag, if_false]
  · rintro rfl
    refine hread ha (v := ⟨s, .ok, values ++ [s.rep.bankByte]⟩) ?_
    simp only [State.readCountersService, hg]
    rfl
  · rintro rfl
    refine ⟨{ s with rep := s.rep.clearGroup g }, hread ha (v := ⟨_, .ok, _⟩) ?_, s.rep.clearGroup_counter g,
      (s.rep.clearGroup_eq g).1, congrArg (fun r => { s with rep := r }) (s.rep.clearGroup_eq g).2⟩
    have hfrozen : (s.rep.clearGroup g).frozen = s.rep.frozen := by rw [(s.rep.clearGroup_eq g).2]
    simp only [State.readCountersService, hg]
    rw [← hfrozen]
    rfl
  · exact s.rep.clearAllCounters_warning
  · have hw := s.rep.clearAllCounters_warning
    change { s with rep := s.rep.clearAllCounters } = _
    rw [← hw]
    rfl

/-- Settles O50. -/
theorem logAttnResetAndSave : Obligations.LogAttnResetAndSave := by
  intro s h operation tag a b data hi answer n
  refine ⟨fun ha => ?_, fun ha => ?_, fun ha => ?_, fun ha => ?_, fun ha ho => ?_⟩
  · refine (ha.exec_idle hi rfl (s.carryOut_readLog rfl)).trans (congrArg _ ?_)
    change s.answerTo (mgmtRequestOf h 0x07 tag a b data) (s.readLogService b data) = _
    by_cases hd : data ≠ []
    · rw [if_pos hd, State.readLogService, if_pos (by simpa using hd)]
      rfl
    rw [if_neg hd, State.readLogService, if_neg (by simpa using hd)]
    by_cases hn : 1 ≤ b.toNat ∧ b.toNat ≤ 8
    · have hw : within 1 8 b.toNat = true := by simpa [within] using hn
      have hdrop : s.rep.log.drop b.toNat = s.rep.log.drop n := List.drop_eq_drop_min
      have htake : s.rep.log.take b.toNat = s.rep.log.take n := List.take_eq_take_min
      have hlen : (s.rep.log.take n).length = n := by
        rw [List.length_take]
        exact Nat.min_eq_left (Nat.min_le_right _ _)
      simp only [hw, hn, and_self, if_true, hdrop, htake, hlen]
      rfl
    · have hw : ¬ within 1 8 b.toNat = true := by simpa [within] using hn
      rw [if_neg hn, if_neg hw]
      rfl
  · refine (ha.exec_idle hi rfl (s.carryOut_attnClear rfl)).trans (congrArg _ ?_)
    cases data <;> rfl
  · refine (ha.exec_idle hi rfl (s.carryOut_resetAuthority rfl)).trans (congrArg _ ?_)
    cases data <;> rfl
  · refine (ha.exec_idle hi rfl (s.carryOut_saveConfig rfl)).trans (congrArg _ ?_)
    change s.answerTo (mgmtRequestOf h 0x0B tag a b data) (s.saveConfigService data) = _
    cases data with
    | cons => rfl
    | nil =>
      simp only [State.saveConfigService]
      cases hp : s.config.phase <;> rfl
  · exact ha.exec_idle hi rfl (s.carryOut_unknown ho)

/-- Settles O43. -/
theorem lineAckClearsALatchedLine : Obligations.LineAckClearsALatchedLine := by
  intro s h tag selector line data c u cleared raised answer
  refine ⟨fun ha hp => ?_, fun ha hi => ?_⟩
  · have hexec : exec (.lineAck h tag line []) s = .next (u.lineAckRequest c tag [line]).finish :=
      congrArg _ (ha.chairCommand _)
    have hquiet := ha.1.1
    have hpu : ¬ u.chairs[c].status = .absent := by rwa [s.refreshPresence_chairStatus c c]
    have htab : u.tables = s.tables := s.refreshPresence_tables c
    have hlines : u.lines = s.lines := s.refreshPresence_lines c
    rw [hexec, State.lineAckRequest, if_neg hpu]
    dsimp only
    cases indexOfByte 8 line with
    | none => exact congrArg _ (hquiet.finish_refused c tag none _)
    | some i =>
      dsimp only
      rw [htab, hlines]
      cases hs : s.tables.chairs[c].supervisor with
      | false => exact congrArg _ (hquiet.finish_refused c tag none _)
      | true =>
        simp only [Bool.not_true, Bool.false_eq_true, Bool.true_eq_false, if_false]
        by_cases hl : s.lines[i].status ≠ .latched
        · rw [if_pos hl, if_pos hl]
          exact congrArg _ (hquiet.finish_refused c tag none _)
        · rw [if_neg hl, if_neg hl]
          rw [(s.refreshPresence_same c).doneNone_acknowledge (s.refreshPresence_rep c), hlines, ← htab]
          generalize s.rep.notice s c _ = r
          exact congrArg _ (State.finish_quiet (t := { u with lines := cleared i, rep := raised r i (some c) }) hquiet
            (s.refreshPresence_walkCalled c) (s.refreshPresence_beacons c) (s.refreshPresence_auth c)
            (s.refreshPresence_status c) htab)
  · refine (ha.exec_idle hi rfl (s.carryOut_lineAck rfl)).trans (congrArg _ ?_)
    change s.answerTo (mgmtRequestOf h 0x09 tag selector line data) (s.mgmtLineAckService line data) = _
    cases data with
    | cons => cases indexOfByte 8 line <;> rfl
    | nil =>
      simp only [State.mgmtLineAckService]
      cases indexOfByte 8 line with
      | none => rfl
      | some i =>
        by_cases hl : s.lines[i].status = .latched
        · simp only [hl, and_self, if_true, State.acknowledge_eq]
          rfl
        · simp only [hl, and_false, if_false]
          rfl

end Sys2Proof
end

section
/-! Frames on their way to an owner (R137, R150-R156): the structured rows and their bursts, the source tests, the match rules. -/

namespace Sys2Proof.Machine

open Sys2Proof

/-! ## Payloads read back (R141, R142, R143, R145) -/

theorem commandOfBytes_commandBytes (p : CommandPayload) : commandOfBytes (commandBytes p) = some p := by
  simp only [commandBytes, bytes16, List.cons_append, List.nil_append, commandOfBytes, word16_own_bytes]

theorem vector_eight_eq {α : Type} (v : Vector α 8) : v = #v[v[0], v[1], v[2], v[3], v[4], v[5], v[6], v[7]] := by
  apply Vector.ext
  intro i hi
  match i, hi with
  | 0, _ => rfl
  | 1, _ => rfl
  | 2, _ => rfl
  | 3, _ => rfl
  | 4, _ => rfl
  | 5, _ => rfl
  | 6, _ => rfl
  | 7, _ => rfl

theorem statusBytes_eq (p : StatusPayload) : statusBytes p = [p.mode, p.request, p.zone, p.farEnd]
    ++ bytes16 p.words[0] ++ bytes16 p.words[1] ++ bytes16 p.words[2] ++ bytes16 p.words[3]
    ++ bytes16 p.words[4] ++ bytes16 p.words[5] ++ bytes16 p.words[6] ++ bytes16 p.words[7] := by
  have h : p.words.toList = [p.words[0], p.words[1], p.words[2], p.words[3], p.words[4], p.words[5], p.words[6], p.words[7]] :=
    congrArg Vector.toList (vector_eight_eq p.words)
  rw [statusBytes, h]
  rfl

theorem statusOfBytes_statusBytes (p : StatusPayload) : statusOfBytes (statusBytes p) = some p := by
  rw [statusBytes_eq]
  simp only [bytes16, List.cons_append, List.nil_append, statusOfBytes, word16_own_bytes]
  exact congrArg (fun w => some (⟨p.mode, p.request, p.zone, p.farEnd, w⟩ : StatusPayload)) (vector_eight_eq p.words).symm

theorem requestFrame_length (h : Header) (code : Byte) (tag : Word16) (args : List Byte) :
    (requestFrame h code tag args).payload.length = 3 + args.length := by
  simp only [requestFrame, bytes16, List.cons_append, List.nil_append, List.length_cons]
  omega

theorem mgmtFrame_length (h : Header) (operation : Byte) (tag : Word16) (selector index : Byte) (data : List Byte) :
    (mgmtFrame h operation tag selector index data).payload.length = 5 + data.length := by
  simp only [mgmtFrame, bytes16, List.cons_append, List.nil_append, List.length_cons]
  omega

theorem statusFrameOf_length (h : Header) (p : StatusPayload) : (statusFrameOf h p).payload.length = 20 := by
  rw [statusFrameOf, statusBytes_eq]
  rfl

/-! ## What the classifier makes of the structured rows (R151, R156) -/

theorem kindAdmitted_levelPort (q : LevelPort) : kindAdmitted q.toPort kindStatus = true := by
  cases q <;> rfl

section classify
variable (s : State)

theorem State.classify_commandFrame (h : Header) (p : CommandPayload) : s.classify .surface (Machine.commandFrame h p) =
    s.fromChair (Machine.commandFrame h p) fun s c => s.commandFrameFrom c h p := by
  simp only [State.classify, Machine.commandFrame, commandOfBytes_commandBytes]
  rfl

theorem State.classify_statusFrameOf (q : LevelPort) (h : Header) (p : StatusPayload) :
    s.classify q.toPort (statusFrameOf h p) = s.fromLoader q.toPort (statusFrameOf h p) fun s l => s.statusFrame l h p := by
  simp only [State.classify, statusFrameOf, statusOfBytes_statusBytes, kindAdmitted_levelPort]
  rfl

theorem State.classify_requestFrame (h : Header) (code : Byte) (tag : Word16) (args : List Byte) :
    s.classify .surface (requestFrame h code tag args) =
      s.fromChair (requestFrame h code tag args) fun s c => s.chairRequest c h.loader code tag args := by
  simp only [State.classify, requestFrame, bytes16, List.cons_append, List.nil_append, word16_own_bytes]
  rfl

theorem State.classify_mgmtFrame (h : Header) (operation : Byte) (tag : Word16) (selector index : Byte) (data : List Byte) :
    s.classify .surface (mgmtFrame h operation tag selector index data) =
      s.fromStation (mgmtFrame h operation tag selector index data) (mgmtRequestOf h operation tag selector index data) := by
  simp only [State.classify, mgmtFrame, bytes16, List.cons_append, List.nil_append, word16_own_bytes]
  rfl

end classify

/-! ## Arrivals (R149) -/

section arrival
variable {s : State} {p : Port} {f : Frame}

theorem State.arrival_down (hl : s.linkIsUp p = false) (k : State → State) : s.arrival p f k = s := by
  simp [State.arrival, hl]

theorem State.receiveBurst_down (hl : s.linkIsUp p = false) (burst : List Byte) : s.receiveBurst p burst = s := by
  simp [State.receiveBurst, hl]

/-- The burst of a frame arrives as the frame does, whatever the link's state. -/
theorem State.Ready.exec_burst_eq (hr : s.Ready) (hlen : f.payload.length ≤ maxPayload)
    (hfits : payloadFits f.kind f.payload.length = true) :
    exec (.burstReceived p (frameBurst s.tables.device.marker f)) s = .next (s.arrival p f (·.classify p f)).finish := by
  cases hl : s.linkIsUp p with
  | false =>
    rw [State.arrival_down hl]
    exact congrArg _ ((hr.run _).trans (congrArg State.finish (State.receiveBurst_down hl _)))
  | true => rw [State.arrival_fits hl hlen, hr.exec_frameBurst hl hlen hfits]

end arrival

/-- The match rules pass, drop or log a frame (R155). -/
theorem State.throughRules_decided {s : State} {f : Frame} {r : Fin 16} (hd : s.decidingRule f = some r) (chair : Option Chair)
    (dispatch : State → State) :
    (s.tables.rules[r].action = .drop → s.throughRules f chair dispatch = s.count (.device ruleDrops))
    ∧ (s.tables.rules[r].action = .passLog → s.throughRules f chair dispatch =
        dispatch (s.raise .ruleHit (indexOfByte 16 f.header.loader) chair (wordOf r.val))) := by
  constructor <;> intro ha <;> simp only [State.throughRules, hd, ha]

/-- The deciding rule is the first in use that matches, and none for a STOP (R154, R155). -/
theorem State.decidingRule_eq_some {s : State} {f : Frame} {r : Fin 16} (hx : ruleExempt f = false) : s.decidingRule f = some r ↔
    s.tables.rules[r].covers f = true ∧ ∀ n : Fin 16, n < r → s.tables.rules[n].covers f = false := by
  rw [State.decidingRule, hx, if_neg Bool.false_ne_true, ← Fin.find?_eq_find?_finRange]
  exact Fin.find?_eq_some_iff

theorem ruleExempt_of_not {f : Frame} (h : ¬ (f.kind = kindChairRequest ∧ f.payload.headD 0 = 0x17)) : ruleExempt f = false := by
  by_cases hk : f.kind = kindChairRequest
  · have hc : ¬ f.payload.headD 0 = 0x17 := fun hc => h ⟨hk, hc⟩
    simp only [ruleExempt, requestCodeOf, hk, true_or, if_true, hc, decide_false, Bool.and_false]
  · simp only [ruleExempt, hk, decide_false, Bool.false_and]

/-! ## The structured rows while nothing waits -/

section rows
variable {s : State}

theorem State.Ready.exec_command (hr : s.Ready) (hl : s.linkIsUp .surface = true) (h : Header) (p : CommandPayload) :
    exec (.command h p) s =
      .next (s.fromChair (Machine.commandFrame h p) fun s c => s.commandFrameFrom c h p).finish := by
  refine (congrArg Host.Outcome.next (hr.run _)).trans ?_
  have hlen : (Machine.commandFrame h p).payload.length ≤ maxPayload := show 12 ≤ 256 by decide
  rw [State.arrival_fits hl hlen]

theorem State.Ready.exec_status (hr : s.Ready) {q : LevelPort} (hl : s.linkIsUp q.toPort = true) (h : Header) (p : StatusPayload) :
    exec (.status q h p) s =
      .next (s.fromLoader q.toPort (statusFrameOf h p) fun s l => s.statusFrame l h p).finish := by
  refine (congrArg Host.Outcome.next (hr.run _)).trans ?_
  have hlen : (statusFrameOf h p).payload.length ≤ maxPayload := by
    rw [statusFrameOf_length]
    decide
  rw [State.arrival_fits hl hlen]

theorem State.Ready.exec_request (hr : s.Ready) (hl : s.linkIsUp .surface = true) {i : Instr} {h code tag args}
    (hi : i.asked = some (h, code, tag, args)) (hlen : 3 + args.length ≤ 256) : exec i s =
      .next (s.fromChair (requestFrame h code tag args) fun s c => s.chairRequest c h.loader code tag args).finish := by
  rw [exec_asked hi, State.chairCommand, hr.run, State.arrival_fits hl ((requestFrame_length h code tag args).trans_le hlen)]

theorem State.Ready.exec_mgmtRequest (hr : s.Ready) (hl : s.linkIsUp .surface = true) {h operation tag selector index data}
    (hlen : 5 + List.length data ≤ 256) : exec (.mgmtRequest h operation tag selector index data) s =
      .next (s.fromStation (mgmtFrame h operation tag selector index data)
        (mgmtRequestOf h operation tag selector index data)).finish := by
  have hrow : exec (.mgmtRequest h operation tag selector index data) s =
      .next (s.mgmtCommand h operation tag selector index data) := rfl
  rw [hrow, State.mgmtCommand, hr.run,
    State.arrival_fits hl ((mgmtFrame_length h operation tag selector index data).trans_le hlen)]

/-- An event that only counts ends as it stands. -/
theorem State.Ready.finish_counted (hr : s.Ready) {t : State} {id : CounterId} (ht : t = s.count id) : t.finish = s.count id := by
  subst ht
  exact hr.1.finish_count id 1

theorem State.Ready.exec_ruled (hr : s.Ready) {i : Instr} {f : Frame} {chair : Option Chair} {dispatch : State → State}
    (he : exec i s = .next (s.throughRules f chair dispatch).finish) {r : Fin 16} (hd : s.decidingRule f = some r) :
    (s.tables.rules[r].action = .drop → exec i s = .next (s.count (.device ruleDrops)))
    ∧ (s.tables.rules[r].action = .passLog → exec i s =
        .next (dispatch (s.raise .ruleHit (indexOfByte 16 f.header.loader) chair (wordOf r.val))).finish) := by
  obtain ⟨hdrop, hlog⟩ := State.throughRules_decided hd chair dispatch
  exact ⟨fun ha => he.trans (congrArg _ (hr.finish_counted (hdrop ha))), fun ha => he.trans (by rw [hlog ha])⟩

variable {i : Instr} {f : Frame} {owner : State → Chair → State}

theorem State.Ready.exec_unknown (hr : s.Ready) (he : exec i s = .next (s.fromChair f owner).finish)
    (hc : s.chairOf f.header.source = none) : exec i s = .next (s.count (.device unknownSource)) := by
  rw [he, hr.finish_counted]
  simp only [State.fromChair, hc]

theorem State.Ready.exec_chairRuled (hr : s.Ready) (he : exec i s = .next (s.fromChair f owner).finish) {x : Chair}
    (hc : s.chairOf f.header.source = some x) {r : Fin 16} (hd : s.decidingRule f = some r) :
    (s.tables.rules[r].action = .drop → exec i s = .next (s.count (.device ruleDrops)))
    ∧ (s.tables.rules[r].action = .passLog → exec i s = .next (owner
        ((s.raise .ruleHit (indexOfByte 16 f.header.loader) (some x) (wordOf r.val)).refreshPresence x) x).finish) := by
  refine hr.exec_ruled (dispatch := fun s => owner (s.refreshPresence x) x) (he.trans ?_) hd
  simp only [State.fromChair, hc]

end rows

end Sys2Proof.Machine

namespace Sys2Proof

open Machine

/-- Settles O26: the burst's judgement reads the frame back, and the classifier's owner is the row's. -/
theorem burstsSpellTheStructuredRows : Obligations.BurstsSpellTheStructuredRows := by
  intro s i h c code tag args q st operation selector index hr
  refine ⟨?command, ?status, fun hi hlen => ?request, fun hlen => ?management⟩
  case command =>
    have he : exec (.command h c) s = .next (s.arrival .surface (commandFrame h c) fun s =>
        s.fromChair (commandFrame h c) fun s x => s.commandFrameFrom x h c).finish := congrArg _ (hr.run _)
    rw [he]
    refine (hr.exec_burst_eq (f := commandFrame h c) (show 12 ≤ 256 by decide) rfl).trans ?_
    simp only [State.classify_commandFrame]
  case status =>
    have he : exec (.status q h st) s = .next (s.arrival q.toPort (statusFrameOf h st) fun s =>
        s.fromLoader q.toPort (statusFrameOf h st) fun s l => s.statusFrame l h st).finish := congrArg _ (hr.run _)
    have hlen := statusFrameOf_length h st
    rw [he]
    refine (hr.exec_burst_eq (by rw [hlen]; decide) (by rw [hlen]; rfl)).trans ?_
    simp only [State.classify_statusFrameOf]
  case request =>
    have hl := requestFrame_length h code tag args
    have hf : payloadFits kindChairRequest (3 + args.length) = true := by simp [payloadFits, kindChairRequest, kindCommand, kindStatus]
    rw [exec_asked hi, State.chairCommand, hr.run]
    refine (hr.exec_burst_eq (hl.trans_le hlen) (by rw [hl]; exact hf)).trans ?_
    simp only [State.classify_requestFrame]
  case management =>
    have hl := mgmtFrame_length h operation tag selector index args
    have hf : payloadFits kindMgmtRequest (5 + args.length) = true := by
      simp [payloadFits, kindMgmtRequest, kindChairRequest, kindCommand, kindStatus]
    have he : exec (.mgmtRequest h operation tag selector index args) s =
        .next (s.mgmtCommand h operation tag selector index args) := rfl
    rw [he, State.mgmtCommand, hr.run]
    refine (hr.exec_burst_eq (hl.trans_le hlen) (by rw [hl]; exact hf)).trans ?_
    simp only [State.classify_mgmtFrame]

/-- Settles O24. -/
theorem discardedFramesAreCounted : Obligations.DiscardedFramesAreCounted := by
  intro s p burst i h c code tag args q st operation selector index f x l r hit acts request management
  refine ⟨?exempt, fun hf => ?deciding, ?covers, fun hr => ?_⟩
  case exempt => rfl
  case deciding => exact State.decidingRule_eq_some (ruleExempt_of_not hf)
  case covers => rfl
  refine ⟨fun hl => ?down, fun hl hj => ?framing, fun hl hj => ?check, fun hl hs => ?status,
    fun hl hs => hr.exec_unknown (hr.exec_command hl h c) hs, fun hl hs => hr.exec_ruled (chair := none) (dispatch := fun s => s.statusFrame l h st) ((hr.exec_status hl h st).trans ?_),
    fun hl hs => hr.exec_chairRuled (hr.exec_command hl h c) hs, fun hl hi hlen =>
      ⟨fun hs => hr.exec_unknown (hr.exec_request hl hi hlen) hs, fun hs => hr.exec_chairRuled (hr.exec_request hl hi hlen) hs⟩,
    fun hl hlen => ⟨fun hs => ?denied, fun hs => hr.exec_ruled (chair := none)
      (dispatch := fun s => s.mgmtArrival (mgmtRequestOf h operation tag selector index args))
      ((hr.exec_mgmtRequest hl hlen).trans ?_)⟩⟩
  case down =>
    refine congrArg Host.Outcome.next ((hr.run _).trans ?_)
    rw [State.receiveBurst_down hl]
    exact State.finish_quiet hr.1 rfl rfl rfl rfl rfl
  case framing =>
    refine congrArg Host.Outcome.next ((hr.run _).trans (hr.finish_counted ?_))
    simp only [State.receiveBurst, hl, hj, Bool.not_true, Bool.false_eq_true, if_false, State.framingError]
  case check =>
    refine congrArg Host.Outcome.next ((hr.run _).trans (hr.finish_counted ?_))
    simp only [State.receiveBurst, hl, hj, Bool.not_true, Bool.false_eq_true, if_false, State.checkError]
  case status =>
    rw [hr.exec_status hl h st, hr.finish_counted]
    simp only [State.fromLoader, statusFrameOf, hs]
  case denied =>
    rw [hr.exec_mgmtRequest hl hlen, hr.finish_counted]
    exact if_neg (by rw [show management.header.source = h.source from rfl, hs]; decide)
  · simp only [State.fromLoader, statusFrameOf, hs]
  · exact congrArg _ (congrArg _ (if_pos hs))

end Sys2Proof
end

section
/-! Requests that fail a common check (R13), VIEW_ON (R120), and a COMMAND frame of the holder (R55, R72-R74). -/

namespace Sys2Proof.Machine

open Sys2Proof

/-! ## Ends of events that move nothing but presence, mailboxes, views and reports -/

/-- An event that leaves the walk, the records, the zones and the tables to the presence reload ends as it stands. -/
theorem State.Quiet.finish_reloaded {s t : State} (h : s.Quiet) {c : Chair} (hw : t.walkCalled = (s.refreshPresence c).walkCalled)
    (hb : t.beacons = (s.refreshPresence c).beacons) (ha : t.auth = (s.refreshPresence c).auth)
    (hs : t.status = (s.refreshPresence c).status) (ht : t.tables = (s.refreshPresence c).tables) : t.finish = t :=
  State.finish_quiet h (hw.trans (s.refreshPresence_walkCalled c)) (hb.trans (s.refreshPresence_beacons c))
    (ha.trans (s.refreshPresence_auth c)) (hs.trans (s.refreshPresence_status c)) (ht.trans (s.refreshPresence_tables c))

/-! ## The common checks (R13) -/

section checks
variable {s : State} {c : Chair} {b code : Byte} {tag : Word16} {args : List Byte}

theorem State.authorityRequest_absent (hp : s.chairs[c].status = .absent) (fits : Bool) (k : State → Loader → State) :
    s.authorityRequest c b tag fits k = s.refuse c tag (indexOfByte 16 b) .notPresent :=
  if_pos hp

theorem State.authorityRequest_ill (hp : s.chairs[c].status ≠ .absent) (k : State → Loader → State) :
    s.authorityRequest c b tag false k = s.refuse c tag (indexOfByte 16 b) .badArgument := by
  simp only [State.authorityRequest, hp, if_false]
  cases indexOfByte 16 b <;> rfl

theorem State.authorityRequest_unnamed (hp : s.chairs[c].status ≠ .absent) (hb : indexOfByte 16 b = none) (fits : Bool)
    (k : State → Loader → State) : s.authorityRequest c b tag fits k = s.refuse c tag none .badArgument := by
  simp only [State.authorityRequest, hp, if_false, hb]

theorem State.authorityRequest_named (hp : s.chairs[c].status ≠ .absent) {l : Loader} (hb : indexOfByte 16 b = some l)
    (k : State → Loader → State) :
    (s.enabled l = false → s.authorityRequest c b tag true k = s.refuse c tag (some l) .notInService)
    ∧ (s.enabled l = true → s.permits c l = false →
        s.authorityRequest c b tag true k = s.refuse c tag (some l) .notPermitted) := by
  constructor
  · intro he
    simp only [State.authorityRequest, hp, if_false, hb, he, Bool.not_true, Bool.false_eq_true, Bool.not_false, if_true]
  · intro he hpm
    simp only [State.authorityRequest, hp, if_false, hb, he, hpm, Bool.not_true, Bool.false_eq_true, Bool.not_false, if_true]

theorem indexOfByte_isSome (n : Nat) (b : Byte) : (indexOfByte n b).isSome = !decide (n ≤ b.toNat) := by
  by_cases h : b.toNat < n
  · simp [indexOfByte, h]
  · simp [indexOfByte, h, Nat.not_lt.mp h]

theorem offerNumberArg_isSome (args : List Byte) : (offerNumberArg args).isSome = !decide (args.length ≠ 2) := by
  match args with
  | [] => rfl
  | [_] => rfl
  | [_, _] => rfl
  | _ :: _ :: _ :: _ => rfl

theorem releaseMode_isSome (args : List Byte) :
    (ReleaseMode.ofArgs args).isSome = !(decide (args ≠ [0x01]) && decide (args ≠ [0x02])) := by
  match args with
  | [] => rfl
  | x :: y :: xs =>
    have hlong (z : Byte) : x :: y :: xs ≠ [z] := by simp
    simp only [ReleaseMode.ofArgs, hlong, decide_not, Option.isSome_none]
    rfl
  | [m] =>
    by_cases h1 : m = 0x01
    · subst h1
      rfl
    · by_cases h2 : m = 0x02
      · subst h2
        rfl
      · simp only [ReleaseMode.ofArgs, h1, h2, if_false, ne_eq, List.cons.injEq, and_true, not_false_eq_true, decide_true]
        rfl

theorem isEmpty_eq (args : List Byte) : args.isEmpty = !decide (args ≠ []) := by
  cases args <;> rfl

/-- STOP of a loader: any scope but ZONE (log entry 12). -/
theorem State.stopRequest_loader (h : args.head? ≠ some 0x02) :
    s.stopRequest c b tag args = s.stopLoaderRequest c b tag (!requestIllFormed 0x17 args) := by
  match args with
  | [] => rfl
  | [scope] =>
    have hs : ¬ scope = 0x02 := fun he => h (congrArg some he)
    simp only [State.stopRequest, hs, if_false]
    rfl
  | [scope, zone] =>
    have hs : ¬ scope = 0x02 := fun he => h (congrArg some he)
    by_cases h1 : scope = 0x01
    · subst h1
      rfl
    · simp only [State.stopRequest, hs, h1, if_false]
      have hill : requestIllFormed 0x17 [scope, zone] = true := by
        change (decide (scope ≠ 0x01) && !(decide (scope = 0x02) && decide (zone.toNat < 8))) = true
        rw [decide_eq_true h1, decide_eq_false hs]
        rfl
      rw [hill]
      rfl
  | scope :: _ :: _ :: _ =>
    have hs : ¬ scope = 0x02 := fun he => h (congrArg some he)
    simp only [State.stopRequest, hs, if_false]
    rfl

/-- The requests about one loader share their checks, with the form that R143 gives (R13). -/
theorem State.chairRequest_about (h : requestAboutLoader code args = true) : ∃ k : State → Loader → State,
    s.chairRequest c b code tag args = s.authorityRequest c b tag (!requestIllFormed code args) k := by
  simp only [requestAboutLoader, Bool.or_eq_true, decide_eq_true_eq, List.mem_cons, List.not_mem_nil, or_false,
    Bool.and_eq_true] at h
  have about {code : Byte} {fits : Bool} (hf : fits = !requestIllFormed code args)
      (ht : ∃ k : State → Loader → State, s.chairRequest c b code tag args = s.authorityRequest c b tag fits k) :
      ∃ k : State → Loader → State,
        s.chairRequest c b code tag args = s.authorityRequest c b tag (!requestIllFormed code args) k := hf ▸ ht
  have offer (args : List Byte) : ∃ k : State → Loader → State, s.chairRequest c b 0x11 tag args =
      s.authorityRequest c b tag (match args with
        | [t] => indexOfByte 8 t
        | _ => none : Option Chair).isSome k := ⟨_, show s.offerRequest c b tag args = _ by unfold State.offerRequest; rfl⟩
  obtain (rfl | rfl | rfl | rfl | rfl | rfl | rfl) | ⟨rfl, hs⟩ := h
  · exact about (isEmpty_eq args) ⟨_, show s.takeRequest c b tag args = _ from rfl⟩
  · match args with
    | [] => exact about (fits := false) rfl (offer [])
    | [t] => exact about (indexOfByte_isSome 8 t) (offer [t])
    | x :: y :: xs => exact about (fits := false) rfl (offer (x :: y :: xs))
  · exact about (offerNumberArg_isSome args) ⟨_, show s.acceptRequest c b tag args = _ from rfl⟩
  · exact about (offerNumberArg_isSome args) ⟨_, show s.declineRequest c b tag args = _ from rfl⟩
  · exact about (isEmpty_eq args) ⟨_, show s.cancelRequest c b tag args = _ from rfl⟩
  · exact about (releaseMode_isSome args) ⟨_, show s.releaseRequest c b tag args = _ from rfl⟩
  · exact about (isEmpty_eq args) ⟨_, show s.recoverRequest c b tag args = _ from rfl⟩
  · exact ⟨_, State.stopRequest_loader hs⟩

theorem requestNamesLoader_of_about (h : requestAboutLoader code args = true) : requestNamesLoader code args = true := by
  simp only [requestAboutLoader, Bool.or_eq_true, decide_eq_true_eq, List.mem_cons, List.not_mem_nil, or_false,
    Bool.and_eq_true] at h
  obtain (rfl | rfl | rfl | rfl | rfl | rfl | rfl) | ⟨rfl, hs⟩ := h
  all_goals try rfl
  change (true && !(true && decide (args.head? = some 0x02))) = true
  rw [decide_eq_false hs]
  rfl

/-- The requests that are not about one loader: PRESENT, LEAVE, STOP of a zone, VIEW_ON, VIEW_OFF, LINE_ACK and those with an
unknown code. -/
theorem request_kinds (code : Byte) (args : List Byte) : requestAboutLoader code args = true ∨ code = 0x01 ∨ code = 0x02
    ∨ (code = 0x17 ∧ args.head? = some 0x02) ∨ code = 0x20 ∨ code = 0x21 ∨ code = 0x30
    ∨ (requestNamesLoader code args = true ∧ requestIllFormed code args = true ∧
      ∀ (s : State) (c : Chair) (b : Byte) (tag : Word16), s.chairRequest c b code tag args = s.unknownRequest c b tag) := by
  by_cases habout : requestAboutLoader code args = true
  · exact .inl habout
  refine .inr ?_
  by_cases h1 : code = 0x01
  · exact .inl h1
  by_cases h2 : code = 0x02
  · exact .inr (.inl h2)
  by_cases h17 : code = 0x17
  · subst h17
    refine .inr (.inr (.inl ⟨rfl, ?_⟩))
    by_contra hne
    have hs : decide (args.head? ≠ some 0x02) = true := decide_eq_true hne
    exact habout (by rw [requestAboutLoader, hs]; rfl)
  by_cases h20 : code = 0x20
  · exact .inr (.inr (.inr (.inl h20)))
  by_cases h21 : code = 0x21
  · exact .inr (.inr (.inr (.inr (.inl h21))))
  by_cases h30 : code = 0x30
  · exact .inr (.inr (.inr (.inr (.inr (.inl h30)))))
  refine .inr (.inr (.inr (.inr (.inr (.inr ?_)))))
  simp only [requestAboutLoader, Bool.or_eq_true, decide_eq_true_eq, List.mem_cons, List.not_mem_nil, or_false,
    Bool.and_eq_true, not_or] at habout
  obtain ⟨⟨h10, h11, h12, h13, h14, h15, h16⟩, -⟩ := habout
  refine ⟨?_, ?_, fun s c b tag => ?_⟩
  · simp only [requestNamesLoader, h1, h2, h30, h17, ne_eq, not_false_eq_true, decide_true, Bool.and_true, decide_false,
      Bool.false_and, Bool.not_false]
  · simp only [requestIllFormed, h1, h2, h10, h11, h12, h13, h14, h15, h16, h17, h20, h21, h30, or_false, if_false]
  · simp only [State.chairRequest, h1, h2, h10, h11, h12, h13, h14, h15, h16, h17, h20, h21, h30, if_false]

/-- STOP of a zone: its zone byte, and whether its arguments have the form of R143. -/
theorem State.stopRequest_zone (h : args.head? = some 0x02) : ∃ zone fits,
    s.chairRequest c b 0x17 tag args = s.stopZoneRequest c tag zone fits
    ∧ requestIllFormed 0x17 args = !(fits && decide (zone.toNat < 8)) := by
  match args with
  | [] => exact nomatch h
  | [scope] =>
    obtain rfl : scope = 0x02 := Option.some.inj h
    exact ⟨0, false, rfl, rfl⟩
  | [scope, zone] =>
    obtain rfl : scope = 0x02 := Option.some.inj h
    exact ⟨zone, true, rfl, rfl⟩
  | scope :: zone :: _ :: _ =>
    obtain rfl : scope = 0x02 := Option.some.inj h
    exact ⟨zone, false, rfl, rfl⟩

theorem State.stopZoneRequest_ill (hp : s.chairs[c].status ≠ .absent) {zone : Byte} {fits : Bool}
    (h : (!(fits && decide (zone.toNat < 8))) = true) : s.stopZoneRequest c tag zone fits = s.refuse c tag none .badArgument := by
  rw [State.stopZoneRequest, if_neg hp]
  cases hz : indexOfByte 8 zone with
  | none => rfl
  | some z =>
    have hlt : zone.toNat < 8 := indexOfByte_eq_some.mp hz ▸ z.isLt
    cases fits with
    | false => rfl
    | true => exact absurd h (by rw [decide_eq_true hlt]; decide)

theorem availabilityOfArgs_none (h : requestIllFormed 0x01 args = true) : availabilityOfArgs args = none := by
  match args with
  | [] => rfl
  | _ :: _ :: _ => rfl
  | [a] =>
    change (decide ([a] ≠ [0x01]) && decide ([a] ≠ [0x02])) = true at h
    simp only [ne_eq, List.cons.injEq, and_true, Bool.and_eq_true, decide_eq_true_eq] at h
    simp only [availabilityOfArgs, h.1, h.2, if_false]

theorem viewArgs_none (h : requestIllFormed 0x20 args = true) : viewArgs args = none := by
  match args with
  | [] | [_] | [_, _] | [_, _, _] | _ :: _ :: _ :: _ :: _ :: _ => rfl
  | [p, b1, b0, mode] => exact if_neg (Bool.eq_false_iff.mp ((Bool.not_eq_true' _).mp h))

theorem State.chairRequest_absent (hp : s.chairs[c].status = .absent) (hc : code ≠ 0x01) :
    s.chairRequest c b code tag args =
      s.refuse c tag (if requestNamesLoader code args then indexOfByte 16 b else none) .notPresent := by
  obtain habout | rfl | rfl | ⟨rfl, hz⟩ | rfl | rfl | rfl | ⟨hn, -, hu⟩ := request_kinds code args
  · obtain ⟨k, hk⟩ := State.chairRequest_about (s := s) (c := c) (b := b) (tag := tag) habout
    rw [hk, State.authorityRequest_absent hp, if_pos (requestNamesLoader_of_about habout)]
  · exact absurd rfl hc
  · exact if_pos hp
  · obtain ⟨zone, fits, hs, -⟩ := State.stopRequest_zone (s := s) (c := c) (b := b) (tag := tag) hz
    have hnot : ¬ requestNamesLoader 0x17 args = true := by
      change ¬ (true && !(true && decide (args.head? = some 0x02))) = true
      rw [decide_eq_true hz]
      decide
    rw [hs, if_neg hnot]
    exact if_pos hp
  · exact if_pos hp
  · exact if_pos hp
  · exact if_pos hp
  · rw [hu, if_pos hn, State.unknownRequest, if_pos hp]

theorem State.chairRequest_ill (hp : s.chairs[c].status ≠ .absent ∨ code = 0x01) (hill : requestIllFormed code args = true) :
    s.chairRequest c b code tag args =
      s.refuse c tag (if requestNamesLoader code args then indexOfByte 16 b else none) .badArgument := by
  by_cases h1 : code = 0x01
  · subst h1
    change s.presentRequest c tag args = _
    rw [State.presentRequest, availabilityOfArgs_none hill]
    rfl
  replace hp := hp.resolve_right h1
  obtain habout | rfl | rfl | ⟨rfl, hz⟩ | rfl | rfl | rfl | ⟨hn, -, hu⟩ := request_kinds code args
  · obtain ⟨k, hk⟩ := State.chairRequest_about (s := s) (c := c) (b := b) (tag := tag) habout
    rw [hk, hill, if_pos (requestNamesLoader_of_about habout)]
    exact State.authorityRequest_ill hp k
  · exact absurd rfl h1
  · change s.leaveRequest c tag args = _
    cases args with
    | nil => exact nomatch hill
    | cons => exact if_neg hp
  · obtain ⟨zone, fits, hs, hf⟩ := State.stopRequest_zone (s := s) (c := c) (b := b) (tag := tag) hz
    have hnot : ¬ requestNamesLoader 0x17 args = true := by
      change ¬ (true && !(true && decide (args.head? = some 0x02))) = true
      rw [decide_eq_true hz]
      decide
    rw [hs, if_neg hnot, State.stopZoneRequest_ill hp (hf.symm.trans hill)]
  · change s.viewOnRequest c b tag args = s.refuse c tag (indexOfByte 16 b) .badArgument
    rw [State.viewOnRequest, if_neg hp, viewArgs_none hill]
    cases indexOfByte 16 b <;> rfl
  · change s.viewOffRequest c b tag args = s.refuse c tag (indexOfByte 16 b) .badArgument
    cases args with
    | nil => exact nomatch hill
    | cons => exact State.viewOffRequest_badArgument tag hp (.inr nofun)
  · change s.lineAckRequest c tag args = s.refuse c tag none .badArgument
    match args with
    | [] | _ :: _ :: _ => exact if_neg hp
    | [n] =>
      have hn : indexOfByte 8 n = none := indexOfByte_eq_none.mpr (of_decide_eq_true hill)
      simp only [State.lineAckRequest, hp, if_false, hn]
  · rw [hu, if_pos hn, State.unknownRequest, if_neg hp]

theorem State.chairRequest_unnamed (hp : s.chairs[c].status ≠ .absent) (hn : requestNamesLoader code args = true)
    (hb : indexOfByte 16 b = none) : s.chairRequest c b code tag args = s.refuse c tag none .badArgument := by
  obtain habout | rfl | rfl | ⟨rfl, hz⟩ | rfl | rfl | rfl | ⟨-, -, hu⟩ := request_kinds code args
  · obtain ⟨k, hk⟩ := State.chairRequest_about (s := s) (c := c) (b := b) (tag := tag) habout
    rw [hk, State.authorityRequest_unnamed hp hb]
  · exact nomatch hn
  · exact nomatch hn
  · change (true && !(true && decide (args.head? = some 0x02))) = true at hn
    rw [decide_eq_true hz] at hn
    exact nomatch hn
  · change s.viewOnRequest c b tag args = _
    simp only [State.viewOnRequest, hp, if_false, hb]
  · change s.viewOffRequest c b tag args = _
    rw [State.viewOffRequest_badArgument tag hp (.inl hb), hb]
  · exact nomatch hn
  · rw [hu, State.unknownRequest, if_neg hp, hb]

end checks

/-! ## COMMAND frames of the holder -/

theorem State.refreshPresence_builders (s : State) (c : Chair) : (s.refreshPresence c).builders = s.builders := by
  unfold State.refreshPresence
  split <;> rfl

theorem clampAxis_eq (x : Int) : clampAxis x = max (-2047) (min 2047 x) := by
  unfold clampAxis
  split
  · omega
  · split <;> omega

theorem readCommand_eq (p : CommandPayload) (sequence : Word16) : readCommand p sequence =
    ⟨⟨max (-2047) (min 2047 p.throttle.toInt), max (-2047) (min 2047 p.steer.toInt), max (-2047) (min 2047 p.boom.toInt),
      max (-2047) (min 2047 p.bucket.toInt)⟩,
      if p.gear = 0x01 then .forward else if p.gear = 0x02 then .reverse else .neutral, p.switches, p.deadman = 0xA5,
      sequence⟩ := by
  simp only [← clampAxis_eq]
  rfl

/-- An admitted COMMAND frame reaches the Authority Table with the sender's presence reloaded (R37, R55). -/
theorem State.Admits.exec_command {s : State} {h : Header} {p : CommandPayload} {c : Chair}
    (ha : s.Admits (Machine.commandFrame h p) c) :
    exec (.command h p) s = .next ((s.refreshPresence c).commandFrameFrom c h p).finish :=
  congrArg _ (ha.fromChair _)

end Sys2Proof.Machine

namespace Sys2Proof

open Machine

/-- Settles O27: R55's checks in order; a mailbox and a count leave the event's end nothing to do. -/
theorem holderFramesFillTheMailbox : Obligations.HolderFramesFillTheMailbox := by
  intro s h p c ha u axis m
  have hq : s.Quiet := ha.1.1
  have hm : readCommand p h.sequence = m := readCommand_eq p h.sequence
  have counted (id : CounterId) : (u.count id).finish = u.count id := hq.finish_reloaded rfl rfl rfl rfl rfl
  have htab : u.tables = s.tables := s.refreshPresence_tables c
  have hauth : u.auth = s.auth := s.refreshPresence_auth c
  have hbuild : u.builders = s.builders := s.refreshPresence_builders c
  rw [ha.exec_command]
  refine ⟨fun hl => ?_, fun l hl => ?_⟩
  · have hnone : indexOfByte 16 h.loader = none := indexOfByte_eq_none.mpr hl
    rw [State.commandFrameFrom, hnone]
    exact congrArg _ (counted _)
  · have heu : u.enabled l = s.enabled l := by rw [State.enabled, htab]; rfl
    rw [State.commandFrameFrom, hl]
    dsimp only
    rw [heu, hauth, hm]
    refine ⟨fun he => ?_, fun he hh => ?_, fun he hh hn => ?_⟩
    · rw [he]
      exact congrArg _ (counted _)
    · rw [he, if_neg (by decide), if_pos hh]
      by_cases hep : h.epoch = s.auth[l].epoch
      · rw [if_pos hep, if_neg (not_not.mpr hep), State.holderFrame, hbuild]
        split
        · exact congrArg _ (hq.finish_reloaded rfl rfl rfl rfl rfl)
        · exact congrArg _ (counted _)
      · rw [if_neg hep, if_pos hep]
        exact congrArg _ (counted _)
    · rw [he, if_neg (by decide), if_neg hh, if_neg hn, State.strangerFrame, hauth]
      simp only [Bool.or_eq_true, decide_eq_true_eq]
      split <;> exact congrArg _ (counted _)

/-- Settles O41. -/
theorem viewOnSetsTheEntry : Obligations.ViewOnSetsTheEntry := by
  intro s h tag period pattern mode c ha hp u named fits
  have hexec : exec (.viewOn h tag period pattern mode []) s =
      .next (u.viewOnRequest c h.loader tag (period :: bytes16 pattern ++ [mode])).finish := congrArg _ (ha.chairCommand _)
  have hquiet : s.Quiet := ha.1.1
  have hstatus : u.chairs[c].status ≠ .absent := by rwa [s.refreshPresence_chairStatus c c]
  have hview : viewArgs (period :: bytes16 pattern ++ [mode]) =
      if fits then some ⟨true, period.toNat, pattern, mode = 0x02, 0⟩ else none := by
    simp only [bytes16, List.cons_append, List.nil_append, viewArgs, word16_own_bytes]
    rfl
  have refused (why : Reason) : (u.refuse c tag named why).finish = u.refuse c tag named why := hquiet.finish_refused c tag named why
  have hviews : u.tables.chairs[c].views = s.tables.chairs[c].views := by rw [s.refreshPresence_tables c]
  rw [hexec, State.viewOnRequest, if_neg hstatus, hview, hviews]
  have hnamed : indexOfByte 16 h.loader = named := rfl
  rw [hnamed]
  clear_value named
  clear hnamed
  cases named with
  | none => exact congrArg _ (refused _)
  | some l =>
    dsimp only
    clear_value fits
    cases fits with
    | false => exact congrArg _ (refused _)
    | true =>
      simp only [if_true, Bool.not_true, Bool.false_eq_true, if_false]
      have hset : inSet s.tables.chairs[c].views l.val = s.tables.chairs[c].views.getLsbD l.val := rfl
      have hv : u.views = s.views := s.refreshPresence_views c
      have hepoch : u.auth[l].epoch = s.auth[l].epoch := by rw [s.refreshPresence_auth c]
      rw [hset]
      split
      · rw [hquiet.finish_setView_done, State.setView, hv, hepoch]
      · exact congrArg _ (refused _)

/-- Settles O44: each code's request makes the checks of R13 in their order. -/
theorem commonChecksRefuse : Obligations.CommonChecksRefuse := by
  intro s i h code tag args c l hi ha named refused
  have hq : s.Quiet := ha.1.1
  have hstatus : (s.refreshPresence c).chairs[c].status = s.chairs[c].status := s.refreshPresence_chairStatus c c
  have hrefused {why : Reason} (hr : (s.refreshPresence c).chairRequest c h.loader code tag args =
      (s.refreshPresence c).refuse c tag named why) : refused why := by
    change exec i s = _
    rw [exec_asked hi, ha.chairCommand, hr, hq.finish_refused]
  refine ⟨fun hp hc => hrefused (State.chairRequest_absent (hstatus.trans hp) hc),
    fun hp hill => hrefused (State.chairRequest_ill (hstatus ▸ hp) hill),
    fun hp hn hnone => hrefused ?_, fun hp habout hfit hl => ?_⟩
  · rw [hnone]
    exact State.chairRequest_unnamed (hstatus ▸ hp) hn ((if_pos hn).symm.trans hnone)
  · obtain ⟨k, hk⟩ := State.chairRequest_about (s := s.refreshPresence c) (c := c) (b := h.loader) (tag := tag) habout
    have hnamed : indexOfByte 16 h.loader = some l := (if_pos (requestNamesLoader_of_about habout)).symm.trans hl
    have he : (s.refreshPresence c).enabled l = s.enabled l := by rw [State.enabled, s.refreshPresence_tables c]; rfl
    have hpm : (s.refreshPresence c).permits c l = s.permits c l := by rw [State.permits, s.refreshPresence_tables c]; rfl
    obtain ⟨hservice, hpermit⟩ := State.authorityRequest_named (s := s.refreshPresence c) (tag := tag) (hstatus ▸ hp) hnamed k
    rw [he] at hservice hpermit
    rw [hpm] at hpermit
    rw [hfit] at hk
    exact ⟨fun h0 => hrefused (by rw [hk, hl]; exact hservice h0), fun h0 h1 => hrefused (by rw [hk, hl]; exact hpermit h0 h1)⟩

end Sys2Proof
end

section
/-! An event by its map entry's flags (R157, R173-R177): the notices with room for them all, those that find the queue full, and
the full log. -/

namespace Sys2Proof.Machine

open Sys2Proof

theorem allChairs_nodup : allChairs.Nodup := by decide

/-- The chairs that are sent an event's notice, in ascending number (R177). -/
def State.told (s : State) : List Chair := allChairs.filter s.presentSupervisor

theorem State.told_length (s : State) : s.told.length ≤ 8 := List.length_filter_le _ _

theorem State.told_nodup (s : State) : s.told.Nodup := allChairs_nodup.filter _

section notifyAll
variable {cnt : CounterId → Report → Report} (s : State) (e : Event) (r : Report)

theorem Report.notifyAll_eq : r.notifyAll cnt s e = s.told.foldl (fun r c => r.offerEventNotice cnt s c (eventNotice e)) r := by
  rw [State.told, List.foldl_filter]
  rfl

/-- The notices of the chairs xs and their numbers, all placed. -/
def Report.placed (xs : List Chair) : Report := { r with
  notices := r.notices ++ xs.map fun c => noticeFrame s c (eventNotice e) (r.noticeSeq[c] + 1)
  noticeSeq := tabulate fun c => if c ∈ xs then r.noticeSeq[c] + 1 else r.noticeSeq[c] }

/-- With room for all of them, the notices are placed in order. -/
theorem Report.offerAll_room {xs : List Chair} (hn : xs.Nodup) (hr : r.notices.length + xs.length ≤ noticeCapacity) :
    xs.foldl (fun r c => r.offerEventNotice cnt s c (eventNotice e)) r = r.placed s e xs := by
  induction xs generalizing r with
  | nil =>
    have hseq : (tabulate fun c => r.noticeSeq[c]) = r.noticeSeq := family_ext fun c => tabulate_get _ c
    simp only [List.foldl_nil, Report.placed, List.map_nil, List.append_nil, List.not_mem_nil, if_false, hseq]
  | cons x xs ih =>
    obtain ⟨hx, hxs⟩ := List.nodup_cons.mp hn
    rw [List.length_cons] at hr
    have hroom : (r.takeNumber x).notices.length < noticeCapacity := by
      change r.notices.length < _
      omega
    have hone : r.offerEventNotice cnt s x (eventNotice e) = { r with
        noticeSeq := putAt r.noticeSeq x (r.noticeSeq[x] + 1)
        notices := r.notices ++ [noticeFrame s x (eventNotice e) (r.noticeSeq[x] + 1)] } := by
      rw [Report.offerEventNotice, if_pos hroom, Report.place, Report.takeNumber, putAt_same]
    rw [List.foldl_cons, hone, ih _ hxs (by rw [List.length_append]; simp only [List.length_singleton]; omega)]
    have hother {c : Chair} (hc : c ∈ xs) : (putAt r.noticeSeq x (r.noticeSeq[x] + 1))[c] = r.noticeSeq[c] :=
      putAt_other _ _ fun he => hx (he ▸ hc)
    have hseq : (tabulate fun c => if c ∈ xs then (putAt r.noticeSeq x (r.noticeSeq[x] + 1))[c] + 1
        else (putAt r.noticeSeq x (r.noticeSeq[x] + 1))[c])
        = tabulate fun c => if c ∈ x :: xs then r.noticeSeq[c] + 1 else r.noticeSeq[c] := by
      congr 1
      funext c
      by_cases hcx : c = x
      · subst hcx
        rw [if_neg hx, putAt_same, if_pos List.mem_cons_self]
      · simp only [List.mem_cons, hcx, false_or, putAt_other _ _ (Ne.symm hcx)]
    have hmap : (xs.map fun c => noticeFrame s c (eventNotice e) ((putAt r.noticeSeq x (r.noticeSeq[x] + 1))[c] + 1))
        = xs.map fun c => noticeFrame s c (eventNotice e) (r.noticeSeq[c] + 1) :=
      List.map_congr_left fun c hc => by rw [hother hc]
    simp only [Report.placed, hseq, hmap, List.map_cons, List.append_assoc, List.cons_append, List.nil_append]

/-- With the queue full, each takes its number and is counted as lost. -/
theorem Report.offerAll_full {xs : List Chair} (hc : ∀ id q r, noticeCapacity ≤ q.length → r.notices = q → (cnt id r).notices = q)
    (hr : noticeCapacity ≤ r.notices.length) :
    xs.foldl (fun r c => r.offerEventNotice cnt s c (eventNotice e)) r
      = xs.foldl (fun r c => cnt (.device noticeLost) (r.takeNumber c)) r := by
  induction xs generalizing r with
  | nil => rfl
  | cons x xs ih =>
    have hfull : ¬ (r.takeNumber x).notices.length < noticeCapacity := Nat.not_lt.mpr hr
    have hq : (cnt (.device noticeLost) (r.takeNumber x)).notices = r.notices := hc _ _ _ hr rfl
    rw [List.foldl_cons, List.foldl_cons, Report.offerEventNotice, if_neg hfull, ih _ (by rw [hq]; exact hr)]

end notifyAll

/-- The report with an event's ATTN and log flags acted on. -/
def Report.noted (r : Report) (s : State) (e : Event) : Report := { r with
  attn := r.attn || (s.eventEntry e).attn
  log := if (s.eventEntry e).log then r.log ++ [⟨s.timer.number, s.timer.position, e⟩] else r.log }

/-- With room in the log, the first two flags give an entry and ATTN. -/
theorem Report.raise_noted {r : Report} {s : State} {e : Event} (h : r.log.length < logCapacity) :
    r.raise s e = if (s.eventEntry e).notify then (r.noted s e).notifyAll (fun id r => r.count s id 1) s e else r.noted s e := by
  have hnoted : (let r := if (s.eventEntry e).attn then { r with attn := true } else r
      if (s.eventEntry e).log then r.record (fun id r => r.count s id 1) s e else r) = r.noted s e := by
    rw [Report.noted]
    cases (s.eventEntry e).attn <;> cases (s.eventEntry e).log <;> simp only [Bool.or_true, Bool.or_false, if_true, if_false,
      Bool.false_eq_true, Report.record, h]
  rw [← hnoted]
  rfl

theorem Report.raise_logFull {r : Report} {s : State} {e : Event} (h : logCapacity ≤ r.log.length) :
    (r.raise s e).log = r.log ∧ ((s.eventEntry e).log = true → (r.raise s e).overflow = true) := by
  refine ⟨(Report.closed_logFull (answers := true) r.log h).raise s e rfl, fun hm => ?_⟩
  have hflag : r.raise s e = { r with overflow := true }.raise s e := by
    simp only [Report.raise, Report.raiseWith, hm, if_true]
    cases (s.eventEntry e).attn <;>
      simp only [Report.record, Nat.not_lt.mpr h, Bool.false_eq_true, if_true, if_false]
  rw [hflag]
  exact (Report.closed_overflow (answers := true)).raise s e rfl

end Sys2Proof.Machine

namespace Sys2Proof

open Machine

/-- Settles O53. -/
theorem eventsActByTheirMap : Obligations.EventsActByTheirMap := by
  intro s name loader chair detail e m told numbered
  refine ⟨fun r c n => ?_, fun hlog hfull => ?_, fun hlog hroom => ?_, fun hlog => Report.raise_logFull hlog⟩
  · simp only [Report.notice, Report.place, Report.takeNumber, putAt_same]
    rfl
  · refine congrArg (fun r => { s with rep := r }) ((Report.raise_noted hlog).trans ?_)
    rw [Report.notifyAll_eq, Report.offerAll_full s e (s.rep.noted s e) (fun id q r hq hr =>
      (Report.closed_full (answers := true) q hq).count s id 1 hr) hfull]
    rfl
  · refine congrArg (fun r => { s with rep := r }) ((Report.raise_noted hlog).trans ?_)
    have hlen := s.told_length
    have hfits : (s.rep.noted s e).notices.length + s.told.length ≤ noticeCapacity := by
      change s.rep.notices.length + s.told.length ≤ 32
      omega
    rw [Report.notifyAll_eq, Report.offerAll_room s e _ s.told_nodup hfits]
    have hm : s.eventEntry e = m := rfl
    rw [hm]
    cases hn : m.notify <;> rfl

end Sys2Proof
end

section
/-! The answer to a request (R13, R140, R143, R144): one notice ahead of everything else that its event reports. -/

namespace Sys2Proof.Machine

open Sys2Proof

/-- The request of chair c with this tag is answered by one notice, DONE or REFUSED, and what else is told comes after it and answers
nothing. The other queues and the phase generator are as they were. -/
def State.Answers (c : Chair) (tag : Word16) (s t : State) : Prop :=
  ∃ n : Notice, (n.name = .done ∨ n.name = .refused) ∧ n.tag = tag ∧ State.Tells false (s.notice c n) t

namespace State.Tells
variable {answers : Bool} {s t : State}

theorem dequeue (h : State.Tells answers s t) (k) : State.Tells answers s (t.dequeue k) := h.silent rfl rfl

theorem setChair (h : State.Tells answers s t) (d r) : State.Tells answers s (t.setChair d r) := h.silent rfl rfl

theorem setAuth (h : State.Tells answers s t) (k a) : State.Tells answers s (t.setAuth k a) := h.silent rfl rfl

theorem advanceEpoch (h : State.Tells answers s t) (k) : State.Tells answers s (t.advanceEpoch k) := h.silent rfl rfl

theorem endOffer_match (h : State.Tells answers s t) (k d n w ho x o r) :
    State.Tells answers s (t.endOffer k d n w (·.beginMatching k ho x o r)) :=
  .endOffer k d n w ((h.offerGone d n).beginMatching k ho x o r)

end State.Tells

namespace State.Answers
variable {s t : State} {c : Chair} {tag : Word16} {l : Loader}

theorem done (h : State.Tells false (s.done c tag l e w n) t) : State.Answers c tag s t := ⟨_, .inl rfl, rfl, h⟩

theorem doneNone (h : State.Tells false (s.doneNone c tag) t) : State.Answers c tag s t := ⟨_, .inl rfl, rfl, h⟩

theorem refuse (s : State) (c tag k why) : State.Answers c tag s (s.refuse c tag k why) :=
  ⟨_, .inr rfl, rfl, (State.Tells.refl _).count _ _⟩

theorem authorityRequest {b : Byte} {fits : Bool} {k : State → Loader → State} (hk : fits = true → ∀ l, State.Answers c tag s (k s l)) :
    State.Answers c tag s (s.authorityRequest c b tag fits k) := by
  simp only [State.authorityRequest]
  split
  · exact refuse s c tag _ _
  split
  · exact refuse s c tag _ _
  cases fits with
  | false => exact refuse s c tag _ _
  | true =>
    rw [if_neg (by decide)]
    repeat' split
    · exact refuse s c tag _ _
    · exact refuse s c tag _ _
    · exact hk rfl _

theorem presentRequest (s : State) (c tag args) : State.Answers c tag s (s.presentRequest c tag args) := by
  simp only [State.presentRequest]
  repeat' split
  · exact refuse s c tag _ _
  · exact doneNone ((State.Tells.refl _).becomePresent c _)
  · exact doneNone (((State.Tells.refl _).refreshPresence c).setAvailable c _)

theorem leaveRequest (s : State) (c tag args) : State.Answers c tag s (s.leaveRequest c tag args) := by
  simp only [State.leaveRequest]
  repeat' split
  · exact refuse s c tag _ _
  · exact refuse s c tag _ _
  · exact doneNone ((State.Tells.refl _).becomeAbsent c _)

theorem takeOperator (s : State) (c tag l) : State.Answers c tag s (s.takeOperator c tag l) := by
  unfold State.takeOperator
  exact done (((State.Tells.refl _).dequeue _).beginMatching _ _ _ _ _)

theorem takeSupervisor (s : State) (c tag l) : State.Answers c tag s (s.takeSupervisor c tag l) := by
  unfold State.takeSupervisor
  cases s.auth[l].state with
  | calling => exact done ((((State.Tells.refl _).dequeue _).beginMatching _ _ _ _ _).raise _ _ _ _)
  | offered => exact done ((((State.Tells.refl _).withdrawn _ _ _ _).endOffer_match _ _ _ _ _ _ _ _).raise _ _ _ _)
  | matching => exact done (((((State.Tells.refl _).aborted _ _ _).endMatching _ _).beginMatching _ _ _ _ _).raise _ _ _ _)
  | held => exact done (((State.Tells.refl _).beginMatching _ _ _ _ _).raise _ _ _ _)
  | standing retained =>
    cases retained with
    | none => exact done (((State.Tells.refl _).beginMatching _ _ _ _ _).raise _ _ _ _)
    | some => exact done ((((State.Tells.refl _).dropTaken _ _ _).beginMatching _ _ _ _ _).raise _ _ _ _)
  | free => exact done (((State.Tells.refl _).beginMatching _ _ _ _ _).raise _ _ _ _)
  | releasing => exact done (((State.Tells.refl _).beginMatching _ _ _ _ _).raise _ _ _ _)

theorem takeRequest (s : State) (c b tag args) : State.Answers c tag s (s.takeRequest c b tag args) := by
  refine authorityRequest fun _ l => ?_
  repeat' split
  · exact refuse s c tag _ _
  · exact takeSupervisor s c tag l
  · exact refuse s c tag _ _
  · exact takeOperator s c tag l

theorem offerRequest (s : State) (c b tag args) : State.Answers c tag s (s.offerRequest c b tag args) := by
  simp only [State.offerRequest]
  refine authorityRequest fun hfits l => ?_
  split
  · next hnone => exact absurd hfits (by rw [hnone]; decide)
  · split
    · exact refuse s c tag _ _
    · exact done ((State.Tells.refl _).makeOffer _ _ _)

theorem answerMissed (s : State) (c tag l n) : State.Answers c tag s (s.answerMissed c tag l n) := refuse s c tag _ _

theorem acceptRequest (s : State) (c b tag args) : State.Answers c tag s (s.acceptRequest c b tag args) := by
  refine authorityRequest fun _ l => ?_
  dsimp only
  split
  · split
    · exact done (((State.Tells.refl _).beginMatching _ _ _ _ _).setChair _ _)
    · exact answerMissed s c tag l _
  · exact answerMissed s c tag l _

theorem declineRequest (s : State) (c b tag args) : State.Answers c tag s (s.declineRequest c b tag args) := by
  refine authorityRequest fun _ l => ?_
  dsimp only
  split
  · split
    · exact done ((State.Tells.refl _).endOffer_return _ _ _ _)
    · exact answerMissed s c tag l _
  · exact answerMissed s c tag l _

theorem cancelRequest (s : State) (c b tag args) : State.Answers c tag s (s.cancelRequest c b tag args) := by
  refine authorityRequest fun _ l => ?_
  dsimp only
  split
  · split
    · exact done (((State.Tells.refl _).withdrawn _ _ _ _).endOffer_return _ _ _ _)
    · exact refuse s c tag _ _
  · split
    · split
      · exact done (((State.Tells.refl _).endMatching _ _).returnLoader _)
      · exact done ((((State.Tells.refl _).aborted _ _ _).endMatching _ _).returnLoader _)
    · exact refuse s c tag _ _
  · exact refuse s c tag _ _

theorem releaseRequest (s : State) (c b tag args) : State.Answers c tag s (s.releaseRequest c b tag args) := by
  refine authorityRequest fun _ l => ?_
  repeat' split
  · exact refuse s c tag _ _
  · exact done (((((State.Tells.refl _).advanceEpoch _).setAuth _ _).release _).raise _ _ _ _)
  · exact done ((State.Tells.refl _).standEntry _ _)
  · exact refuse s c tag _ _
  · exact refuse s c tag _ _

theorem recoverRequest (s : State) (c b tag args) : State.Answers c tag s (s.recoverRequest c b tag args) := by
  refine authorityRequest fun _ l => ?_
  repeat' split
  · exact refuse s c tag _ _
  · exact refuse s c tag _ _
  · exact done (((State.Tells.refl _).enterFree _).raise _ _ _ _)
  · exact done (((State.Tells.refl _).beginMatching _ _ _ _ _).raise _ _ _ _)
  · exact done ((((State.Tells.refl _).dropTaken _ _ _).enterFree _).raise _ _ _ _)
  · exact refuse s c tag _ _
  · exact refuse s c tag _ _

theorem stopLoaderRequest (s : State) (c b tag fits) : State.Answers c tag s (s.stopLoaderRequest c b tag fits) :=
  authorityRequest fun _ _ => done ((State.Tells.refl _).stand _ _)

theorem stopZoneRequest (s : State) (c tag z fits) : State.Answers c tag s (s.stopZoneRequest c tag z fits) := by
  simp only [State.stopZoneRequest]
  repeat' split
  · exact refuse s c tag _ _
  · exact refuse s c tag _ _
  · exact refuse s c tag _ _
  · exact doneNone ((State.Tells.refl _).standAll _ _)

theorem stopRequest (s : State) (c b tag args) : State.Answers c tag s (s.stopRequest c b tag args) := by
  unfold State.stopRequest
  repeat' split
  all_goals first
    | exact stopLoaderRequest s c b tag _
    | exact stopZoneRequest s c tag _ _

/-- A view entry written before the answer is not read by it. -/
theorem setView_done (s : State) (c tag l e w) : State.Answers c tag s ((s.setView c l e).done c tag l w) :=
  ⟨_, .inl rfl, rfl, (State.Tells.refl _).silent
    (Report.notice_same (t := s.setView c l e) (State.sameReporting_of_records rfl rfl rfl) c _ _) rfl⟩

theorem viewOnRequest (s : State) (c b tag args) : State.Answers c tag s (s.viewOnRequest c b tag args) := by
  simp only [State.viewOnRequest]
  repeat' split
  · exact refuse s c tag _ _
  · exact setView_done s c tag _ _ _
  · exact refuse s c tag _ _
  · exact refuse s c tag _ _

theorem viewOffRequest (s : State) (c b tag args) : State.Answers c tag s (s.viewOffRequest c b tag args) := by
  simp only [State.viewOffRequest]
  repeat' split
  · exact refuse s c tag _ _
  · exact refuse s c tag _ _
  · exact setView_done s c tag _ _ _
  · exact refuse s c tag _ _

theorem lineAckRequest (s : State) (c tag args) : State.Answers c tag s (s.lineAckRequest c tag args) := by
  simp only [State.lineAckRequest]
  repeat' split
  all_goals first
    | exact refuse s c tag _ _
    | exact doneNone ((State.Tells.refl _).acknowledge _ _)

/-- Every request is answered (R13, R143). -/
theorem chairRequest (s : State) (c b code tag args) : State.Answers c tag s (s.chairRequest c b code tag args) := by
  have hm := s.chairRequest_made c b code tag args
  generalize s.chairRequest c b code tag args = t at hm ⊢
  cases hm with
  | present => exact presentRequest s c tag args
  | leave => exact leaveRequest s c tag args
  | take => exact takeRequest s c b tag args
  | offer => exact offerRequest s c b tag args
  | accept => exact acceptRequest s c b tag args
  | decline => exact declineRequest s c b tag args
  | cancel => exact cancelRequest s c b tag args
  | release => exact releaseRequest s c b tag args
  | recover => exact recoverRequest s c b tag args
  | stop => exact stopRequest s c b tag args
  | viewOn => exact viewOnRequest s c b tag args
  | viewOff => exact viewOffRequest s c b tag args
  | lineAck => exact lineAckRequest s c tag args
  | unknown => exact refuse s c tag _ _

end State.Answers

end Sys2Proof.Machine
end

section
/-! What every step keeps of the queues, the counters and the phase generator (R124, R157, R168, R174, R178, R180), and the beacons
at its end (R135, R166). -/

namespace Sys2Proof.Machine

open Sys2Proof

/-- The queues within their capacities, the counters right, the phase generator off 0. -/
def State.Stored (s : State) : Prop := s.QueuesBounded ∧ s.rep.CountersRight ∧ s.phaseGen ≠ 0

namespace State.Stored
variable {s t : State}

/-- What tells, and leaves the stores alone, keeps them. -/
theorem tells (h : s.Stored) {answers : Bool} (ht : State.Tells answers s t) : t.Stored := by
  obtain ⟨⟨hn, hr, hf, hw, hl⟩, hc, hp⟩ := h
  obtain ⟨hrep, hst⟩ := ht
  simp only [State.stores, Prod.mk.injEq] at hst
  obtain ⟨er, ew, ef, ep⟩ := hst
  obtain ⟨hn', hl'⟩ := Report.closed_bounded.tells hrep ⟨hn, hl⟩
  exact ⟨⟨hn', er ▸ hr, ef ▸ hf, ew ▸ hw, hl'⟩, hc.tells hrep, ep ▸ hp⟩

theorem same (h : s.Stored) (hr : t.rep = s.rep) (hs : t.stores = s.stores) : t.Stored :=
  h.tells ((State.Tells.refl (answers := true) s).silent hr hs)

/-! ## The Agent and the transmitter -/

theorem serves (h : s.Stored) (hs : s.Serves t) : t.Stored := by
  obtain ⟨⟨hn, hr, hf, hw, hl⟩, hc, hp⟩ := h
  have hall := (Report.countersRight_iff _).mp hc
  cases hs with
  | lineAck i _ => exact State.Stored.tells ⟨⟨hn, hr, hf, hw, hl⟩, hc, hp⟩ ((State.Tells.refl (answers := true) s).acknowledge i none)
  | clearGroup g =>
    have hq : (s.rep.clearGroup g).notices = s.rep.notices ∧ (s.rep.clearGroup g).log = s.rep.log := by
      rw [(s.rep.clearGroup_eq g).2]
      exact ⟨rfl, rfl⟩
    refine ⟨⟨hq.1 ▸ hn, hr, hf, hw, hq.2 ▸ hl⟩, (Report.countersRight_iff _).mpr ⟨fun id => ?_, (s.rep.clearGroup_eq g).1⟩, hp⟩
    change (s.rep.clearGroup g).counter id ≤ _
    rw [Report.clearGroup_counter]
    split
    · exact Nat.zero_le _
    · exact hall.1 id
  | clearAll =>
    refine ⟨⟨hn, hr, hf, hw, hl⟩, (Report.countersRight_iff _).mpr ⟨fun id => ?_, rfl⟩, hp⟩
    exact (s.rep.clearAllCounters_counter id).trans_le (Nat.zero_le _)
  | readLog n => exact ⟨⟨hn, hr, hf, hw, (List.drop_sublist n _).length_le.trans hl⟩, hc, hp⟩
  | _ => exact ⟨⟨hn, hr, hf, hw, hl⟩, hc, hp⟩

theorem tends (h : s.Stored) {room : Nat} (hm : room ≤ 4) (ht : State.Tends room s t) : t.Stored := by
  obtain ⟨⟨hn, hr, hf, hw, hl⟩, hc, hp⟩ := h
  cases ht with
  | served hs => exact serves ⟨⟨hn, hr, hf, hw, hl⟩, hc, hp⟩ hs
  | agent a ha => exact ⟨⟨hn, hr, hf, ha.trans (max_le (le_refl 4) hw), hl⟩, hc, hp⟩
  | respond f hlt =>
    refine ⟨⟨hn, ?_, hf, hw, hl⟩, hc, hp⟩
    rw [List.length_append, List.length_singleton]
    omega
  | count id n => exact State.Stored.tells ⟨⟨hn, hr, hf, hw, hl⟩, hc, hp⟩ ((State.Tells.refl (answers := true) s).count id n)

theorem tended (h : s.Stored) {room : Nat} (hm : room ≤ 4) (ht : State.Tended room s t) : t.Stored :=
  State.Tended.keeps (P := State.Stored) (fun _ _ hs hu => hu.tends hm hs) ht h

theorem taken (h : s.Stored) (ht : s.Taken t) : t.Stored := by
  obtain ⟨⟨hn, hr, hf, hw, hl⟩, hc, hp⟩ := h
  have shorter {f : Frame} {q rest : List Frame} {n : Nat} (hq : q = f :: rest) (hle : q.length ≤ n) : rest.length ≤ n := by
    rw [hq, List.length_cons] at hle
    omega
  cases ht with
  | nothing => exact ⟨⟨hn, hr, hf, hw, hl⟩, hc, hp⟩
  | notice hq => exact ⟨⟨shorter hq hn, hr, hf, hw, hl⟩, hc, hp⟩
  | response hq => exact ⟨⟨hn, shorter hq hr, hf, hw, hl⟩, hc, hp⟩
  | forward hq => exact ⟨⟨hn, hr, shorter hq hf, hw, hl⟩, hc, hp⟩

theorem takeFrame (h : s.Stored) : s.takeFrame.Stored := by
  obtain ⟨u, hu, ht⟩ := s.takeFrame_tended
  have hr : s.responses.length ≤ 4 := h.1.2.1
  exact (h.taken hu).tended (max_le (le_refl 4) hr) ht

/-! ## The draw, the copies and the start -/

theorem drawOne (h : s.Stored) (c : Chair) (l : Loader) : (s.drawOne c l).Stored := by
  simp only [State.drawOne]
  split
  · obtain ⟨hq, hc, hp⟩ := h
    exact ⟨hq, hc, phaseStep_ne_zero hp⟩
  · exact h

theorem drawPhases (h : s.Stored) : s.drawPhases.Stored :=
  foldl_inv _ State.Stored (fun _ c hs => foldl_inv _ State.Stored (fun _ l hu => hu.drawOne c l) allLoaders _ hs) allChairs s h

theorem forwardOne (h : s.Stored) (l hd p trailer c) : (State.forwardOne l hd p trailer s c).Stored := by
  simp only [State.forwardOne]
  split
  · next hlt =>
    obtain ⟨⟨hn, hr, hf, hw, hl⟩, hc, hp⟩ := h
    refine ⟨⟨hn, hr, ?_, hw, hl⟩, hc, hp⟩
    rw [List.length_append]
    exact hlt
  · exact h.tells (((State.Tells.refl (answers := true) s).count _ _).raise _ _ _ _)

theorem statusFrame (h : s.Stored) (l hd p) : (s.statusFrame l hd p).Stored := by
  simp only [State.statusFrame]
  split
  · exact h
  · refine foldl_inv _ State.Stored (fun _ c hs => hs.forwardOne _ _ _ _ c) _ _ (h.tells (answers := true) ?_)
    exact (((((State.Tells.refl s).heardStep l).farEndStep l _).zoneStep l _).requestStep l _).modeStep l _ |>.walkIfCalled

theorem powerOnValues (t : Tables) (com : Bool) (config pins signal) : (State.powerOnValues t com config pins signal).Stored :=
  ⟨⟨Nat.zero_le _, Nat.zero_le _, Nat.zero_le _, Nat.zero_le _, Nat.zero_le _⟩, Report.initial_countersRight, by
    simp only [State.powerOnValues]
    decide⟩

theorem powerOn (s : State) (b : Bool) : (s.powerOn b).Stored := 
  (powerOnValues .empty false ⟨.loading, b⟩ s.linePins s.portSignal).same rfl rfl

theorem startFrom (s : State) (t : Tables) (com : Bool) : (s.startFrom t com).Stored := 
  (powerOnValues t com ⟨.idle, s.config.cfgoff⟩ s.linePins s.portSignal).same rfl rfl

theorem loadEnd (s : State) (read : MemoryRead) : (s.loadEnd read).Stored := by
  obtain ⟨-, he⟩ | ⟨-, tb, -, he⟩ | ⟨-, reason, -, he⟩ := s.loadEnd_cases read <;> rw [he]
  · exact startFrom s _ _
  · exact startFrom s _ _
  · exact (startFrom s _ _).tells ((State.Tells.refl (answers := true) _).raise _ _ _ _)

theorem saveEnd (h : s.Stored) (read : MemoryRead) : (s.saveEnd read).Stored := by
  unfold State.saveEnd
  split
  · have hs : State.Stored { s with config := { s.config with phase := .idle } } := h.same rfl rfl
    have raised (e d) := hs.tells ((State.Tells.refl (answers := true) _).raise e none none d)
    dsimp only
    repeat' split
    all_goals exact raised _ _
  · exact h

theorem cycleStart (h : s.Stored) (b : Bool) : (s.cycleStart b).Stored := by
  rw [s.cycleStart_eq b]
  obtain ⟨hq, hc, hp⟩ := h
  refine ⟨hq, hc, ?_⟩
  change (if _ then s.drawPhases.phaseGen else s.phaseGen) ≠ 0
  split
  · exact (drawPhases ⟨hq, hc, hp⟩).2.2
  · exact hp

/-! ## Every row -/

theorem aside (h : s.Stored) (ha : s.Aside t) : t.Stored := by
  cases ha <;> exact h.same rfl rfl

theorem minor (h : s.Stored) (hm : s.Minor t) : t.Stored := by
  have hs := State.Tells.refl (answers := true) s
  cases hm with
  | count id n => exact h.tells (hs.count id n)
  | raise e l c d => exact h.tells (hs.raise e l c d)
  | refreshPresence c => exact h.tells (hs.refreshPresence c)
  | undue d => exact h.same rfl rfl

theorem loseFrame (h : s.Stored) (p : Port) : (s.loseFrame p).Stored := by
  cases p <;> exact h.same rfl rfl

theorem row (h : s.Stored) (hr : s.Row t) : t.Stored := by
  have hs := State.Tells.refl (answers := true) s
  cases hr with
  | nothing => exact h
  | saveEnd read => exact h.saveEnd read
  | cycleStart b => exact h.cycleStart b
  | applied order b n => exact (h.tells (State.Tells.tableApplied (answers := true) s order b)).same rfl rfl
  | boundary order b =>
    exact drawPhases ((h.tells (State.Tells.tableApplied (answers := true) s order b)).same rfl rfl)
  | drawPhases => exact h.drawPhases
  | slotAt p k =>
    simp only [State.slotAt]
    split
    · exact h.tells ((hs.silent (u := s.seek _) rfl rfl).slotOf _ _)
    · exact h.same rfl rfl
  | staleSlot x =>
    simp only [State.staleSlot]
    split
    · exact h.tells ((hs.silent (u := s.seek _) rfl rfl).slotOf _ _)
    · exact h
  | deadline l => exact h.tells (State.Tells.deadline (answers := true) s l)
  | pendingDeadline f =>
    simp only [State.pendingDeadline]
    split
    · next n _ =>
      have hk : State.Stored ({ s with deadlines := putAt s.deadlines f.loader none }.seek n) := h.same rfl rfl
      exact hk.tells (State.Tells.deadline (answers := true) _ _)
    · exact h
  | linkDownTest l => exact h.tells (State.Tells.linkDownTest (answers := true) s l)
  | linkUpTest l => exact h.tells (State.Tells.linkUpTest (answers := true) s l)
  | readyTest l => exact h.tells (State.Tells.readyTest (answers := true) s l)
  | offerExpiry l => exact h.tells (State.Tells.offerExpiry (answers := true) s l)
  | matchTimeout l => exact h.tells (State.Tells.matchTimeout (answers := true) s l)
  | releaseTimeout l => exact h.tells (State.Tells.releaseTimeout (answers := true) s l)
  | presenceExpiry c => exact h.tells (State.Tells.presenceExpiry (answers := true) s c)
  | authorityReset =>
    simp only [State.authorityReset]
    refine State.Stored.tells (s := _) ?_ ((State.Tells.refl (answers := true) _).raise _ _ _ _)
    exact h.same rfl rfl
  | stepMillis => exact h.same rfl rfl
  | sampleAhead i v =>
    simp only [State.sampleAhead, State.sampleLine]
    split <;> exact h.same rfl rfl
  | sampleLine i v w =>
    simp only [State.sampleLine]
    split
    · exact h
    · exact h.same rfl rfl
  | settleLine i => exact h.tells (State.Tells.settleLine (answers := true) s i)
  | portComesUp p =>
    simp only [State.portComesUp]
    split
    · exact h
    · exact h.tells ((hs.silent (u := s.setLink p true) rfl rfl).raise _ _ _ _)
  | portLost p =>
    have hu : (s.setLink p false).Stored := h.same rfl rfl
    have hl : ((s.setLink p false).loseFrame p).Stored := hu.loseFrame p
    exact hl.tells ((State.Tells.refl (answers := true) _).raise _ _ _ _)
  | commandFrameFrom c hd p => exact h.tells (State.Tells.commandFrameFrom (answers := true) s c hd p)
  | statusFrame l hd p => exact h.statusFrame l hd p
  | chairRequest c b code tag args =>
    obtain ⟨n, hn, -, hs'⟩ := State.Answers.chairRequest s c b code tag args
    have hfirst : (s.notice c n).Stored := h.tells (hs.notice c (.inl rfl))
    exact hfirst.tells hs'
  | mgmtArrival r => exact h.tended (le_refl 4) (State.mgmtArrival_tended (le_refl 4) r)
  | takeFrame => exact h.takeFrame
  | transmissionEnd => exact h.same rfl rfl

theorem finish (h : s.Stored) : s.finish.Stored := h.tells (State.Tells.refl (answers := true) s).finish

/-- Every step keeps them. -/
theorem step (h : s.Stored) (ht : Machine.step s = .next t) : t.Stored :=
  (step_course ht).keeps (fun _ _ ha hs => hs.aside ha) (fun _ _ hm hs => hs.minor hm) (fun _ _ hr hs => hs.row hr)
    (fun _ hs => hs.finish) (fun u b _ => powerOn u b) (fun u read _ => loadEnd u read) h

end State.Stored

/-! ## The beacons -/

section
variable {s t : State}

theorem State.finish_cycleStarting (s : State) : s.finish.cycleStarting = s.cycleStarting :=
  congrArg (fun r : Rest => r.due.any Due.ofCycleStart) s.finish_rest

theorem State.finish_endsRight (s : State) : s.finish.EndsRight :=
  ⟨fun hw => s.finish_cycleStarting.trans (State.finish_walkCalled hw), s.finish_beacons⟩

theorem State.EndsRight.move (h : s.EndsRight) (hm : s.Move t) : t.EndsRight := by
  cases hm with
  | aside ha => cases ha <;> exact h
  | event he =>
    obtain ⟨v, -, rfl⟩ := he
    exact v.finish_endsRight
  | powerOn b =>
    obtain ⟨-, -, hw, hb⟩ := State.powerOnValues_quiet .empty false ⟨.loading, b⟩ s.linePins s.portSignal
    exact ⟨fun hc => absurd (hw.symm.trans hc) Bool.false_ne_true, hb⟩
  | loadEnd read => exact State.finish_endsRight _

theorem State.EndsRight.step (h : s.EndsRight) (ht : step s = .next t) : t.EndsRight := by
  have hc := step_course ht
  clear ht
  induction hc with
  | refl => exact h
  | tail _ hm ih => exact ih.move hm

/-- A beacon's condition: a driven loader in a zone that names it (R135). -/
theorem State.beaconOn_iff (s : State) (n : Beacon) : s.beaconOn n = true ↔ ∃ (l : Loader) (z : Zone), s.status[l].zone = some z
    ∧ s.tables.zones[z].beacon = some n ∧ s.auth[l].state.isStanding = false ∧ s.auth[l].state.holder.isSome = true := by
  have driven (l : Loader) : s.auth[l].state.driven = true ↔
      s.auth[l].state.isStanding = false ∧ s.auth[l].state.holder.isSome = true := by
    simp only [AuthState.driven, Bool.and_eq_true, Bool.not_eq_true', and_comm]
  rw [State.beaconOn, List.any_eq_true]
  constructor
  · rintro ⟨l, -, hl⟩
    rw [Bool.and_eq_true, driven] at hl
    obtain ⟨hd, hz⟩ := hl
    cases hzone : s.status[l].zone with
    | none => rw [hzone] at hz; exact nomatch hz
    | some z =>
      rw [hzone] at hz
      exact ⟨l, z, hzone, of_decide_eq_true hz, hd⟩
  · rintro ⟨l, z, hzone, hz, hd⟩
    refine ⟨l, mem_allLoaders l, ?_⟩
    rw [Bool.and_eq_true, driven, hzone]
    exact ⟨hd, decide_eq_true hz⟩

end

end Sys2Proof.Machine

namespace Sys2Proof

open Machine

/-- Settles O58: the stores are kept by every row, and every event ends with the beacons set. -/
theorem everyStepKeepsReportingRight : Obligations.EveryStepKeepsReportingRight := by
  intro s t ⟨hends, hq, hc, hp⟩ hstep
  have he := hends.step hstep
  obtain ⟨hq', hc', hp'⟩ := State.Stored.step ⟨hq, hc, hp⟩ hstep
  refine ⟨he, hq', hc', hp', fun n => ?_⟩
  rw [he.2, tabulate_get, t.beaconOn_iff]

end Sys2Proof
end

section
/-! Each shared operation's own report, exactly (R8, R9, R11, R14, R19, R20, R140, R144): an operation on the state with another report
changes it alike, and adds the same notices, events and counts. -/

namespace Sys2Proof.Machine

open Sys2Proof

/-- The state with another report. -/
def State.withRep (s : State) (r : Report) : State := { s with rep := r }

section
variable (s : State) (r : Report)

@[simp] theorem State.withRep_self : s.withRep s.rep = s := rfl
@[simp] theorem State.withRep_withRep (r') : (s.withRep r).withRep r' = s.withRep r' := rfl
@[simp] theorem State.withRep_rep : (s.withRep r).rep = r := rfl
@[simp] theorem State.withRep_auth : (s.withRep r).auth = s.auth := rfl
@[simp] theorem State.withRep_chairs : (s.withRep r).chairs = s.chairs := rfl
@[simp] theorem State.withRep_tables : (s.withRep r).tables = s.tables := rfl
@[simp] theorem State.withRep_status : (s.withRep r).status = s.status := rfl
@[simp] theorem State.withRep_timer : (s.withRep r).timer = s.timer := rfl
@[simp] theorem State.withRep_freeList : (s.withRep r).freeList = s.freeList := rfl
@[simp] theorem State.withRep_callQueue : (s.withRep r).callQueue = s.callQueue := rfl
@[simp] theorem State.withRep_offerCounter : (s.withRep r).offerCounter = s.offerCounter := rfl
@[simp] theorem State.withRep_builders : (s.withRep r).builders = s.builders := rfl
@[simp] theorem State.withRep_windows : (s.withRep r).windows = s.windows := rfl
@[simp] theorem State.withRep_lines : (s.withRep r).lines = s.lines := rfl
@[simp] theorem State.withRep_walkCalled : (s.withRep r).walkCalled = s.walkCalled := rfl

theorem State.withRep_same : s.SameReporting (s.withRep r) := State.sameReporting_of_records rfl rfl rfl

/-! ## Reporting -/

theorem State.withRep_raise (e k d w) : (s.withRep r).raise e k d w = (s.raise e k d w).withRep (r.raise s ⟨e, k, d, w⟩) :=
  (s.withRep_same r).raise_eq e k d w

theorem State.withRep_count (id n) : (s.withRep r).count id n = (s.count id n).withRep (r.count s id n) :=
  (s.withRep_same r).count_eq id n

theorem State.withRep_notice (c n) : (s.withRep r).notice c n = (s.notice c n).withRep (r.notice s c n) :=
  (s.withRep_same r).notice_eq c n

/-! ## Writes that report nothing -/

theorem State.withRep_setAuth (l a) : (s.withRep r).setAuth l a = (s.setAuth l a).withRep r := rfl
theorem State.withRep_setChair (c x) : (s.withRep r).setChair c x = (s.setChair c x).withRep r := rfl
theorem State.withRep_setStatus (l x) : (s.withRep r).setStatus l x = (s.setStatus l x).withRep r := rfl
theorem State.withRep_dequeue (l) : (s.withRep r).dequeue l = (s.dequeue l).withRep r := rfl
theorem State.withRep_callWalk : (s.withRep r).callWalk = s.callWalk.withRep r := rfl
theorem State.withRep_advanceEpoch (l) : (s.withRep r).advanceEpoch l = (s.advanceEpoch l).withRep r := rfl
theorem State.withRep_joinList (c) : (s.withRep r).joinList c = (s.joinList c).withRep r := rfl

theorem State.withRep_beginMatching (l h c o f) :
    (s.withRep r).beginMatching l h c o f = (s.beginMatching l h c o f).withRep r := rfl

theorem State.withRep_release (c) : (s.withRep r).release c = (s.release c).withRep r := by
  by_cases hp : s.chairs[c].status = .absent
  · rw [State.release_absent hp]
    exact State.release_absent (s := s.withRep r) hp
  · cases ha : s.chairs[c].available
    · rw [State.release_unavailable hp ha]
      exact State.release_unavailable (s := s.withRep r) hp ha
    · rw [State.release_available hp ha]
      exact State.release_available (s := s.withRep r) hp ha

theorem State.withRep_offerGone (c n) : (s.withRep r).offerGone c n = (s.offerGone c n).withRep r :=
  State.withRep_release (s.setChair c { s.chairs[c] with lastEnded := some n }) r c

theorem State.withRep_endMatching (l c) : (s.withRep r).endMatching l c = (s.endMatching l c).withRep r :=
  State.withRep_release (s.clearMatch l) r c

theorem State.withRep_refreshPresence (c) : (s.withRep r).refreshPresence c = (s.refreshPresence c).withRep r := by
  unfold State.refreshPresence
  by_cases hp : s.chairs[c].status = .absent
  · rw [if_pos hp]
    exact if_pos hp
  · rw [if_neg hp]
    exact if_neg hp

theorem State.withRep_dropRetained (l) : (s.withRep r).dropRetained l = (s.dropRetained l).withRep r := by
  simp only [State.dropRetained, State.withRep_auth]
  cases s.auth[l].state with
  | standing retained cause =>
    cases retained with
    | none => rfl
    | some h => exact State.withRep_release ((s.advanceEpoch l).setAuth l (.standing none cause)) r h
  | _ => rfl

/-! ## A loader that enters FREE or returns (R11, R20) -/

theorem State.withRep_enterCalling (l w d) : (s.withRep r).enterCalling l w d =
    (s.enterCalling l w d).withRep (r.raise s ⟨.callQueued, some l, none, d⟩) := by
  have hs : s.SameReporting ((((s.withRep r).setAuth l (.calling w)).enqueue l w).callWalk) := State.sameReporting_of_records rfl rfl rfl
  exact hs.raise_eq _ _ _ _

theorem State.enterFree_call {s : State} {l : Loader} (h : s.status[l].accepted.isCall = true) :
    s.enterFree l = (s.setAuth l .free).enterCalling l s.timer.number callNew := if_pos h

theorem State.enterFree_free {s : State} {l : Loader} (h : ¬ s.status[l].accepted.isCall = true) :
    s.enterFree l = s.setAuth l .free := if_neg h

theorem State.withRep_enterFree (l) : (s.withRep r).enterFree l = (s.enterFree l).withRep (s.freedReport l r) := by
  by_cases hc : s.status[l].accepted.isCall = true
  · have hs : s.SameReporting (s.setAuth l .free) := State.sameReporting_of_records rfl rfl rfl
    rw [State.enterFree_call hc, State.enterFree_call (s := s.withRep r) hc, State.freedReport, if_pos hc,
      ← Report.raise_same hs]
    exact (s.setAuth l .free).withRep_enterCalling r l s.timer.number callNew
  · rw [State.enterFree_free hc, State.enterFree_free (s := s.withRep r) hc, State.freedReport, if_neg hc]
    rfl

section returnLoader
variable {s : State} {l : Loader}

theorem State.returnLoader_held {h : Chair} (hh : s.auth[l].state.holder = some h) : s.returnLoader l = s.setAuth l (.held h) := by
  simp only [State.returnLoader, hh]

theorem State.returnLoader_requeued {w : Word32} (hh : s.auth[l].state.holder = none)
    (ho : s.auth[l].state.origin = some (.call w)) (hc : s.status[l].accepted.isCall = true) :
    s.returnLoader l = s.enterCalling l w callRequeued := by
  simp only [State.returnLoader, hh, ho, hc, if_true]

theorem State.returnLoader_freed (hh : s.auth[l].state.holder = none)
    (ho : ∀ w, s.auth[l].state.origin = some (.call w) → ¬ s.status[l].accepted.isCall = true) :
    s.returnLoader l = s.enterFree l := by
  simp only [State.returnLoader, hh]
  match hx : s.auth[l].state.origin with
  | none => rfl
  | some .direct => rfl
  | some (.call w) => exact if_neg (ho w hx)

theorem State.returnReport_freed (hh : s.auth[l].state.holder = none)
    (ho : ∀ w, s.auth[l].state.origin = some (.call w) → ¬ s.status[l].accepted.isCall = true) (r : Report) :
    s.returnReport l r = s.freedReport l r := by
  simp only [State.returnReport, hh]
  match hx : s.auth[l].state.origin with
  | none => rfl
  | some .direct => rfl
  | some (.call w) =>
    dsimp only
    rw [if_neg (ho w hx), State.freedReport, if_neg (ho w hx)]

/-- A loader returns to its holder, to the Call Queue with its stamp, or to FREE (R20). -/
theorem State.return_cases (s : State) (l : Loader) :
    (∃ h, s.auth[l].state.holder = some h)
    ∨ (s.auth[l].state.holder = none ∧ ∃ w, s.auth[l].state.origin = some (.call w) ∧ s.status[l].accepted.isCall = true)
    ∨ (s.auth[l].state.holder = none ∧
      ∀ w, s.auth[l].state.origin = some (.call w) → ¬ s.status[l].accepted.isCall = true) := by
  cases hh : s.auth[l].state.holder with
  | some h => exact .inl ⟨h, rfl⟩
  | none =>
    refine .inr ?_
    by_cases hw : ∃ w, s.auth[l].state.origin = some (.call w) ∧ s.status[l].accepted.isCall = true
    · exact .inl ⟨rfl, hw⟩
    · exact .inr ⟨rfl, fun w ho hc => hw ⟨w, ho, hc⟩⟩

end returnLoader

theorem State.withRep_returnLoader (l) : (s.withRep r).returnLoader l = (s.returnLoader l).withRep (s.returnReport l r) := by
  obtain ⟨h, hh⟩ | ⟨hh, w, ho, hc⟩ | ⟨hh, ho⟩ := s.return_cases l
  · rw [State.returnLoader_held hh, State.returnLoader_held (s := s.withRep r) hh, State.returnReport, hh]
    rfl
  · rw [State.returnLoader_requeued hh ho hc, State.returnLoader_requeued (s := s.withRep r) hh ho hc, State.returnReport, hh, ho]
    dsimp only
    rw [if_pos hc]
    exact s.withRep_enterCalling r l w _
  · rw [State.returnLoader_freed hh ho, State.returnLoader_freed (s := s.withRep r) hh ho, State.returnReport_freed hh ho]
    exact s.withRep_enterFree r l

/-! ## Offers (R14) -/

/-- A chair that is there stays so, whatever place it takes or leaves. -/
theorem State.sameReporting_of_chair {t : State} (ht : t.timer = s.timer) (htab : t.tables = s.tables) {c : Chair} {x : ChairState}
    (hc : t.chairs = putAt s.chairs c x) (hx : x.status = .absent ↔ s.chairs[c].status = .absent) : s.SameReporting t := by
  refine ⟨ht, htab, fun d => ?_⟩
  rw [hc, putAt_get]
  split
  · next h =>
    subst h
    exact hx
  · rfl

theorem State.release_same (c : Chair) : s.SameReporting (s.release c) := by
  by_cases hp : s.chairs[c].status = .absent
  · rw [State.release_absent hp]
    exact State.sameReporting_of_chair s rfl rfl rfl Iff.rfl
  · cases ha : s.chairs[c].available
    · rw [State.release_unavailable hp ha]
      exact State.sameReporting_of_chair s rfl rfl rfl ⟨nofun, fun h => absurd h hp⟩
    · rw [State.release_available hp ha]
      exact State.sameReporting_of_chair s rfl rfl (putAt_putAt _ _ _ _) ⟨by simp, fun h => absurd h hp⟩

theorem State.SameReporting.trans {s t u : State} (h : s.SameReporting t) (h' : t.SameReporting u) : s.SameReporting u :=
  ⟨h'.timer.trans h.timer, h'.tables.trans h.tables, fun c => (h'.present c).trans (h.present c)⟩

theorem State.offerGone_same (c n) : s.SameReporting (s.offerGone c n) :=
  (State.sameReporting_of_chair s (t := s.setChair c { s.chairs[c] with lastEnded := some n }) rfl rfl rfl Iff.rfl).trans
    (State.release_same _ c)

theorem State.endMatching_same (l c) : s.SameReporting (s.endMatching l c) :=
  (State.sameReporting_of_records (s := s) (t := s.clearMatch l) rfl rfl rfl).trans (State.release_same _ c)

theorem State.withRep_makeOffer (l c o) (hc : s.chairs[c].status ≠ .absent) :
    (s.withRep r).makeOffer l c o = (s.makeOffer l c o).withRep (s.offerReport l c (s.offerCounter + 1) r) := by
  let u := (({ s with offerCounter := s.offerCounter + 1 }.dequeue l).setAuth l (.offered s.auth[l].state.holder c
      s.auth[l].state.offerOrigin (s.offerCounter + 1) o s.tables.device.offerTimeout)).engage c .offered l
  have hs : s.SameReporting u := State.sameReporting_of_chair s rfl rfl rfl ⟨nofun, fun h => absurd h hc⟩
  have hepoch : u.auth[l].epoch = s.auth[l].epoch := by
    change (putAt s.auth l _)[l].epoch = _
    rw [putAt_same]
    rfl
  let n : Notice := { name := .offer, loader := some l, chair := s.auth[l].state.holder, epoch := u.auth[l].epoch + 1,
                      number := s.offerCounter + 1, cycles := s.tables.device.offerTimeout }
  have hs' : s.SameReporting (u.notice c n) := ⟨hs.timer, hs.tables, hs.present⟩
  have hmake (r : Report) : (s.withRep r).makeOffer l c o =
      ((u.withRep r).notice c n).raise .offerMade (some l) (some c) (s.offerCounter + 1) := rfl
  rw [hmake r, State.withRep_notice, State.withRep_raise, Report.raise_same hs', Report.notice_same hs, State.offerReport, ← hepoch]
  rfl

/-! ## Standing (R8, R9) -/

theorem State.withRep_withdrawn (l c n why) : (s.withRep r).withdrawn l c n why =
    (s.withdrawn l c n why).withRep (r.sends s c .withdrawn l s.auth[l].epoch why.code n) := s.withRep_notice r c _

theorem State.withRep_aborted (l c why) : (s.withRep r).aborted l c why =
    (s.aborted l c why).withRep (r.sends s c .aborted l s.auth[l].epoch why.code) := s.withRep_notice r c _

theorem State.withRep_noticeIfPresent (h : Option Chair) (n) : (s.withRep r).noticeIfPresent h n =
    (s.noticeIfPresent h n).withRep (match h with
      | none => r
      | some x => if s.chairs[x].status = .absent then r else r.notice s x (n x)) := by
  cases h with
  | none => rfl
  | some x =>
    by_cases hp : s.chairs[x].status = .absent
    · have hn (t : State) (ht : t.chairs[x].status = .absent) : t.noticeIfPresent (some x) n = t := if_pos ht
      rw [hn s hp, hn (s.withRep r) hp]
      dsimp only
      rw [if_pos hp]
    · have hn (t : State) (ht : ¬ t.chairs[x].status = .absent) : t.noticeIfPresent (some x) n = t.notice x (n x) := if_neg ht
      rw [hn s hp, hn (s.withRep r) hp, s.withRep_notice]
      dsimp only
      rw [if_neg hp]

theorem State.noticeIfPresent_same (h : Option Chair) (n) : s.SameReporting (s.noticeIfPresent h n) := by
  cases h with
  | none => exact State.sameReporting_of_records rfl rfl rfl
  | some x =>
    simp only [State.noticeIfPresent]
    split
    · exact State.sameReporting_of_records rfl rfl rfl
    · exact State.sameReporting_of_records rfl rfl rfl

theorem State.withRep_reportStand (l h cause) : (s.withRep r).reportStand l h cause =
    (s.reportStand l h cause).withRep (s.standTold l cause h s.auth[l].epoch r) := by
  have hw := s.withRep_noticeIfPresent r h (standNotice l cause s.auth[l].epoch)
  have hs := s.noticeIfPresent_same h (standNotice l cause s.auth[l].epoch)
  simp only [State.reportStand, State.standTold, State.withRep_auth, hw]
  cases cause.event with
  | none => rfl
  | some name =>
    dsimp only
    rw [State.withRep_raise, Report.raise_same hs]
    rfl

theorem State.SameReporting.standTold {s t : State} (h : s.SameReporting t) (l cause holder epoch) (r : Report) :
    t.standTold l cause holder epoch r = s.standTold l cause holder epoch r := by
  simp only [State.standTold, Report.sends, Report.raise_same h, Report.notice_same h, h.present]

/-- What the parties of a stand are told (R8 parts 2 and 3). -/
def State.partiesReport (s : State) (l : Loader) (epoch : Byte) (r : Report) : Report :=
  match s.auth[l].state with
  | .offered _ c _ number _ _ => (r.sends s c .withdrawn l epoch 0x24 number).raise s ⟨.offerEnded, some l, some c, 5⟩
  | .matching _ c _ _ _ => r.sends s c .aborted l epoch 0x24
  | _ => r

theorem State.withRep_standParties (l) : (s.withRep r).standParties l =
    (s.standParties l).withRep (s.partiesReport l s.auth[l].epoch r) := by
  simp only [State.standParties, State.partiesReport, State.withRep_auth]
  cases s.auth[l].state with
  | offered h c o number f t =>
    have hs : s.SameReporting ((s.withdrawn l c number .stand).offerGone c number) :=
      (State.sameReporting_of_records (s := s) (t := s.withdrawn l c number .stand) rfl rfl rfl).trans (State.offerGone_same _ c number)
    dsimp only [id]
    rw [State.endOffer_eq, State.endOffer_eq, s.withRep_withdrawn, State.withRep_offerGone, id, State.withRep_raise,
      Report.raise_same hs]
    rfl
  | matching h c o f t =>
    dsimp only
    rw [s.withRep_aborted, State.withRep_endMatching]
    rfl
  | _ => rfl

theorem Cause.keeps_eq (cause : Cause) : cause.keeps = cause.retains := by
  cases cause <;> rfl

theorem State.withRep_standHolder (l cause) : (s.withRep r).standHolder l cause = (s.standHolder l cause).withRep r := by
  simp only [State.standHolder, State.withRep_auth]
  cases s.auth[l].state.holder with
  | none => rfl
  | some h =>
    cases cause.retains with
    | true => rfl
    | false => exact State.withRep_release (s.advanceEpoch l) r h

theorem State.standHolder_same (l cause) : s.SameReporting (s.standHolder l cause) := by
  simp only [State.standHolder]
  cases s.auth[l].state.holder with
  | none => exact State.sameReporting_of_records rfl rfl rfl
  | some h =>
    cases cause.retains with
    | true => exact State.sameReporting_of_records rfl rfl rfl
    | false =>
      exact (State.sameReporting_of_records (s := s) (t := s.advanceEpoch l) rfl rfl rfl).trans (State.release_same _ h)

theorem State.standParties_same (l) : s.SameReporting (s.standParties l) := by
  unfold State.standParties
  cases s.auth[l].state with
  | offered h c o number f t =>
    have hs : s.SameReporting ((s.withdrawn l c number .stand).offerGone c number) :=
      (State.sameReporting_of_records (s := s) (t := s.withdrawn l c number .stand) rfl rfl rfl).trans (State.offerGone_same _ c number)
    exact ⟨hs.timer, hs.tables, hs.present⟩
  | matching h c o f t =>
    exact (State.sameReporting_of_records (s := s) (t := s.aborted l c .stand) rfl rfl rfl).trans (State.endMatching_same _ l c)
  | _ => exact State.sameReporting_of_records rfl rfl rfl

/-- The epoch after R8 part 1. -/
def State.standEpoch (s : State) (l : Loader) (cause : Cause) : Byte :=
  if s.auth[l].state.holder.isSome && !cause.keeps then s.auth[l].epoch + 1 else s.auth[l].epoch

theorem State.standHolder_record (l cause) :
    (s.standHolder l cause).auth[l] = ⟨s.auth[l].state, s.standEpoch l cause⟩ := by
  rw [State.standHolder_auth, State.standEpoch, Cause.keeps_eq]
  cases s.auth[l].state.holder.isSome <;> cases cause.retains <;> simp [-Fin.getElem_fin]

/-- The report of a loader that enters STANDING (R8). -/
def State.standEntryReport (s : State) (l : Loader) (cause : Cause) (r : Report) : Report :=
  s.standTold l cause s.auth[l].state.holder (s.standEpoch l cause) (s.partiesReport l (s.standEpoch l cause) r)

theorem State.standReport_entry {s : State} {l : Loader} (h : s.auth[l].state.isStanding = false) (cause : Cause) (r : Report) :
    s.standReport l cause r = s.standEntryReport l cause r := by
  unfold State.standReport State.standEntryReport State.partiesReport State.standEpoch
  cases ha : s.auth[l].state with
  | standing => rw [ha] at h; exact nomatch h
  | _ => rfl

theorem State.withRep_standEntry (l cause) : (s.withRep r).standEntry l cause =
    (s.standEntry l cause).withRep (s.standEntryReport l cause r) := by
  have hrec := s.standHolder_record l cause
  have hs := s.standHolder_same l cause
  have hsp := hs.trans (State.standParties_same (s.standHolder l cause) l)
  have hparties (r : Report) : (s.standHolder l cause).partiesReport l (s.standHolder l cause).auth[l].epoch r =
      s.partiesReport l (s.standEpoch l cause) r := by
    rw [hrec]
    simp only [State.partiesReport, hrec, Report.sends, Report.raise_same hs, Report.notice_same hs]
  let a : AuthState := .standing (if cause.retains then s.auth[l].state.holder else none) cause
  have hepoch : ((((s.standHolder l cause).standParties l).setAuth l a).auth[l]).epoch = s.standEpoch l cause := by
    rw [State.setAuth_auth, putAt_same, State.standParties_auth, hrec]
  have hsa : s.SameReporting (((s.standHolder l cause).standParties l).setAuth l a) := ⟨hsp.timer, hsp.tables, hsp.present⟩
  have hentry (r : Report) : (s.withRep r).standEntry l cause =
      ((((s.withRep r).standHolder l cause).standParties l).setAuth l a).reportStand l s.auth[l].state.holder cause := rfl
  rw [hentry r, s.withRep_standHolder, State.withRep_standParties, State.withRep_setAuth, State.withRep_reportStand, hepoch,
    hparties, hsa.standTold]
  rfl

theorem Cause.replaces_eq (new recorded : Cause) : new.replaces recorded = (recorded.givesWay new && decide (new ≠ recorded)) := by
  cases new <;> cases recorded <;> rfl

/-- A stand cause reaches a loader (R8, R9). -/
theorem State.withRep_stand (l cause) : (s.withRep r).stand l cause = (s.stand l cause).withRep (s.standReport l cause r) := by
  cases ha : s.auth[l].state with
  | standing retained recorded =>
    have hstand (t : State) (ht : t.auth[l].state = .standing retained recorded) : t.stand l cause =
        if cause.replaces recorded then (t.setAuth l (.standing retained cause)).reportStand l retained cause else t := by
      simp only [State.stand, ht]
    have hepoch : (s.setAuth l (.standing retained cause)).auth[l].epoch = s.auth[l].epoch := by
      rw [State.setAuth_auth, putAt_same]
    have hs : s.SameReporting (s.setAuth l (.standing retained cause)) := State.sameReporting_of_records rfl rfl rfl
    rw [hstand s ha, hstand (s.withRep r) ha, State.standReport]
    simp only [ha, ← Cause.replaces_eq]
    cases cause.replaces recorded with
    | false => rfl
    | true =>
      simp only [if_true]
      rw [State.withRep_setAuth, State.withRep_reportStand, hepoch, hs.standTold]
  | _ =>
    have hns : s.auth[l].state.isStanding = false := by rw [ha]; rfl
    rw [State.standReport_entry hns]
    have hstand (t : State) (ht : t.auth[l].state = s.auth[l].state) : t.stand l cause = t.standEntry l cause := by
      simp only [State.stand, ht, ha]
    rw [hstand s rfl, hstand (s.withRep r) rfl, s.withRep_standEntry]

end

end Sys2Proof.Machine
end

section
/-! What a row has done once its event is over: the statements' predicates on the state after the walk, from what the row wrote
before it (R8, R11, R20, R45, R53). -/

namespace Sys2Proof.Machine

open Sys2Proof

/-! ## Two states that differ in no record that a report or an answer reads -/

/-- The states agree in the records of loaders, the chairs that are present, the list, the timer, the tables and the status
reports. -/
structure State.Alike (s v : State) : Prop where
  auth : v.auth = s.auth
  timer : v.timer = s.timer
  tables : v.tables = s.tables
  status : v.status = s.status
  freeList : v.freeList = s.freeList
  present : ∀ c : Chair, v.chairs[c].status = s.chairs[c].status

namespace State.Alike
variable {s v w : State}

theorem refl (s : State) : s.Alike s := ⟨rfl, rfl, rfl, rfl, rfl, fun _ => rfl⟩

theorem refreshPresence (s : State) (c : Chair) : s.Alike (s.refreshPresence c) :=
  ⟨s.refreshPresence_auth c, s.refreshPresence_timer c, s.refreshPresence_tables c, s.refreshPresence_status c,
    s.refreshPresence_freeList c, s.refreshPresence_chairStatus c⟩

theorem withRep (h : s.Alike v) (r : Report) : s.Alike (v.withRep r) :=
  ⟨h.auth, h.timer, h.tables, h.status, h.freeList, h.present⟩

theorem undue (s : State) (d : Due) : s.Alike (s.undue d) := ⟨rfl, rfl, rfl, rfl, rfl, fun _ => rfl⟩

theorem same (h : s.Alike v) : s.SameReporting v := ⟨h.timer, h.tables, fun c => by rw [h.present]⟩

end State.Alike

/-- Two states that report alike, with the same record of one loader and the same status reports. -/
structure State.SameFor (l : Loader) (s t : State) : Prop extends s.SameReporting t where
  auth : t.auth[l] = s.auth[l]
  status : t.status = s.status

section sameFor
variable {s t u : State} {l : Loader}

theorem State.SameFor.trans (h : State.SameFor l s t) (h' : State.SameFor l t u) : State.SameFor l s u :=
  ⟨h.toSameReporting.trans h'.toSameReporting, h'.auth.trans h.auth, h'.status.trans h.status⟩

theorem State.Alike.sameFor (h : s.Alike t) (l : Loader) : State.SameFor l s t := ⟨h.same, by rw [h.auth], h.status⟩

theorem State.SameFor.release (s : State) (l : Loader) (c : Chair) : State.SameFor l s (s.release c) :=
  ⟨s.release_same c, by rw [State.release_auth], congrArg Rest.status (s.release_rest c)⟩

theorem State.SameFor.offerGone (s : State) (l : Loader) (c : Chair) (n : Word16) : State.SameFor l s (s.offerGone c n) :=
  ⟨s.offerGone_same c n, by rw [State.offerGone_auth], congrArg Rest.status (s.offerGone_rest c n)⟩

theorem State.SameFor.endMatching (s : State) (l : Loader) (c : Chair) : State.SameFor l s (s.endMatching l c) :=
  ⟨s.endMatching_same l c, by rw [State.endMatching_auth], congrArg Rest.status (s.endMatching_rest l c)⟩

theorem State.SameFor.freedReport (h : State.SameFor l s t) (r : Report) : t.freedReport l r = s.freedReport l r := by
  simp only [State.freedReport, h.status, Report.raise_same h.toSameReporting]

theorem State.SameFor.returnReport (h : State.SameFor l s t) (r : Report) : t.returnReport l r = s.returnReport l r := by
  simp only [State.returnReport, h.auth, h.status, Report.raise_same h.toSameReporting, h.freedReport]

theorem State.SameFor.standReport (h : State.SameFor l s t) (cause : Cause) (r : Report) :
    t.standReport l cause r = s.standReport l cause r := by
  simp only [State.standReport, h.auth, h.toSameReporting.standTold, Report.sends, Report.notice_same h.toSameReporting,
    Report.raise_same h.toSameReporting]

theorem State.SameFor.offerReport (h : State.SameFor l s t) (c : Chair) (n : Word16) (r : Report) :
    t.offerReport l c n r = s.offerReport l c n r := by
  simp only [State.offerReport, h.auth, h.tables, Report.notice_same h.toSameReporting, Report.raise_same h.toSameReporting]

end sameFor

theorem State.SameReporting.sends {s t : State} (h : s.SameReporting t) (r : Report) (c name l epoch b n) :
    r.sends t c name l epoch b n = r.sends s c name l epoch b n := Report.notice_same h c _ r

/-- An event, a notice and a count of a state that reports alike, its report given. -/
theorem State.SameReporting.raise_rep {s t : State} (h : s.SameReporting t) (r : Report) (e k d w) :
    (t.withRep r).raise e k d w = t.withRep (r.raise s ⟨e, k, d, w⟩) := by
  rw [State.withRep_raise, Report.raise_same h]
  rfl

theorem State.SameReporting.notice_rep {s t : State} (h : s.SameReporting t) (r : Report) (c n) :
    (t.withRep r).notice c n = t.withRep (r.notice s c n) := by
  rw [State.withRep_notice, Report.notice_same h]
  rfl

theorem State.SameReporting.count_rep {s t : State} (h : s.SameReporting t) (r : Report) (id n) :
    (t.withRep r).count id n = t.withRep (r.count s id n) := by
  rw [State.withRep_count, Report.count_same h]
  rfl

theorem State.enterFree_same (s : State) (l : Loader) : s.SameReporting (s.enterFree l) := by
  unfold State.enterFree
  dsimp only
  split
  · exact ⟨rfl, rfl, fun _ => Iff.rfl⟩
  · exact ⟨rfl, rfl, fun _ => Iff.rfl⟩

theorem State.returnLoader_same (s : State) (l : Loader) : s.SameReporting (s.returnLoader l) := by
  obtain ⟨h, hh⟩ | ⟨hh, w, ho, hc⟩ | ⟨hh, ho⟩ := s.return_cases l
  · rw [State.returnLoader_held hh]
    exact ⟨rfl, rfl, fun _ => Iff.rfl⟩
  · rw [State.returnLoader_requeued hh ho hc]
    exact ⟨rfl, rfl, fun _ => Iff.rfl⟩
  · rw [State.returnLoader_freed hh ho]
    exact s.enterFree_same l

/-! ## The record of a loader that returns or is freed (R11, R20) -/

/-- The record of a loader that enters FREE (R11). -/
def State.freedState (s : State) (l : Loader) : AuthState :=
  if s.status[l].accepted.isCall then .calling s.timer.number else .free

/-- The record of a loader that returns (R20). -/
def State.returnState (s : State) (l : Loader) : AuthState :=
  match s.auth[l].state.holder with
  | some h => .held h
  | none =>
    match s.auth[l].state.origin with
    | some (.call stamp) => if s.status[l].accepted.isCall then .calling stamp else .free
    | _ => s.freedState l

section returnState
variable {s t : State} {l : Loader}

theorem State.enterFree_record (s : State) (l : Loader) :
    (s.enterFree l).auth = putAt s.auth l { s.auth[l] with state := s.freedState l } := s.enterFree_auth l

theorem State.returnLoader_record (s : State) (l : Loader) :
    (s.returnLoader l).auth = putAt s.auth l { s.auth[l] with state := s.returnState l } := by
  obtain ⟨h, hh⟩ | ⟨hh, w, ho, hc⟩ | ⟨hh, ho⟩ := s.return_cases l
  · rw [State.returnLoader_held hh, State.returnState, hh]
    rfl
  · rw [State.returnLoader_requeued hh ho hc, State.returnState, hh, ho]
    dsimp only
    rw [if_pos hc]
    rfl
  · rw [State.returnLoader_freed hh ho, State.enterFree_record, State.returnState, hh]
    dsimp only
    cases hx : s.auth[l].state.origin with
    | none => rfl
    | some o =>
      cases o with
      | direct => rfl
      | call w =>
        have hfree : ¬ s.status[l].accepted.isCall = true := ho w hx
        dsimp only
        rw [State.freedState, if_neg hfree, if_neg hfree]

theorem State.freedState_congr (hs : t.status = s.status) (ht : t.timer = s.timer) : t.freedState l = s.freedState l := by
  rw [State.freedState, hs, ht, State.freedState]

theorem State.returnState_congr (ha : t.auth[l] = s.auth[l]) (hs : t.status = s.status) (ht : t.timer = s.timer) :
    t.returnState l = s.returnState l := by
  simp only [State.returnState, ha, hs, State.freedState_congr hs ht]

theorem State.SameFor.returnState (h : State.SameFor l s t) : t.returnState l = s.returnState l :=
  State.returnState_congr h.auth h.status h.timer

theorem State.enterFree_lists (s : State) (l : Loader) :
    (s.enterFree l).chairs = s.chairs ∧ (s.enterFree l).freeList = s.freeList ∧ (s.enterFree l).windows = s.windows
      ∧ (s.enterFree l).builders = s.builders := by
  unfold State.enterFree
  dsimp only
  split
  · exact ⟨rfl, rfl, rfl, rfl⟩
  · exact ⟨rfl, rfl, rfl, rfl⟩

/-- A return writes no chair, no list of chairs, no window and no mailbox. -/
theorem State.returnLoader_lists (s : State) (l : Loader) :
    (s.returnLoader l).chairs = s.chairs ∧ (s.returnLoader l).freeList = s.freeList
      ∧ (s.returnLoader l).windows = s.windows ∧ (s.returnLoader l).builders = s.builders := by
  obtain ⟨h, hh⟩ | ⟨hh, w, ho, hc⟩ | ⟨hh, ho⟩ := s.return_cases l
  · rw [State.returnLoader_held hh]
    exact ⟨rfl, rfl, rfl, rfl⟩
  · rw [State.returnLoader_requeued hh ho hc]
    exact ⟨rfl, rfl, rfl, rfl⟩
  · rw [State.returnLoader_freed hh ho]
    exact s.enterFree_lists l

end returnState

/-! ## After the walk -/

namespace State.Walked
variable {s u t : State} {l : Loader}

/-- A loader that is not CALLING is as its row left it. -/
theorem record (h : u.Walked t) {r : AuthRecord} (ha : u.auth[l] = r) (hc : r.state.isCalling = false) : t.auth[l] = r := by
  rw [h.auth_of_not_calling (by rw [ha, hc]), ha]

/-- The walk leaves every epoch. -/
theorem epoch (h : u.Walked t) (l : Loader) : t.auth[l].epoch = u.auth[l].epoch := by
  obtain ht | ⟨w, x, n, -, ht⟩ := h.auth l
  · rw [ht]
  · rw [ht]

theorem callingAt (h : u.Walked t) (htab : u.tables = s.tables) {w : Word32} (ha : u.auth[l].state = .calling w) :
    s.callingAt t l w = true := by
  obtain ht | ⟨w', x, n, hc, ht⟩ := h.auth l
  · simp only [State.callingAt, ht, ha, decide_true]
  · obtain rfl : w' = w := AuthState.calling.inj (hc.symm.trans ha)
    simp only [State.callingAt, ht, htab, decide_true, Bool.and_self]

theorem free (h : u.Walked t) (ha : u.auth[l].state = .free) : t.auth[l].state = .free := by
  rw [h.auth_of_not_calling (by rw [ha]; rfl), ha]

theorem freed (h : u.Walked t) (htab : u.tables = s.tables) (ha : u.auth[l].state = s.freedState l) :
    s.freed t l s.status[l].accepted = true := by
  rw [State.freed]
  by_cases hc : s.status[l].accepted.isCall = true
  · rw [State.freedState, if_pos hc] at ha
    rw [if_pos hc]
    exact h.callingAt htab ha
  · rw [State.freedState, if_neg hc] at ha
    rw [if_neg hc]
    exact decide_eq_true (h.free ha)

theorem returned (h : u.Walked t) (htab : u.tables = s.tables) (ha : u.auth[l] = ⟨s.returnState l, s.auth[l].epoch⟩) :
    s.returned t l = true := by
  have hepoch : t.auth[l].epoch = s.auth[l].epoch := by rw [h.epoch, ha]
  have hstate : u.auth[l].state = s.returnState l := by rw [ha]
  rw [State.returned, hepoch, decide_eq_true rfl, Bool.true_and]
  rw [State.returnState] at hstate
  cases hh : s.auth[l].state.holder with
  | some x =>
    rw [hh] at hstate
    exact decide_eq_true ((h.auth_of_not_calling (by rw [hstate]; rfl)).symm ▸ hstate)
  | none =>
    rw [hh] at hstate
    cases ho : s.auth[l].state.origin with
    | none =>
      rw [ho] at hstate
      exact h.freed htab hstate
    | some o =>
      rw [ho] at hstate
      cases o with
      | direct => exact h.freed htab hstate
      | call w =>
        dsimp only at hstate ⊢
        by_cases hc : s.status[l].accepted.isCall = true
        · rw [if_pos hc] at hstate ⊢
          exact h.callingAt htab hstate
        · rw [if_neg hc] at hstate ⊢
          exact decide_eq_true (h.free hstate)

/-- A chair that was not on the list is as its row left it. -/
theorem chair (h : u.Walked t) {x : Chair} {r : ChairState} (hc : u.chairs[x] = r) (hx : x ∉ u.freeList) : t.chairs[x] = r :=
  (h.chair_of_not_listed hx).trans hc

/-- The walk writes the place of a chair alone. -/
theorem chair_counts (h : u.Walked t) (x : Chair) : t.chairs[x].lastEnded = u.chairs[x].lastEnded
    ∧ t.chairs[x].missed = u.chairs[x].missed ∧ t.chairs[x].available = u.chairs[x].available
    ∧ t.chairs[x].presence = u.chairs[x].presence ∧ t.chairs[x].idleSince = u.chairs[x].idleSince := by
  obtain ⟨hc, -⟩ | ⟨-, -, k, w, n, timer, hc, -⟩ := h.chairs x
  · rw [hc]
    exact ⟨rfl, rfl, rfl, rfl, rfl⟩
  · rw [hc]
    exact ⟨rfl, rfl, rfl, rfl, rfl⟩

end State.Walked

/-- An event that is not a cycle start's ends with the walk it called for. -/
theorem State.RecordsAgree.walked {u : State} (h : u.RecordsAgree) (hc : u.cycleStarting = false) : u.Walked u.finish :=
  h.1.queueCalls.finish hc

theorem State.cycleStarting_congr {s u : State} (h : u.due = s.due) : u.cycleStarting = s.cycleStarting := by
  rw [State.cycleStarting, h, State.cycleStarting]

theorem State.finish_walkCalled_off {u : State} (h : u.cycleStarting = false) : u.finish.walkCalled = false :=
  Bool.eq_false_iff.mpr fun hw => Bool.false_ne_true (h.symm.trans (State.finish_walkCalled hw))

/-- The walk offers mailboxes to nobody. -/
theorem State.walkOne_builders (s : State) (e : CallEntry) : (s.walkOne e).builders = s.builders := by
  unfold State.walkOne
  split
  · rfl
  · rfl

theorem State.walk_builders (s : State) : s.walk.builders = s.builders :=
  foldl_keeps _ State.builders (fun s e => s.walkOne_builders e) _ _

theorem State.finish_builders (s : State) : s.finish.builders = s.builders := by
  obtain ⟨-, hf⟩ | ⟨-, -, hf⟩ | ⟨-, -, hf⟩ := s.finish_cases
  · rw [hf]
    rfl
  · rw [hf]
    rfl
  · rw [hf]
    exact s.walk_builders

/-- The event of a row that left the state u is over: what the walk left of u, and what the event left of s. -/
structure State.EventOver (s u : State) (l : Loader) : Prop where
  walked : u.Walked u.finish
  kept : ∀ k : Loader, k ≠ l → s.Kept u.finish k
  authority : s.OnlyAuthority u.finish
  tables : u.tables = s.tables

/-- An event that touches one loader's records keeps every other, but for offers of the walk, and writes authority alone. -/
theorem State.Touches.finish {s u : State} {l : Loader} {c : Chair} (h : State.Touches l c s u) (hu : u.RecordsAgree)
    (hc : s.cycleStarting = false) (hs : s.walkCalled = false) : s.EventOver u l := by
  have hcu : u.cycleStarting = false := (State.cycleStarting_congr (congrArg Rest.due h.rest)).trans hc
  have hw := hu.walked hcu
  exact ⟨hw, fun k hk => hw.kept (h.auth k hk) (congrArg Rest.tables h.rest),
    State.onlyAuthority_of_rest (u.finish_rest.trans h.rest) ((State.finish_walkCalled_off hcu).trans hs.symm),
    congrArg Rest.tables h.rest⟩

/-! ## Where the statement's state is not the row's -/

section alike
variable {s v t : State} {l : Loader}

theorem State.Alike.kept (h : s.Alike v) {k : Loader} (hk : v.Kept t k) : s.Kept t k := by
  simpa only [State.Kept, State.walkOffered, h.auth, h.tables] using hk

theorem State.onlyAuthority_reloaded {s t : State} {c : Chair} (h : (s.refreshPresence c).OnlyAuthority t) :
    s.OnlyAuthority t := by
  refine State.onlyAuthority_of_rest ?_ ?_
  · rw [h, ← s.refreshPresence_rest c]
    rfl
  · rw [h]
    exact s.refreshPresence_walkCalled c

theorem State.HasLeft.withRep {s u : State} {x : Chair} (h : s.HasLeft u x) (r : Report) : s.HasLeft (u.withRep r) x :=
  ⟨h.idle, h.disengaged, h.freeList, h.listed⟩

/-- A chair that a row released from its place has rejoined, whatever the row wrote besides. -/
theorem State.rejoined_of_release {s v w u t : State} {x : Chair} (ht : v.timer = s.timer) (hf : v.freeList = s.freeList)
    (hp : v.chairs[x].status ≠ .absent) (hx : x ∉ s.freeList) (hw : w = v.release x) (hc : u.chairs = w.chairs)
    (hl : u.freeList = w.freeList) (hwalk : u.Walked t) : s.Rejoined t x := by
  subst hw
  exact ((State.release_hasLeft ht hf hp hx).congr hc hl).rejoined hwalk

end alike

/-! ## Requests -/

theorem State.Ready.idle {s : State} (h : s.Ready) : s.due = [] ∧ s.walkCalled = false ∧ s.cycleStarting = false := by
  obtain ⟨⟨hdue, -, hwalk, -⟩, -⟩ := h
  exact ⟨hdue, hwalk, State.cycleStarting_of_following (by rw [State.following, hdue, List.filter_nil])⟩

/-- A request about one loader, once its event is over. -/
theorem State.Admits.touched {s u : State} {f : Frame} {c : Chair} {l : Loader} (ha : s.Admits f c) (hr : u.RecordsAgree)
    (h : State.Touches l c (s.refreshPresence c) u) : s.EventOver u l := by
  obtain ⟨-, hwalk, hstart⟩ := ha.1.idle
  obtain ⟨hw, hk, ho, ht⟩ := h.finish hr
    ((State.cycleStarting_congr (congrArg Rest.due (s.refreshPresence_rest c))).trans hstart)
    ((s.refreshPresence_walkCalled c).trans hwalk)
  exact ⟨hw, fun k hk' => (State.Alike.refreshPresence s c).kept (hk k hk'), State.onlyAuthority_reloaded ho,
    ht.trans (s.refreshPresence_tables c)⟩

end Sys2Proof.Machine
end

section
/-! The ends of a handover (R19, R20, R68): an offer or a matching that ends with the loader's return, what it reports and what it
leaves of the chair. -/

namespace Sys2Proof.Machine

open Sys2Proof

section
variable {s : State} {l : Loader} {x : Chair}

/-- A release writes the place of a chair alone. -/
theorem State.release_counts (s : State) (x d : Chair) : (s.release x).chairs[d].lastEnded = s.chairs[d].lastEnded
    ∧ (s.release x).chairs[d].missed = s.chairs[d].missed ∧ (s.release x).chairs[d].available = s.chairs[d].available
    ∧ (s.release x).chairs[d].presence = s.chairs[d].presence := by
  by_cases hd : d = x
  · subst hd
    by_cases hp : s.chairs[d].status = .absent
    · rw [State.release_absent hp, State.setChair_chairs, putAt_same]
      exact ⟨rfl, rfl, rfl, rfl⟩
    · cases ha : s.chairs[d].available
      · rw [State.release_unavailable hp ha, State.setChair_chairs, putAt_same]
        exact ⟨rfl, rfl, ha, rfl⟩
      · rw [State.release_available hp ha, State.joinList_chairs, State.setChair_chairs, putAt_same, putAt_same]
        exact ⟨rfl, rfl, ha, rfl⟩
  · rw [State.release_other s x hd]
    exact ⟨rfl, rfl, rfl, rfl⟩

/-- What is left of a loader and of the chair that was offered it, or was matching, once the loader has returned. -/
structure State.HandoverOver (s u : State) (l : Loader) (x : Chair) : Prop where
  record : u.auth[l] = ⟨s.returnState l, s.auth[l].epoch⟩
  left : s.HasLeft u x
  missed : u.chairs[x].missed = s.chairs[x].missed
  available : u.chairs[x].available = s.chairs[x].available

theorem State.returnLoader_over {s v : State} (h : State.SameFor l s v) (hl : s.HasLeft v x)
    (hm : v.chairs[x].missed = s.chairs[x].missed) (ha : v.chairs[x].available = s.chairs[x].available) :
    s.HandoverOver (v.returnLoader l) l x := by
  obtain ⟨hc, hf, -, -⟩ := v.returnLoader_lists l
  refine ⟨?_, hl.congr hc hf, by rw [hc, hm], by rw [hc, ha]⟩
  rw [State.returnLoader_record, putAt_same, h.returnState, h.auth]

theorem State.HandoverOver.congr {s u v : State} (h : s.HandoverOver u l x) (ha : v.auth = u.auth) (hc : v.chairs = u.chairs)
    (hf : v.freeList = u.freeList) : s.HandoverOver v l x :=
  ⟨by rw [ha, h.record], h.left.congr hc hf, by rw [hc, h.missed], by rw [hc, h.available]⟩

/-- A handover's end as told from a state that is alike, with the same counts of the chair. -/
theorem State.HandoverOver.since {s v u : State} (h : v.HandoverOver u l x) (ha : s.Alike v)
    (hm : v.chairs[x].missed = s.chairs[x].missed) (hav : v.chairs[x].available = s.chairs[x].available) :
    s.HandoverOver u l x where
  record := by rw [h.record, (ha.sameFor l).returnState, ha.auth]
  left := h.left.since ha.timer ha.freeList
  missed := h.missed.trans hm
  available := h.available.trans hav

/-- An offer of the loader ends with its return (R19, R20). -/
theorem State.endOffer_over (hp : s.chairs[x].status ≠ .absent) (hx : x ∉ s.freeList) (n : Word16) (way : OfferEnd) :
    s.HandoverOver (s.endOffer l x n way (·.returnLoader l)) l x
      ∧ (s.endOffer l x n way (·.returnLoader l)).chairs[x].lastEnded = some n := by
  obtain ⟨hc, hf, -, -⟩ := (s.offerGone x n).returnLoader_lists l
  obtain ⟨hlast, hmissed, havail, -⟩ := State.release_counts (s.setChair x { s.chairs[x] with lastEnded := some n }) x x
  rw [State.setChair_chairs, putAt_same] at hlast hmissed havail
  have hleft : s.HasLeft (s.offerGone x n) x :=
    State.release_hasLeft rfl rfl (by rwa [State.setChair_chairs, putAt_same]) hx
  have hover := State.returnLoader_over (.offerGone s l x n) hleft hmissed havail
  rw [State.endOffer_eq]
  generalize hu : (s.offerGone x n).returnLoader l = u at hover hc
  refine ⟨hover.congr rfl rfl rfl, ?_⟩
  change u.chairs[x].lastEnded = some n
  rw [hc]
  exact hlast

theorem State.withRep_endOffer_return (s : State) (r : Report) (l x n way) :
    (s.withRep r).endOffer l x n way (·.returnLoader l) = (s.endOffer l x n way (·.returnLoader l)).withRep
      ((s.returnReport l r).raise s ⟨.offerEnded, some l, some x, way.detail⟩) := by
  have hgone : State.SameFor l s (s.offerGone x n) := .offerGone s l x n
  have hs := hgone.toSameReporting.trans ((s.offerGone x n).returnLoader_same l)
  rw [State.endOffer_eq, State.endOffer_eq, State.withRep_offerGone, State.withRep_returnLoader, hgone.returnReport,
    State.withRep_raise, Report.raise_same hs]
  rfl

/-- A matching of the loader ends with its return (R68, R20). -/
theorem State.endMatching_over (hp : s.chairs[x].status ≠ .absent) (hx : x ∉ s.freeList) :
    s.HandoverOver ((s.endMatching l x).returnLoader l) l x := by
  obtain ⟨-, hmissed, havail, -⟩ := State.release_counts (s.clearMatch l) x x
  exact State.returnLoader_over (.endMatching s l x) (State.release_hasLeft rfl rfl hp hx) hmissed havail

theorem State.endMatching_lists (s : State) (l : Loader) (x : Chair) :
    ((s.endMatching l x).returnLoader l).windows = putAt s.windows l []
      ∧ ((s.endMatching l x).returnLoader l).builders = putAt s.builders l s.builders[l].candEmptied := by
  obtain ⟨-, -, hw, hb⟩ := (s.endMatching l x).returnLoader_lists l
  exact ⟨hw.trans (s.endMatching_windows l x), hb.trans (s.endMatching_builders l x)⟩

theorem State.withRep_endMatching_return (s : State) (r : Report) (l x) :
    ((s.withRep r).endMatching l x).returnLoader l =
      ((s.endMatching l x).returnLoader l).withRep (s.returnReport l r) := by
  rw [State.withRep_endMatching, State.withRep_returnLoader, (State.SameFor.endMatching s l x).returnReport]

/-- After the walk: the loader has returned and the chair has left its place. -/
theorem State.HandoverOver.walked {s u t : State} (h : s.HandoverOver u l x) (hw : u.Walked t) (htab : u.tables = s.tables) :
    s.returned t l = true ∧ s.Rejoined t x ∧ t.chairs[x].missed = s.chairs[x].missed
      ∧ t.chairs[x].lastEnded = u.chairs[x].lastEnded ∧ t.chairs[x].available = s.chairs[x].available := by
  obtain ⟨hlast, hm, hav, -⟩ := hw.chair_counts x
  exact ⟨hw.returned htab h.record, h.left.rejoined hw, hm.trans h.missed, hlast, hav.trans h.available⟩

end

/-! ## DECLINE and CANCEL (R17, R21) -/

section requests
variable {s : State} {h : Header} {tag : Word16} {c x : Chair} {l : Loader}

theorem State.Admits.exec_accept {extra number} (ha : s.Admits (requestFrame h 0x12 tag (bytes16 number ++ extra)) c) :
    exec (.accept h tag number extra) s =
      .next ((s.refreshPresence c).acceptRequest c h.loader tag (bytes16 number ++ extra)).finish :=
  congrArg _ (ha.chairCommand _)

theorem State.Admits.exec_decline {extra number} (ha : s.Admits (requestFrame h 0x13 tag (bytes16 number ++ extra)) c) :
    exec (.decline h tag number extra) s =
      .next ((s.refreshPresence c).declineRequest c h.loader tag (bytes16 number ++ extra)).finish :=
  congrArg _ (ha.chairCommand _)

theorem State.Admits.exec_cancel {extra} (ha : s.Admits (requestFrame h 0x14 tag extra) c) :
    exec (.cancel h tag extra) s = .next ((s.refreshPresence c).cancelRequest c h.loader tag extra).finish :=
  congrArg _ (ha.chairCommand _)

end requests

end Sys2Proof.Machine
end

section
/-! CANCEL and DECLINE (R17, R21): the reports, and the loader's return. -/

namespace Sys2Proof.Machine

open Sys2Proof

/-! ## Answers and notices of a state that is alike -/

theorem State.reloaded_done (s : State) (c : Chair) (tag l e n m) : (s.refreshPresence c).done c tag l e n m =
    (s.refreshPresence c).withRep (s.doneReport c tag (some l) e n m) := by
  rw [State.doneReport, ← Report.notice_same (s.refreshPresence_same c), ← s.refreshPresence_rep c]
  rfl

theorem State.reloaded_doneNone (s : State) (c : Chair) (tag) : (s.refreshPresence c).doneNone c tag =
    (s.refreshPresence c).withRep (s.doneReport c tag none 0) := by
  rw [State.doneReport, ← Report.notice_same (s.refreshPresence_same c), ← s.refreshPresence_rep c]
  rfl

section alike
variable {s v : State} (h : s.Alike v) (r : Report)
include h

theorem State.Alike.withdrawn (l : Loader) (x : Chair) (n why) : (v.withRep r).withdrawn l x n why =
    v.withRep (r.sends s x .withdrawn l s.auth[l].epoch why.code n) := by
  rw [State.withRep_withdrawn, h.same.sends, h.auth]
  rfl

theorem State.Alike.aborted (l : Loader) (x : Chair) (why) : (v.withRep r).aborted l x why =
    v.withRep (r.sends s x .aborted l s.auth[l].epoch why.code) := by
  rw [State.withRep_aborted, h.same.sends, h.auth]
  rfl

theorem State.Alike.endOffer_return (l : Loader) (x : Chair) (n way) : (v.withRep r).endOffer l x n way (·.returnLoader l) =
    (v.endOffer l x n way (·.returnLoader l)).withRep
      ((s.returnReport l r).raise s ⟨.offerEnded, some l, some x, way.detail⟩) := by
  rw [State.withRep_endOffer_return, (h.sameFor l).returnReport, Report.raise_same h.same]

theorem State.Alike.endMatching_return (l : Loader) (x : Chair) : ((v.withRep r).endMatching l x).returnLoader l =
    ((v.endMatching l x).returnLoader l).withRep (s.returnReport l r) := by
  rw [State.withRep_endMatching_return, (h.sameFor l).returnReport]

end alike

/-- A presence reload leaves the missed offers, the availability and the last ended offer of a chair. -/
theorem State.refreshPresence_counts (s : State) (c d : Chair) :
    (s.refreshPresence c).chairs[d].missed = s.chairs[d].missed
      ∧ (s.refreshPresence c).chairs[d].available = s.chairs[d].available
      ∧ (s.refreshPresence c).chairs[d].lastEnded = s.chairs[d].lastEnded
      ∧ (s.refreshPresence c).chairs[d].idleSince = s.chairs[d].idleSince
      ∧ (s.refreshPresence c).chairs[d].engaged = s.chairs[d].engaged := by
  obtain ⟨n, hn⟩ := s.refreshPresence_chair c d
  rw [hn]
  exact ⟨rfl, rfl, rfl, rfl, rfl⟩

/-! ## Places -/

section places
variable {s : State} (hr : s.RecordsAgree) {l : Loader} {x : Chair}
include hr

/-- A party of a loader is present and off the Free Chair List. -/
theorem State.RecordsAgree.placed {p : ChairStatus} (hp : p ∈ s.auth[l].state.placesOf x) :
    s.chairs[x].status = p ∧ s.chairs[x].status ≠ .absent ∧ s.chairs[x].status ≠ .idle ∧ x ∉ s.freeList
      ∧ s.chairs[x].engaged = some l := by
  obtain ⟨heng, hst⟩ := hr.engaged hp
  have hidle : p ≠ .idle ∧ p ≠ .absent := by
    rw [AuthState.placesOf] at hp
    constructor <;> rintro rfl <;> simp at hp
  exact ⟨hst, by rw [hst]; exact hidle.2, by rw [hst]; exact hidle.1, hr.2.1.not_listed (by rw [hst]; exact hidle.1), heng⟩

theorem State.RecordsAgree.offered_placed {ho o n p m} (h : s.auth[l].state = .offered ho x o n p m) :
    s.chairs[x].status = .offered ∧ s.chairs[x].status ≠ .absent ∧ x ∉ s.freeList := by
  obtain ⟨hst, hp, -, hx, -⟩ := hr.placed (AuthState.offered_mem (a := s.auth[l].state) (by rw [h]; rfl))
  exact ⟨hst, hp, hx⟩

theorem State.RecordsAgree.matching_placed {ho o p m} (h : s.auth[l].state = .matching ho x o p m) :
    s.chairs[x].status = .candidate ∧ s.chairs[x].status ≠ .absent ∧ x ∉ s.freeList := by
  obtain ⟨hst, hp, -, hx, -⟩ := hr.placed (AuthState.candidate_mem (a := s.auth[l].state) (by rw [h]; rfl))
  exact ⟨hst, hp, hx⟩

theorem State.RecordsAgree.holder_placed (h : s.auth[l].state.holder = some x) :
    s.chairs[x].status = .holding ∧ s.chairs[x].status ≠ .absent ∧ x ∉ s.freeList := by
  obtain ⟨hst, hp, -, hx, -⟩ := hr.placed (AuthState.holding_mem h)
  exact ⟨hst, hp, hx⟩

end places

/-! ## The ends of a handover on the state of a request -/

section reloaded
variable {s : State} {l : Loader} {x c : Chair}

theorem State.HandoverOver.reloaded {u : State} (h : (s.refreshPresence c).HandoverOver u l x) : s.HandoverOver u l x := by
  obtain ⟨hm, ha, -⟩ := s.refreshPresence_counts c x
  exact h.since (.refreshPresence s c) hm ha

theorem State.reloaded_endOffer (hr : s.RecordsAgree) {ho o n p m} (h : s.auth[l].state = .offered ho x o n p m)
    (way : OfferEnd) (r : Report) :
    s.HandoverOver (((s.refreshPresence c).endOffer l x n way (·.returnLoader l)).withRep r) l x
      ∧ (((s.refreshPresence c).endOffer l x n way (·.returnLoader l)).withRep r).chairs[x].lastEnded = some n := by
  obtain ⟨-, hp, hx⟩ := hr.offered_placed h
  obtain ⟨hover, hlast⟩ := State.endOffer_over (s := s.refreshPresence c) (l := l) (x := x)
    (by rwa [State.refreshPresence_chairStatus]) (by rwa [State.refreshPresence_freeList]) n way
  generalize (s.refreshPresence c).endOffer l x n way (·.returnLoader l) = u at hover hlast
  exact ⟨hover.reloaded.congr rfl rfl rfl, hlast⟩

theorem State.reloaded_endMatching (hr : s.RecordsAgree) {ho o p m} (h : s.auth[l].state = .matching ho x o p m) (r : Report) :
    s.HandoverOver ((((s.refreshPresence c).endMatching l x).returnLoader l).withRep r) l x := by
  obtain ⟨-, hp, hx⟩ := hr.matching_placed h
  have hover := State.endMatching_over (s := s.refreshPresence c) (l := l) (x := x)
    (by rwa [State.refreshPresence_chairStatus]) (by rwa [State.refreshPresence_freeList])
  generalize ((s.refreshPresence c).endMatching l x).returnLoader l = u at hover
  exact hover.reloaded.congr rfl rfl rfl

end reloaded

theorem State.Asks.named {s : State} {f : Frame} {c : Chair} {l : Loader} (h : s.Asks f c l) (m : Loader)
    (hm : indexOfByte 16 f.header.loader = some m) : m = l := by
  obtain ⟨-, -, hl, -⟩ := h
  exact Option.some.inj (hm.symm.trans hl)

/-! ## CANCEL (R21) -/

/-- Who may end a handover. -/
def State.mayCancel (s : State) (c : Chair) (l : Loader) : Prop :=
  s.auth[l].state.offerer = some c ∨ s.tables.chairs[c].supervisor = true ∨ s.auth[l].state.candidate = some c

section cancel
variable {s : State} {h : Header} {tag : Word16} {c x : Chair} {l : Loader} (ha : s.Asks (requestFrame h 0x14 tag []) c l)
include ha

theorem State.Asks.cancel_touched (hr : s.RecordsAgree) :
    s.EventOver ((s.refreshPresence c).cancelRequest c h.loader tag []) l :=
  ha.1.touched ((hr.refreshPresence c).cancelRequest _ _ _ _) (State.Touches.cancelRequest ha.named _ _)

theorem State.Asks.cancel_nothing (hn : s.auth[l].state.offeredChair = none ∧ s.auth[l].state.candidate = none) :
    (s.refreshPresence c).cancelRequest c h.loader tag [] = (s.refreshPresence c).refuse c tag (some l) .wrongState := by
  refine (ha.authorityRequest tag _).trans ?_
  simp only [State.refreshPresence_auth]
  split
  · next heq => exact absurd hn.1 (by rw [heq]; exact nofun)
  · next heq => exact absurd hn.2 (by rw [heq]; exact nofun)
  · rfl

theorem State.Asks.cancel_refused (hn : s.auth[l].state.offerer ≠ some c) (hsup : s.tables.chairs[c].supervisor = false)
    (hc : s.auth[l].state.candidate ≠ some c)
    (hs : ¬ (s.auth[l].state.offeredChair = none ∧ s.auth[l].state.candidate = none)) :
    (s.refreshPresence c).cancelRequest c h.loader tag [] = (s.refreshPresence c).refuse c tag (some l) .notHolder := by
  refine (ha.authorityRequest tag _).trans ?_
  simp only [State.refreshPresence_auth, State.refreshPresence_tables]
  cases heq : s.auth[l].state with
  | offered ho y o n p m =>
    rw [heq] at hn
    have hp : ¬ (p = some c) := hn
    simp only [hsup, hp, decide_false, Bool.or_self, Bool.false_eq_true, if_false]
  | matching ho y o p m =>
    rw [heq] at hn hc
    have hp : ¬ (p = some c) := hn
    have hy : ¬ (y = c) := fun he => hc (congrArg some he)
    simp only [hsup, hp, hy, decide_false, Bool.or_self, Bool.false_eq_true, if_false]
  | _ =>
    rw [heq] at hs
    exact absurd ⟨rfl, rfl⟩ hs

theorem State.Asks.cancel_offered {ho o n p m} (heq : s.auth[l].state = .offered ho x o n p m) (hm : s.mayCancel c l) :
    (s.refreshPresence c).cancelRequest c h.loader tag [] =
      ((s.refreshPresence c).endOffer l x n .cancelled (·.returnLoader l)).withRep
        ((s.returnReport l ((s.doneReport c tag (some l) s.auth[l].epoch).sends s x .withdrawn l s.auth[l].epoch 0x21 n)).raise s
          ⟨.offerEnded, some l, some x, 3⟩) := by
  have hmay : (decide (p = some c) || s.tables.chairs[c].supervisor) = true := by
    rw [State.mayCancel, heq] at hm
    rw [Bool.or_eq_true, decide_eq_true_iff]
    obtain hm | hm | hm := hm
    · exact .inl hm
    · exact .inr hm
    · exact nomatch hm
  refine (ha.authorityRequest tag _).trans ?_
  simp only [State.refreshPresence_auth, State.refreshPresence_tables, heq, hmay, if_true]
  rw [State.reloaded_done, (State.Alike.refreshPresence s c).withdrawn, (State.Alike.refreshPresence s c).endOffer_return]
  rfl

theorem State.Asks.cancel_matching {ho o p m} (heq : s.auth[l].state = .matching ho x o p m) (hm : s.mayCancel c l) :
    (s.refreshPresence c).cancelRequest c h.loader tag [] =
      (((s.refreshPresence c).endMatching l x).returnLoader l).withRep (s.returnReport l
        (if x = c then s.doneReport c tag (some l) s.auth[l].epoch
         else (s.doneReport c tag (some l) s.auth[l].epoch).sends s x .aborted l s.auth[l].epoch 0x21)) := by
  have hmay : (decide (p = some c) || s.tables.chairs[c].supervisor || decide (x = c)) = true := by
    rw [State.mayCancel, heq] at hm
    rw [Bool.or_eq_true, Bool.or_eq_true, decide_eq_true_iff, decide_eq_true_iff]
    obtain hm | hm | hm := hm
    · exact .inl (.inl hm)
    · exact .inl (.inr hm)
    · exact .inr (Option.some.inj hm)
  refine (ha.authorityRequest tag _).trans ?_
  simp only [State.refreshPresence_auth, State.refreshPresence_tables, heq, hmay, if_true]
  rw [State.reloaded_done, (State.Alike.refreshPresence s c).aborted]
  split
  · rw [(State.Alike.refreshPresence s c).endMatching_return]
  · rw [(State.Alike.refreshPresence s c).endMatching_return]
    rfl

end cancel

end Sys2Proof.Machine

namespace Sys2Proof

open Machine

/-- Settles O37: the checks in their order; then the offer or the matching ends with the loader's return. -/
theorem cancelReturnsTheLoader : Obligations.CancelReturnsTheLoader := by
  intro s h tag c l ha hr a refused
  have hexec : exec (.cancel h tag []) s = .next ((s.refreshPresence c).cancelRequest c h.loader tag []).finish := ha.1.exec_cancel
  have hend := ha.cancel_touched hr
  obtain ⟨⟨hquiet, -⟩, -⟩ := ha.1
  rw [hexec]
  split
  · next hn => rw [ha.cancel_nothing hn, hquiet.finish_refused]
  · next hn =>
    split
    · next hd =>
      obtain ⟨hoff, hsup, hc⟩ := hd
      rw [ha.cancel_refused hoff hsup hc hn, hquiet.finish_refused]
    · next hd =>
      have hm : s.mayCancel c l := by
        rw [State.mayCancel]
        by_contra hno
        rw [not_or, not_or] at hno
        exact hd ⟨hno.1, by simpa using hno.2.1, hno.2.2⟩
      have hparty : ¬ (s.auth[l].state.offeredChair = none ∧ s.auth[l].state.candidate = none) := hn
      refine ⟨_, rfl, ?_⟩
      simp only [a]
      cases heq : s.auth[l].state with
      | offered holder x origin n offerer timer =>
        rw [ha.cancel_offered heq hm] at hend ⊢
        obtain ⟨hover, hlast⟩ := State.reloaded_endOffer (c := c) hr heq .cancelled _
        obtain ⟨hret, hrej, -, hl, -⟩ := hover.walked hend.walked hend.tables
        refine ⟨hret, hend.kept, ⟨_, rfl, rfl⟩, ?_, nofun, hend.authority⟩
        rintro y ⟨⟩
        exact ⟨hrej, hl.trans hlast⟩
      | matching holder x origin offerer timer =>
        rw [ha.cancel_matching heq hm] at hend ⊢
        obtain ⟨hret, hrej, -⟩ := (State.reloaded_endMatching (c := c) hr heq _).walked hend.walked hend.tables
        refine ⟨hret, hend.kept, ⟨_, rfl, rfl⟩, nofun, ?_, hend.authority⟩
        rintro y ⟨⟩
        obtain ⟨hwin, hbld⟩ := (s.refreshPresence c).endMatching_lists l x
        refine ⟨hrej, ?_, ?_⟩
        · rw [hend.walked.windows, State.withRep_windows, hwin, State.refreshPresence_windows]
        · rw [State.finish_builders, State.withRep_builders, hbld, State.refreshPresence_builders]
          rfl
      | _ =>
        rw [heq] at hparty
        exact absurd ⟨rfl, rfl⟩ hparty

end Sys2Proof
end

section
/-! ACCEPT and DECLINE (R16, R17). -/

namespace Sys2Proof.Machine

open Sys2Proof

/-! ## An event that leaves who drives, and calls for no walk -/

/-- The beacons depend on which loaders are driven, not on the rest of their records (R135). -/
theorem State.beaconOn_driven {s t : State} (ha : ∀ k : Loader, t.auth[k].state.driven = s.auth[k].state.driven)
    (hs : t.status = s.status) (ht : t.tables = s.tables) : t.beaconOn = s.beaconOn := by
  funext n
  simp only [State.beaconOn, ha, hs, ht]

theorem State.BeaconsShow.finish_driven {s t : State} (h : s.BeaconsShow) (hw : t.walkCalled = s.walkCalled)
    (hb : t.beacons = s.beacons) (ha : ∀ k : Loader, t.auth[k].state.driven = s.auth[k].state.driven)
    (hs : t.status = s.status) (ht : t.tables = s.tables) : t.finish = t := by
  rw [State.finish_idle (hw.trans h.1), State.setBeacons, State.beaconOn_driven ha hs ht, ← h.2, ← hb]

theorem driven_putAt {s : State} {l : Loader} {r : AuthRecord} (h : r.state.driven = s.auth[l].state.driven) (k : Loader) :
    (putAt s.auth l r)[k].state.driven = s.auth[k].state.driven := by
  rw [putAt_get]
  split
  · next hk =>
    subst hk
    exact h
  · rfl

/-! ## The answer to an offer -/

section answers
variable {s : State} {h : Header} {tag number : Word16} {c x : Chair} {l : Loader}

theorem offerNumberArg_bytes16 (n : Word16) : offerNumberArg (bytes16 n) = some n := by
  simp [bytes16, offerNumberArg, word16_own_bytes]

theorem State.reloaded_answerMissed (s : State) (c : Chair) (tag : Word16) (l : Loader) (number : Word16) :
    (s.refreshPresence c).answerMissed c tag l number = (s.refreshPresence c).refuse c tag (some l)
      (if s.chairs[c].lastEnded = some number then .late else .notOffered) := by
  obtain ⟨-, -, hlast, -⟩ := s.refreshPresence_counts c c
  rw [State.answerMissed, hlast]

theorem State.Asks.accept_missed (ha : s.Asks (requestFrame h 0x12 tag (bytes16 number)) c l)
    (hno : ∀ holder x origin n offerer timer, s.auth[l].state = .offered holder x origin n offerer timer →
      ¬(x = c ∧ n = number)) :
    (s.refreshPresence c).acceptRequest c h.loader tag (bytes16 number) = (s.refreshPresence c).answerMissed c tag l number := by
  simp only [State.acceptRequest, offerNumberArg_bytes16, Option.isSome_some, Option.getD_some]
  refine (ha.authorityRequest tag _).trans ?_
  simp only [State.refreshPresence_auth]
  split
  · next heq => rw [if_neg (hno _ _ _ _ _ _ heq)]
  · rfl

theorem State.Asks.accept_offered (ha : s.Asks (requestFrame h 0x12 tag (bytes16 number)) c l) {holder origin offerer timer}
    (heq : s.auth[l].state = .offered holder c origin number offerer timer) :
    (s.refreshPresence c).acceptRequest c h.loader tag (bytes16 number) = { s with
      auth := putAt s.auth l ⟨.matching holder c origin offerer s.tables.device.matchTimeout, s.auth[l].epoch⟩
      chairs := putAt s.chairs c { s.chairs[c] with
        status := .candidate, engaged := some l, presence := s.tables.device.presenceTimeout
        lastEnded := some number, missed := 0 }
      freeList := s.freeList.filter (· ≠ c)
      windows := putAt s.windows l []
      builders := putAt s.builders l { s.builders[l] with cand := none, lastCand := none }
      rep := s.doneReport c tag (some l) (s.auth[l].epoch + 1) number s.tables.device.matchTimeout } := by
  have hp : s.chairs[c].status ≠ .absent := ha.2.1
  have hv : s.refreshPresence c =
      { s with chairs := putAt s.chairs c { s.chairs[c] with presence := s.tables.device.presenceTimeout } } := if_neg hp
  have hdone := s.reloaded_done c tag l (s.auth[l].epoch + 1) number s.tables.device.matchTimeout
  simp only [State.acceptRequest, offerNumberArg_bytes16, Option.isSome_some, Option.getD_some]
  refine (ha.authorityRequest tag _).trans ?_
  simp only [State.refreshPresence_auth, State.refreshPresence_tables, heq, and_self, if_true, hdone]
  simp only [hv, State.beginMatching, State.engage, State.clearMatch, State.setChair, State.setAuth, State.setWindow, State.setBuilder,
    State.leaveList, State.withRep, putAt_same, putAt_putAt]
  rfl

theorem State.Asks.decline_missed (ha : s.Asks (requestFrame h 0x13 tag (bytes16 number)) c l)
    (hno : ¬(s.auth[l].state.offeredChair = some c ∧ s.auth[l].state.number = some number)) :
    (s.refreshPresence c).declineRequest c h.loader tag (bytes16 number) = (s.refreshPresence c).answerMissed c tag l number := by
  simp only [State.declineRequest, offerNumberArg_bytes16, Option.isSome_some, Option.getD_some]
  refine (ha.authorityRequest tag _).trans ?_
  simp only [State.refreshPresence_auth]
  split
  · next heq =>
    rw [heq] at hno
    rw [if_neg fun he => hno ⟨congrArg some he.1, congrArg some he.2⟩]
  · rfl

theorem State.Asks.decline_offered (ha : s.Asks (requestFrame h 0x13 tag (bytes16 number)) c l) {holder origin offerer timer}
    (heq : s.auth[l].state = .offered holder c origin number offerer timer) :
    (s.refreshPresence c).declineRequest c h.loader tag (bytes16 number) =
      ((s.refreshPresence c).endOffer l c number .declined (·.returnLoader l)).withRep
        ((s.returnReport l (s.doneReport c tag (some l) s.auth[l].epoch number)).raise s
          ⟨.offerEnded, some l, some c, 1⟩) := by
  simp only [State.declineRequest, offerNumberArg_bytes16, Option.isSome_some, Option.getD_some]
  refine (ha.authorityRequest tag _).trans ?_
  simp only [State.refreshPresence_auth, heq, and_self, if_true]
  rw [State.reloaded_done, (State.Alike.refreshPresence s c).endOffer_return]
  rfl

theorem State.Asks.decline_touched (ha : s.Asks (requestFrame h 0x13 tag (bytes16 number)) c l) (hr : s.RecordsAgree) :
    s.EventOver ((s.refreshPresence c).declineRequest c h.loader tag (bytes16 number)) l :=
  ha.1.touched ((hr.refreshPresence c).declineRequest _ _ _ _) (State.Touches.declineRequest ha.named _ _)

end answers

theorem AuthState.offered_of_number {a : AuthState} {c : Chair} {n : Word16} (hc : a.offeredChair = some c)
    (hn : a.number = some n) : ∃ holder origin offerer timer, a = .offered holder c origin n offerer timer := by
  cases a with
  | offered holder x origin m offerer timer =>
    obtain rfl : x = c := Option.some.inj hc
    obtain rfl : m = n := Option.some.inj hn
    exact ⟨_, _, _, _, rfl⟩
  | _ => exact nomatch hc

end Sys2Proof.Machine

namespace Sys2Proof

open Machine

/-- Settles O36: an answer that finds its offer turns it into a matching, or ends it with the loader's return; any other is missed. -/
theorem offersAreAnswered : Obligations.OffersAreAnswered := by
  intro s h tag number c l missed
  refine ⟨fun ha => ?accept, fun ha hr => ?decline⟩
  case accept =>
    have hexec : exec (.accept h tag number []) s =
        .next ((s.refreshPresence c).acceptRequest c h.loader tag (bytes16 number)).finish := ha.1.exec_accept (extra := [])
    obtain ⟨⟨hquiet, -⟩, -⟩ := ha.1
    have hmissed (hno : ∀ holder x origin n offerer timer, s.auth[l].state = .offered holder x origin n offerer timer →
        ¬(x = c ∧ n = number)) : exec (.accept h tag number []) s = .next missed := by
      rw [hexec, ha.accept_missed hno, State.reloaded_answerMissed, hquiet.finish_refused]
    cases heq : s.auth[l].state with
    | offered holder x origin n offerer timer =>
      dsimp only
      split
      · next hx =>
        obtain ⟨rfl, rfl⟩ := hx
        rw [hexec, ha.accept_offered heq]
        have hb : s.BeaconsShow := hquiet.2.2
        refine congrArg Host.Outcome.next (hb.finish_driven rfl rfl (driven_putAt ?_) rfl rfl)
        rw [heq]
        rfl
      · next hx =>
        refine hmissed fun holder' x' origin' n' offerer' timer' he hxn => ?_
        rw [heq] at he
        cases he
        exact hx hxn
    | _ => exact hmissed fun _ _ _ _ _ _ he => nomatch heq.symm.trans he
  case decline =>
    have hexec : exec (.decline h tag number []) s =
        .next ((s.refreshPresence c).declineRequest c h.loader tag (bytes16 number)).finish := ha.1.exec_decline (extra := [])
    have hend := ha.decline_touched hr
    obtain ⟨⟨hquiet, -⟩, -⟩ := ha.1
    rw [hexec]
    split
    · next hoff =>
      obtain ⟨holder, origin, offerer, timer, heq⟩ := AuthState.offered_of_number hoff.1 hoff.2
      rw [ha.decline_offered heq] at hend ⊢
      obtain ⟨hover, hlast⟩ := State.reloaded_endOffer (c := c) hr heq .declined _
      obtain ⟨hret, hrej, hmiss, hl, -⟩ := hover.walked hend.walked hend.tables
      exact ⟨_, rfl, hret, hend.kept, hrej, hl.trans hlast, hmiss, ⟨_, rfl, rfl⟩, hend.authority⟩
    · next hoff => rw [ha.decline_missed hoff, State.reloaded_answerMissed, hquiet.finish_refused]

end Sys2Proof
end

section
/-! RELEASE and STOP (R25, R28, R29): a holder that leaves its loader, and loaders that stand. -/

namespace Sys2Proof.Machine

open Sys2Proof

/-! ## What a stand writes (R8) -/

section stand
variable {s : State} {l : Loader} {x : Chair}

/-- The notice and the event of a stand are reports alone. -/
theorem State.reportStand_eq (s : State) (l : Loader) (h cause) : ∃ r, s.reportStand l h cause = s.withRep r := by
  have hn : ∃ r, s.noticeIfPresent h (standNotice l cause s.auth[l].epoch) = s.withRep r := by
    unfold State.noticeIfPresent
    cases h with
    | none => exact ⟨s.rep, rfl⟩
    | some h =>
      dsimp only
      split
      · exact ⟨s.rep, rfl⟩
      · exact ⟨_, rfl⟩
  obtain ⟨r, hr⟩ := hn
  simp only [State.reportStand, hr]
  cases cause.event with
  | none => exact ⟨_, rfl⟩
  | some name => exact ⟨_, rfl⟩

/-- A held loader that stands for a cause that keeps no holder: the epoch advances and the holder leaves its place. -/
theorem State.standEntry_held {h : Chair} (hh : s.auth[l].state = .held h) {cause : Cause} (hk : cause.retains = false) :
    ∃ r, s.standEntry l cause = (((s.advanceEpoch l).release h).setAuth l (.standing none cause)).withRep r := by
  have hholder : s.standHolder l cause = (s.advanceEpoch l).release h := by
    simp only [State.standHolder, hh, AuthState.holder, hk, Bool.false_eq_true, if_false]
  have hstate : ((s.advanceEpoch l).release h).auth[l].state = .held h := by
    simp only [State.release_auth, State.advanceEpoch_state, hh]
  have hparties : ((s.advanceEpoch l).release h).standParties l = (s.advanceEpoch l).release h := by
    simp only [State.standParties, hstate]
  simp only [State.standEntry, hholder, hparties, hk, Bool.false_eq_true, if_false]
  exact State.reportStand_eq _ _ _ _

end stand

/-! ## RELEASE (R25) -/

/-- The loader's holder leaves it, with the epoch advanced and the record as given. -/
def State.letGo (s : State) (l : Loader) (c : Chair) (a : AuthState) : State := ((s.advanceEpoch l).release c).setAuth l a

section letGo
variable {s : State} {l : Loader} {c : Chair} {a : AuthState}

theorem State.setAuth_release (s : State) (l : Loader) (a : AuthState) (c : Chair) :
    (s.setAuth l a).release c = (s.release c).setAuth l a := by
  by_cases hp : s.chairs[c].status = .absent
  · rw [State.release_absent hp]
    exact State.release_absent (s := s.setAuth l a) hp
  · cases hav : s.chairs[c].available
    · rw [State.release_unavailable hp hav]
      exact State.release_unavailable (s := s.setAuth l a) hp hav
    · rw [State.release_available hp hav]
      exact State.release_available (s := s.setAuth l a) hp hav

theorem State.letGo_record : (s.letGo l c a).auth[l] = ⟨a, s.auth[l].epoch + 1⟩ := by
  simp only [State.letGo, State.setAuth_auth, State.release_auth, State.advanceEpoch_auth, putAt_same]

theorem State.letGo_builders : (s.letGo l c a).builders = putAt s.builders l s.builders[l].emptied := by
  simp only [State.letGo, State.setAuth_builders, State.release_builders, State.advanceEpoch_builders]

theorem State.letGo_hasLeft (hp : s.chairs[c].status ≠ .absent) (hx : c ∉ s.freeList) : s.HasLeft (s.letGo l c a) c :=
  (State.release_hasLeft (s := s) (v := s.advanceEpoch l) rfl rfl hp hx).congr rfl rfl

end letGo

/-- What a RELEASE makes of the record. -/
def State.releasedState (s : State) (auto : Bool) : AuthState :=
  if auto then .releasing s.tables.device.releaseTimeout else .standing none .operator

/-- What a RELEASE reports. -/
def State.releaseReport (s : State) (c : Chair) (tag : Word16) (l : Loader) (auto : Bool) : Report :=
  if auto then (s.doneReport c tag (some l) (s.auth[l].epoch + 1) 0 s.tables.device.releaseTimeout).raise s
    ⟨.released, some l, some c, 0⟩
  else s.standReport l .operator (s.doneReport c tag (some l) (s.auth[l].epoch + 1))

section release
variable {s : State} {h : Header} {tag : Word16} {c : Chair} {l : Loader}

theorem State.Admits.exec_releaseAuto {extra} (ha : s.Admits (requestFrame h 0x15 tag (0x01 :: extra)) c) :
    exec (.releaseAuto h tag extra) s = .next ((s.refreshPresence c).releaseRequest c h.loader tag (0x01 :: extra)).finish :=
  congrArg _ (ha.chairCommand _)

theorem State.Admits.exec_releaseStand {extra} (ha : s.Admits (requestFrame h 0x15 tag (0x02 :: extra)) c) :
    exec (.releaseStand h tag extra) s = .next ((s.refreshPresence c).releaseRequest c h.loader tag (0x02 :: extra)).finish :=
  congrArg _ (ha.chairCommand _)

/-- The mode byte of a RELEASE. -/
def releaseByte (auto : Bool) : Byte := if auto then 0x01 else 0x02

theorem releaseByte_mode (auto : Bool) :
    ReleaseMode.ofArgs [releaseByte auto] = some (if auto then ReleaseMode.auto else ReleaseMode.stand) := by
  cases auto <;> decide

variable {auto : Bool} (ha : s.Asks (requestFrame h 0x15 tag [releaseByte auto]) c l)
include ha

theorem State.Asks.release_touched (hr : s.RecordsAgree) :
    s.EventOver ((s.refreshPresence c).releaseRequest c h.loader tag [releaseByte auto]) l :=
  ha.1.touched ((hr.refreshPresence c).releaseRequest _ _ _ _) (State.Touches.releaseRequest ha.named _ _)

theorem State.Asks.release_refused (hn : s.auth[l].state ≠ .held c) :
    (s.refreshPresence c).releaseRequest c h.loader tag [releaseByte auto] = (s.refreshPresence c).refuse c tag (some l)
      (if s.auth[l].state.holder ≠ some c then .notHolder else if s.auth[l].state.isStanding then .wrongState else .busy) := by
  simp only [State.releaseRequest, releaseByte_mode, Option.isSome_some]
  refine (ha.authorityRequest tag _).trans ?_
  simp only [State.refreshPresence_auth]
  by_cases hh : s.auth[l].state.holder = some c
  · have hne : ¬ (s.auth[l].state.holder ≠ some c) := not_not_intro hh
    rw [if_neg hne, if_neg hne]
    cases heq : s.auth[l].state with
    | held y =>
      rw [heq] at hh hn
      exact absurd (congrArg AuthState.held (Option.some.inj hh)) hn
    | _ => rfl
  · rw [if_pos hh, if_pos hh]

theorem State.Asks.release_auto (hh : s.auth[l].state = .held c) (hauto : auto = true) :
    (s.refreshPresence c).releaseRequest c h.loader tag [releaseByte auto] =
      ((s.refreshPresence c).letGo l c (.releasing s.tables.device.releaseTimeout)).withRep
        ((s.doneReport c tag (some l) (s.auth[l].epoch + 1) 0 s.tables.device.releaseTimeout).raise s
          ⟨.released, some l, some c, 0⟩) := by
  have hholder : ¬ (AuthState.held c).holder ≠ some c := not_not_intro rfl
  simp only [State.releaseRequest, releaseByte_mode, Option.isSome_some]
  refine (ha.authorityRequest tag _).trans ?_
  simp only [State.refreshPresence_auth, hh, hholder, if_false, hauto, if_true, State.releaseToAuto, State.refreshPresence_tables]
  have hs : s.SameReporting ((((s.refreshPresence c).advanceEpoch l).setAuth l
      (.releasing s.tables.device.releaseTimeout)).release c) :=
    (s.refreshPresence_same c).trans ((State.sameReporting_of_records (s := s.refreshPresence c)
      (t := ((s.refreshPresence c).advanceEpoch l).setAuth l (.releasing s.tables.device.releaseTimeout)) rfl rfl rfl).trans
        (State.release_same _ c))
  rw [State.reloaded_done, State.withRep_advanceEpoch, State.withRep_setAuth, State.withRep_release, State.withRep_raise,
    Report.raise_same hs, State.setAuth_release]
  rfl

theorem State.Asks.release_stand (hh : s.auth[l].state = .held c) (hstand : auto = false) :
    (s.refreshPresence c).releaseRequest c h.loader tag [releaseByte auto] =
      ((s.refreshPresence c).letGo l c (.standing none .operator)).withRep
        (s.standReport l .operator (s.doneReport c tag (some l) (s.auth[l].epoch + 1))) := by
  have hholder : ¬ (AuthState.held c).holder ≠ some c := not_not_intro rfl
  have hv : (s.refreshPresence c).auth[l].state = .held c := by rw [State.refreshPresence_auth, hh]
  obtain ⟨r, hr⟩ := State.standEntry_held hv (cause := .operator) rfl
  have hrep := (State.Alike.refreshPresence s c).sameFor l
  simp only [State.releaseRequest, releaseByte_mode, Option.isSome_some]
  refine (ha.authorityRequest tag _).trans ?_
  simp only [State.refreshPresence_auth, hh, hholder, if_false, hstand, Bool.false_eq_true]
  rw [State.reloaded_done, State.withRep_standEntry, hr, ← State.standReport_entry (by rw [hv]; rfl), hrep.standReport]
  rfl

theorem State.Asks.release_held (hh : s.auth[l].state = .held c) :
    (s.refreshPresence c).releaseRequest c h.loader tag [releaseByte auto] =
      ((s.refreshPresence c).letGo l c (s.releasedState auto)).withRep (s.releaseReport c tag l auto) := by
  cases hauto : auto with
  | true =>
    rw [← hauto, ha.release_auto hh hauto, hauto]
    rfl
  | false =>
    rw [← hauto, ha.release_stand hh hauto, hauto]
    rfl

end release

end Sys2Proof.Machine

namespace Sys2Proof

open Machine

/-- Settles O38: the holder of a HELD loader leaves its place, and the loader is RELEASING or stands. -/
theorem releaseLetsTheLoaderGo : Obligations.ReleaseLetsTheLoaderGo := by
  intro s h tag auto c l ha hr i a
  have hexec : exec i s =
      .next ((s.refreshPresence c).releaseRequest c h.loader tag [releaseByte auto]).finish := by
    cases auto with
    | true => exact ha.1.exec_releaseAuto (extra := [])
    | false => exact ha.1.exec_releaseStand (extra := [])
  have ha : s.Asks (requestFrame h 0x15 tag [releaseByte auto]) c l := ha
  have hend := ha.release_touched hr
  have hquiet : s.Quiet := ha.1.1.1
  rw [hexec]
  split
  · next hh =>
    have hh : s.auth[l].state = .held c := hh
    obtain ⟨-, hp, hlist⟩ := hr.holder_placed (x := c) (l := l) (by rw [hh]; rfl)
    have hp' : (s.refreshPresence c).chairs[c].status ≠ .absent := by rwa [State.refreshPresence_chairStatus]
    have hlist' : c ∉ (s.refreshPresence c).freeList := by rwa [State.refreshPresence_freeList]
    rw [ha.release_held hh] at hend ⊢
    have hleft := (State.letGo_hasLeft (l := l) (a := s.releasedState auto) hp' hlist').since (s.refreshPresence_timer c)
      (s.refreshPresence_freeList c)
    refine ⟨_, rfl, ?_, ?_, (hleft.withRep _).rejoined hend.walked, ⟨_, rfl, rfl⟩, hend.kept, hend.authority⟩
    · refine hend.walked.record ?_ ?_
      · rw [State.withRep_auth, State.letGo_record, State.refreshPresence_auth]
        rfl
      · cases auto <;> rfl
    · rw [State.finish_builders, State.withRep_builders, State.letGo_builders, State.refreshPresence_builders]
  · next hh => rw [ha.release_refused hh, hquiet.finish_refused]

end Sys2Proof
end

section
/-! STOP (R28, R29): a stand cause that reaches one loader, or several in turn. -/

namespace Sys2Proof.Machine

open Sys2Proof

/-! ## The record a stand cause gives (R8, R9) -/

/-- The record of a loader that a stand cause has reached. -/
def State.stoodRecord (s : State) (l : Loader) (cause : Cause) : AuthRecord :=
  match s.auth[l].state with
  | .standing retained recorded => ⟨.standing retained (if recorded.givesWay cause then cause else recorded), s.auth[l].epoch⟩
  | a => ⟨.standing (if cause.keeps then a.holder else none) cause,
      if a.holder.isSome && !cause.keeps then s.auth[l].epoch + 1 else s.auth[l].epoch⟩

section stand
variable {s t u : State} {l k : Loader} {cause : Cause}

theorem State.stood_eq (s t : State) (l : Loader) (cause : Cause) :
    s.stood t l cause = decide (t.auth[l] = s.stoodRecord l cause) := by
  unfold State.stood State.stoodRecord
  cases s.auth[l].state <;> rfl

theorem State.stoodRecord_standing (s : State) (l : Loader) (cause : Cause) :
    (s.stoodRecord l cause).state.isStanding = true := by
  unfold State.stoodRecord
  cases s.auth[l].state <;> rfl

theorem State.stoodRecord_entry (h : s.auth[l].state.isStanding = false) : s.stoodRecord l cause =
    ⟨.standing (if cause.keeps then s.auth[l].state.holder else none) cause, s.standEpoch l cause⟩ := by
  unfold State.stoodRecord State.standEpoch
  cases ha : s.auth[l].state with
  | standing => rw [ha] at h; exact nomatch h
  | _ => rfl

theorem State.standEntry_record (s : State) (l : Loader) (cause : Cause) : (s.standEntry l cause).auth = putAt s.auth l
    ⟨.standing (if cause.keeps then s.auth[l].state.holder else none) cause, s.standEpoch l cause⟩ := by
  rw [State.standEntry_auth, State.standEpoch, Cause.keeps_eq]
  cases s.auth[l].state.holder.isSome <;> cases cause.retains <;> simp [-Fin.getElem_fin]

theorem Cause.replaces_same (recorded cause : Cause) :
    (if cause.replaces recorded then cause else recorded) = if recorded.givesWay cause then cause else recorded := by
  rw [Cause.replaces_eq]
  by_cases h : cause = recorded
  · subst h
    simp
  · simp [h]

/-- A stand cause writes the record of the loader it reaches. -/
theorem State.stand_record (s : State) (l : Loader) (cause : Cause) :
    (s.stand l cause).auth = putAt s.auth l (s.stoodRecord l cause) := by
  cases ha : s.auth[l].state with
  | standing retained recorded =>
    have hstand : s.stand l cause = if cause.replaces recorded then (s.setAuth l (.standing retained cause)).reportStand l retained cause
        else s := by simp only [State.stand, ha]
    have hrec : s.stoodRecord l cause =
        ⟨.standing retained (if cause.replaces recorded then cause else recorded), s.auth[l].epoch⟩ := by
      rw [Cause.replaces_same, State.stoodRecord, ha]
    rw [hstand, hrec]
    cases cause.replaces recorded with
    | true => exact State.reportStand_auth _ _ _ _
    | false =>
      have hsame : (⟨.standing retained recorded, s.auth[l].epoch⟩ : AuthRecord) = s.auth[l] := by rw [← ha]
      simp only [Bool.false_eq_true, if_false]
      rw [hsame, putAt_self]
  | _ =>
    have hns : s.auth[l].state.isStanding = false := by rw [ha]; rfl
    have hstand : s.stand l cause = s.standEntry l cause := by simp only [State.stand, ha]
    rw [hstand, State.standEntry_record, State.stoodRecord_entry hns]

theorem State.reportStand_same (s : State) (l : Loader) (h cause) : s.SameReporting (s.reportStand l h cause) := by
  obtain ⟨r, hr⟩ := s.reportStand_eq l h cause
  rw [hr]
  exact s.withRep_same r

theorem State.standEntry_same (s : State) (l : Loader) (cause : Cause) : s.SameReporting (s.standEntry l cause) := by
  let a : AuthState := .standing (if cause.retains then s.auth[l].state.holder else none) cause
  have hset : ((s.standHolder l cause).standParties l).SameReporting (((s.standHolder l cause).standParties l).setAuth l a) :=
    State.sameReporting_of_records rfl rfl rfl
  exact ((s.standHolder_same l cause).trans (State.standParties_same _ l)).trans (hset.trans (State.reportStand_same _ _ _ _))

theorem State.stand_same (s : State) (l : Loader) (cause : Cause) : s.SameReporting (s.stand l cause) := by
  unfold State.stand
  split
  · next retained recorded _ =>
    split
    · exact (State.sameReporting_of_records (s := s) (t := s.setAuth l (.standing retained cause)) rfl rfl rfl).trans
        (State.reportStand_same _ _ _ _)
    · exact ⟨rfl, rfl, fun _ => Iff.rfl⟩
  · exact s.standEntry_same l cause

/-- A stand of one loader leaves what another's reads. -/
theorem State.SameFor.stand (h : k ≠ l) (s : State) (cause : Cause) : State.SameFor k s (s.stand l cause) :=
  ⟨s.stand_same l cause, s.stand_auth_other cause h, congrArg Rest.status (s.stand_rest l cause)⟩

theorem State.SameFor.stoodRecord (h : State.SameFor l s t) : t.stoodRecord l cause = s.stoodRecord l cause := by
  unfold State.stoodRecord
  rw [h.auth]

/-! ## Several loaders (R29, R128) -/

/-- The cause reaches the loaders in turn. -/
def State.stands (s : State) (xs : List Loader) (cause : Cause) : State := xs.foldl (fun s l => s.stand l cause) s

/-- What the loaders report in turn. -/
def State.standsReport (s : State) (xs : List Loader) (cause : Cause) (r : Report) : Report :=
  xs.foldl (fun r l => s.standReport l cause r) r

theorem State.SameFor.stands (s : State) {k : Loader} {xs : List Loader} (h : k ∉ xs) (cause : Cause) :
    State.SameFor k s (s.stands xs cause) := by
  induction xs generalizing s with
  | nil => exact ⟨⟨rfl, rfl, fun _ => Iff.rfl⟩, rfl, rfl⟩
  | cons l xs ih =>
    rw [List.mem_cons, not_or] at h
    exact (State.SameFor.stand h.1 s cause).trans (ih (s.stand l cause) h.2)

theorem State.stands_record (s : State) {xs : List Loader} (hn : xs.Nodup) (cause : Cause) {k : Loader} (hk : k ∈ xs) :
    (s.stands xs cause).auth[k] = s.stoodRecord k cause := by
  induction xs generalizing s with
  | nil => exact nomatch hk
  | cons l xs ih =>
    rw [List.nodup_cons] at hn
    change ((s.stand l cause).stands xs cause).auth[k] = _
    by_cases hkl : k = l
    · subst hkl
      rw [(State.SameFor.stands (s.stand k cause) hn.1 cause).auth, State.stand_record, putAt_same]
    · rw [ih (s.stand l cause) hn.2 ((List.mem_cons.mp hk).resolve_left hkl), (State.SameFor.stand hkl s cause).stoodRecord]

theorem State.standsReport_congr {s t : State} {xs : List Loader} (h : ∀ k ∈ xs, State.SameFor k s t) (cause : Cause) (r : Report) :
    t.standsReport xs cause r = s.standsReport xs cause r := by
  induction xs generalizing r with
  | nil => rfl
  | cons l xs ih =>
    have hl := (h l List.mem_cons_self).standReport cause r
    change t.standsReport xs cause (t.standReport l cause r) = s.standsReport xs cause (s.standReport l cause r)
    rw [hl, ih fun k hk => h k (List.mem_cons_of_mem _ hk)]

theorem State.withRep_stands (s : State) (r : Report) {xs : List Loader} (hn : xs.Nodup) (cause : Cause) :
    (s.withRep r).stands xs cause = (s.stands xs cause).withRep (s.standsReport xs cause r) := by
  induction xs generalizing s r with
  | nil => rfl
  | cons l xs ih =>
    rw [List.nodup_cons] at hn
    change ((s.withRep r).stand l cause).stands xs cause = ((s.stand l cause).stands xs cause).withRep
      (s.standsReport xs cause (s.standReport l cause r))
    rw [State.withRep_stand, ih _ _ hn.2]
    refine congrArg _ (State.standsReport_congr (fun k hk => State.SameFor.stand ?_ s cause) _ _)
    rintro rfl
    exact hn.1 hk

theorem State.stands_rest (s : State) (xs : List Loader) (cause : Cause) : (s.stands xs cause).rest = s.rest :=
  foldl_keeps _ State.rest (fun s l => s.stand_rest l cause) _ _

theorem State.Walked.stood (h : u.Walked t) (ha : u.auth[l] = s.stoodRecord l cause) : s.stood t l cause = true := by
  rw [State.stood_eq]
  refine decide_eq_true (h.record ha ?_)
  have hs := s.stoodRecord_standing l cause
  cases hx : (s.stoodRecord l cause).state with
  | calling => rw [hx] at hs; exact nomatch hs
  | _ => rfl

end stand

/-! ## STOP -/

section stop
variable {s : State} {h : Header} {tag : Word16} {zone : Byte} {c : Chair} {l : Loader}

theorem State.Admits.exec_stopLoader {extra} (ha : s.Admits (requestFrame h 0x17 tag (0x01 :: zone :: extra)) c) :
    exec (.stopLoader h tag zone extra) s =
      .next ((s.refreshPresence c).stopRequest c h.loader tag (0x01 :: zone :: extra)).finish :=
  congrArg _ (ha.chairCommand _)

theorem State.Admits.exec_stopZone {extra} (ha : s.Admits (requestFrame h 0x17 tag (0x02 :: zone :: extra)) c) :
    exec (.stopZone h tag zone extra) s =
      .next ((s.refreshPresence c).stopRequest c h.loader tag (0x02 :: zone :: extra)).finish :=
  congrArg _ (ha.chairCommand _)

theorem State.stopRequest_ofLoader (s : State) (c : Chair) (b : Byte) (tag zone) :
    s.stopRequest c b tag [0x01, zone] = s.stopLoaderRequest c b tag true :=
  State.stopRequest_loader (args := [0x01, zone]) (by simp)

theorem State.stopRequest_ofZone (s : State) (c : Chair) (b : Byte) (tag zone) :
    s.stopRequest c b tag [0x02, zone] = s.stopZoneRequest c tag zone true := by
  simp only [State.stopRequest, if_true]
  rfl

theorem State.Asks.stopRequest_eq (ha : s.Asks (requestFrame h 0x17 tag [0x01, zone]) c l) :
    (s.refreshPresence c).stopRequest c h.loader tag [0x01, zone] =
      ((s.refreshPresence c).stand l .stop).withRep (s.standReport l .stop (s.doneReport c tag (some l) s.auth[l].epoch)) := by
  refine ((State.stopRequest_ofLoader _ c h.loader tag zone).trans (ha.authorityRequest tag _)).trans ?_
  rw [State.reloaded_done, State.withRep_stand, ((State.Alike.refreshPresence s c).sameFor l).standReport,
    State.refreshPresence_auth]

/-- The loaders that a STOP of a zone names. -/
def State.zoneLoaders (s : State) (c : Chair) (z : Zone) : List Loader := allLoaders.filter (s.stopZoneNames c z)

theorem State.zoneLoaders_nodup (s : State) (c : Chair) (z : Zone) : (s.zoneLoaders c z).Nodup := allLoaders_nodup.filter _

theorem State.stopZone_eq (hp : s.chairs[c].status ≠ .absent) {z : Zone} (hz : indexOfByte 8 zone = some z) (b : Byte) :
    (s.refreshPresence c).stopRequest c b tag [0x02, zone] =
      ((s.refreshPresence c).stands (s.zoneLoaders c z) .stop).withRep
        (s.standsReport (s.zoneLoaders c z) .stop (s.doneReport c tag none 0)) := by
  have hp' : (s.refreshPresence c).chairs[c].status ≠ .absent := by rwa [State.refreshPresence_chairStatus]
  have hnames : (s.refreshPresence c).stopZoneNames c z = s.stopZoneNames c z := by
    funext k
    simp only [State.stopZoneNames, State.enabled, State.permits, State.refreshPresence_tables, State.refreshPresence_status]
  have hzone : (s.refreshPresence c).stopZoneRequest c tag zone true =
      ((s.refreshPresence c).doneNone c tag).stands (s.zoneLoaders c z) .stop := by
    rw [State.stopZoneRequest, if_neg hp', hz]
    simp only [Bool.not_true, Bool.false_eq_true, if_false, hnames]
    rfl
  rw [State.stopRequest_ofZone, hzone, State.reloaded_doneNone, State.withRep_stands _ _ (s.zoneLoaders_nodup c z)]
  refine congrArg _ (State.standsReport_congr (fun k _ => (State.Alike.refreshPresence s c).sameFor k) _ _)

end stop

end Sys2Proof.Machine

namespace Sys2Proof

open Machine

/-- Settles O40: the cause reaches the loaders named, one after the other, and none reads what another's stand writes. -/
theorem stopStandsLoaders : Obligations.StopStandsLoaders := by
  intro s h tag zone c l z hr
  refine ⟨fun ha => ?loader, fun ha hp hz => ?zone⟩
  case loader =>
    have hexec : exec (.stopLoader h tag zone []) s =
        .next ((s.refreshPresence c).stopRequest c h.loader tag [0x01, zone]).finish := ha.1.exec_stopLoader (extra := [])
    have hend : s.EventOver ((s.refreshPresence c).stopRequest c h.loader tag [0x01, zone]) l := by
      refine ha.1.touched ((hr.refreshPresence c).stopRequest _ _ _ _) ?_
      rw [State.stopRequest_ofLoader]
      exact State.Touches.stopLoaderRequest ha.named _ _
    rw [hexec]
    rw [ha.stopRequest_eq] at hend ⊢
    refine ⟨_, rfl, hend.walked.stood ?_, hend.kept, ⟨_, rfl, rfl⟩, hend.authority⟩
    rw [State.withRep_auth, State.stand_record, putAt_same, ((State.Alike.refreshPresence s c).sameFor l).stoodRecord]
  case zone =>
    have hexec : exec (.stopZone h tag zone []) s =
        .next ((s.refreshPresence c).stopRequest c h.loader tag [0x02, zone]).finish := ha.exec_stopZone (extra := [])
    have hagree : ((s.refreshPresence c).stopRequest c h.loader tag [0x02, zone]).RecordsAgree :=
      (hr.refreshPresence c).stopRequest _ _ _ _
    rw [hexec]
    rw [State.stopZone_eq hp hz] at hagree ⊢
    obtain ⟨-, hwalk, hstart⟩ := ha.1.idle
    have hrest : (((s.refreshPresence c).stands (s.zoneLoaders c z) .stop).withRep
        (s.standsReport (s.zoneLoaders c z) .stop (s.doneReport c tag none 0))).rest = s.rest :=
      ((s.refreshPresence c).stands_rest _ _).trans (s.refreshPresence_rest c)
    have hcs := (State.cycleStarting_congr (congrArg Rest.due hrest)).trans hstart
    have hw := hagree.walked hcs
    refine ⟨_, rfl, ⟨fun k => ?_, ⟨_, rfl, rfl⟩⟩, State.onlyAuthority_of_rest ((State.finish_rest _).trans hrest)
      ((State.finish_walkCalled_off hcs).trans hwalk.symm)⟩
    have hmem : k ∈ s.zoneLoaders c z ↔ s.stopZoneNames c z k = true := by
      simp [State.zoneLoaders, mem_allLoaders]
    split
    · next hk =>
      refine hw.stood ?_
      rw [State.withRep_auth, State.stands_record _ (s.zoneLoaders_nodup c z) _ (hmem.mpr hk),
        ((State.Alike.refreshPresence s c).sameFor k).stoodRecord]
    · next hk =>
      refine hw.kept ?_ (congrArg Rest.tables hrest)
      rw [State.withRep_auth, (State.SameFor.stands _ (fun hm => hk (hmem.mp hm)) _).auth, State.refreshPresence_auth]

end Sys2Proof
end

section
/-! RECOVER (R27): a STANDING loader goes to FREE, or to MATCHING with the chair it was retained for. -/

namespace Sys2Proof.Machine

open Sys2Proof

section recover
variable {s : State} {h : Header} {tag : Word16} {c x : Chair} {l : Loader} {cause : Cause}

/-- A retained holder that is dropped lets the loader go, which stands as before. -/
theorem State.dropRetained_letGo (h : s.auth[l].state = .standing (some x) cause) :
    s.dropRetained l = s.letGo l x (.standing none cause) := by
  rw [State.letGo, ← State.setAuth_release]
  simp only [State.dropRetained, h]

theorem State.letGo_same (s : State) (l x a) : s.SameReporting (s.letGo l x a) := by
  have hset : ((s.advanceEpoch l).release x).SameReporting (s.letGo l x a) := State.sameReporting_of_records rfl rfl rfl
  exact ((State.sameReporting_of_records (s := s) (t := s.advanceEpoch l) rfl rfl rfl).trans (State.release_same _ x)).trans hset

theorem State.beginMatching_same (s : State) (l ho c o p) (hc : s.chairs[c].status ≠ .absent) :
    s.SameReporting (s.beginMatching l ho c o p) :=
  State.sameReporting_of_chair _ rfl rfl rfl ⟨nofun, fun he => absurd he hc⟩

theorem State.letGo_rest (s : State) (l x a) : (s.letGo l x a).rest = s.rest := by
  rw [State.letGo, State.setAuth_rest, State.release_rest, State.advanceEpoch_rest]

theorem State.letGo_freedReport (s : State) (l x a) (r : Report) : (s.letGo l x a).freedReport l r = s.freedReport l r := by
  have hstatus : (s.letGo l x a).status = s.status := congrArg Rest.status (s.letGo_rest l x a)
  simp only [State.freedReport, hstatus, Report.raise_same (s.letGo_same l x a)]

theorem State.Admits.exec_recover {extra} (ha : s.Admits (requestFrame h 0x16 tag extra) c) :
    exec (.recover h tag extra) s = .next ((s.refreshPresence c).recoverRequest c h.loader tag extra).finish :=
  congrArg _ (ha.chairCommand _)

/-- LOST(TAKEN) to a holder that a supervisor drops. -/
def State.lostReport (s : State) (l : Loader) (x taker : Chair) (r : Report) : Report :=
  r.notice s x { name := .lost, loader := some l, chair := some taker, epoch := s.auth[l].epoch + 1, byte6 := 0x28 }

theorem State.Alike.dropTaken {v : State} (hv : s.Alike v) (r : Report) (hx : s.auth[l].state = .standing (some x) cause) :
    (v.withRep r).dropTaken c l x = (v.letGo l x (.standing none cause)).withRep (s.lostReport l x c r) := by
  have hx' : v.auth[l].state = .standing (some x) cause := by rw [hv.auth, hx]
  have hlost : (v.withRep r).lost l x c (v.auth[l].epoch + 1) .taken = v.withRep (s.lostReport l x c r) := by
    rw [State.lost, State.withRep_notice, Report.notice_same hv.same, hv.auth]
    rfl
  have hdrop : (v.withRep r).dropTaken c l x = ((v.withRep r).lost l x c (v.auth[l].epoch + 1) .taken).dropRetained l := rfl
  rw [hdrop, hlost, State.withRep_dropRetained, State.dropRetained_letGo hx']

/-- The loader may be recovered but for who asks. -/
def State.recoverable (s : State) (l : Loader) (retained : Option Chair) : Prop :=
  ∃ cause, s.auth[l].state = .standing retained cause ∧ cause ≠ .start ∧ cause ≠ .reset ∧ s.standCondition l = false

theorem State.recoverable_of {retained : Option Chair}
    (hs : ¬(s.auth[l].state.isStanding = false ∨ s.auth[l].state.cause = some .start ∨ s.auth[l].state.cause = some .reset))
    (hc : ¬ s.standCondition l = true) (hret : s.auth[l].state.holder = retained) : s.recoverable l retained := by
  rw [not_or, not_or] at hs
  obtain ⟨hstand, hstart, hreset⟩ := hs
  cases heq : s.auth[l].state with
  | standing y cause =>
    rw [heq] at hret hstart hreset
    subst hret
    exact ⟨cause, heq, fun he => hstart (congrArg some he), fun he => hreset (congrArg some he), Bool.not_eq_true _ ▸ hc⟩
  | _ =>
    rw [heq] at hstand
    exact absurd rfl hstand

variable (ha : s.Asks (requestFrame h 0x16 tag []) c l)
include ha

theorem State.Asks.recover_touched (hr : s.RecordsAgree) :
    s.EventOver ((s.refreshPresence c).recoverRequest c h.loader tag []) l :=
  ha.1.touched ((hr.refreshPresence c).recoverRequest _ _ _ _) (State.Touches.recoverRequest ha.named _ _)

theorem State.Asks.recover_wrongState
    (hs : s.auth[l].state.isStanding = false ∨ s.auth[l].state.cause = some .start ∨ s.auth[l].state.cause = some .reset) :
    (s.refreshPresence c).recoverRequest c h.loader tag [] = (s.refreshPresence c).refuse c tag (some l) .wrongState := by
  refine (ha.authorityRequest tag _).trans ?_
  simp only [State.refreshPresence_auth]
  cases heq : s.auth[l].state with
  | standing y cause =>
    rw [heq] at hs
    have hcause : (decide (cause = .start) || decide (cause = .reset)) = true := by
      rw [Bool.or_eq_true, decide_eq_true_iff, decide_eq_true_iff]
      obtain hs | hs | hs := hs
      · exact nomatch hs
      · exact .inl (Option.some.inj hs)
      · exact .inr (Option.some.inj hs)
    simp only [hcause, if_true]
  | _ => rfl

theorem State.Asks.recover_causeActive
    (hs : ¬(s.auth[l].state.isStanding = false ∨ s.auth[l].state.cause = some .start ∨ s.auth[l].state.cause = some .reset))
    (hc : s.standCondition l = true) :
    (s.refreshPresence c).recoverRequest c h.loader tag [] = (s.refreshPresence c).refuse c tag (some l) .causeActive := by
  rw [not_or, not_or] at hs
  obtain ⟨hstand, hstart, hreset⟩ := hs
  refine (ha.authorityRequest tag _).trans ?_
  simp only [State.refreshPresence_auth, State.refreshPresence_standCondition]
  cases heq : s.auth[l].state with
  | standing y cause =>
    rw [heq] at hstart hreset
    have h1 : ¬ cause = .start := fun he => hstart (congrArg some he)
    have h2 : ¬ cause = .reset := fun he => hreset (congrArg some he)
    simp only [h1, h2, decide_false, Bool.or_self, Bool.false_eq_true, if_false, hc, if_true]
  | _ =>
    rw [heq] at hstand
    exact absurd rfl hstand

/-- Past the checks of cause, a RECOVER with no retained holder frees the loader. -/
theorem State.Asks.recover_nobody (hs : s.recoverable l none) : (s.refreshPresence c).recoverRequest c h.loader tag [] =
    (((s.refreshPresence c).done c tag l s.auth[l].epoch).enterFree l).raise .recovered (some l) (some c) recoveredToFree := by
  obtain ⟨cause, heq, h1, h2, hc⟩ := hs
  refine (ha.authorityRequest tag _).trans ?_
  simp only [State.refreshPresence_auth, State.refreshPresence_standCondition, heq, h1, h2, decide_false, Bool.or_self,
    Bool.false_eq_true, if_false, hc]

/-- Past the checks of cause, a RECOVER goes by who asks and who is retained. -/
theorem State.Asks.recover_somebody (hs : s.recoverable l (some x)) : (s.refreshPresence c).recoverRequest c h.loader tag [] =
    if x = c then
      (((s.refreshPresence c).done c tag l (s.auth[l].epoch + 1) 0 s.tables.device.matchTimeout).beginMatching l none c
        .direct none).raise .recovered (some l) (some c) recoveredToMatching
    else if s.tables.chairs[c].supervisor then
      ((((s.refreshPresence c).done c tag l (s.auth[l].epoch + 1)).dropTaken c l x).enterFree l).raise .recovered
        (some l) (some c) recoveredToFree
    else (s.refreshPresence c).refuse c tag (some l) .notHolder := by
  obtain ⟨cause, heq, h1, h2, hc⟩ := hs
  refine (ha.authorityRequest tag _).trans ?_
  simp only [State.refreshPresence_auth, State.refreshPresence_standCondition, State.refreshPresence_tables, heq, h1, h2,
    decide_false, Bool.or_self, Bool.false_eq_true, if_false, hc]

theorem State.Asks.recover_freed (hs : s.recoverable l none) :
    (s.refreshPresence c).recoverRequest c h.loader tag [] = ((s.refreshPresence c).enterFree l).withRep
      ((s.freedReport l (s.doneReport c tag (some l) s.auth[l].epoch)).raise s ⟨.recovered, some l, some c, 2⟩) := by
  have hv := State.Alike.refreshPresence s c
  rw [ha.recover_nobody hs, State.reloaded_done, State.withRep_enterFree,
    (hv.same.trans ((s.refreshPresence c).enterFree_same l)).raise_rep, (hv.sameFor l).freedReport]
  rfl

theorem State.Asks.recover_matching (hs : s.recoverable l (some c)) :
    (s.refreshPresence c).recoverRequest c h.loader tag [] =
      ((s.refreshPresence c).beginMatching l none c .direct none).withRep
        ((s.doneReport c tag (some l) (s.auth[l].epoch + 1) 0 s.tables.device.matchTimeout).raise s
          ⟨.recovered, some l, some c, 1⟩) := by
  have hp : (s.refreshPresence c).chairs[c].status ≠ .absent := by
    rw [State.refreshPresence_chairStatus]
    exact ha.2.1
  have hsame : (s.refreshPresence c).SameReporting ((s.refreshPresence c).beginMatching l none c .direct none) :=
    State.beginMatching_same _ l none c .direct none hp
  rw [ha.recover_somebody hs, if_pos rfl, State.reloaded_done, State.withRep_beginMatching, ((s.refreshPresence_same c).trans hsame).raise_rep]
  rfl

theorem State.Asks.recover_dropped (hs : s.recoverable l (some x)) (hx : x ≠ c) (hsup : s.tables.chairs[c].supervisor = true) :
    ∃ cause, (s.refreshPresence c).recoverRequest c h.loader tag [] =
      (((s.refreshPresence c).letGo l x (.standing none cause)).enterFree l).withRep
        ((s.freedReport l (s.lostReport l x c (s.doneReport c tag (some l) (s.auth[l].epoch + 1)))).raise s
          ⟨.recovered, some l, some c, 2⟩) := by
  have hpass := ha.recover_somebody hs
  obtain ⟨cause, heq, -⟩ := hs
  have hv := State.Alike.refreshPresence s c
  have hsame := hv.same.trans ((s.refreshPresence c).letGo_same l x (.standing none cause))
  refine ⟨cause, ?_⟩
  rw [hpass, if_neg hx, if_pos hsup, State.reloaded_done, hv.dropTaken _ heq, State.withRep_enterFree,
    (hsame.trans (State.enterFree_same _ l)).raise_rep, State.letGo_freedReport, (hv.sameFor l).freedReport]
  rfl

theorem State.Asks.recover_notHolder (hs : s.recoverable l (some x)) (hx : x ≠ c) (hsup : s.tables.chairs[c].supervisor = false) :
    (s.refreshPresence c).recoverRequest c h.loader tag [] = (s.refreshPresence c).refuse c tag (some l) .notHolder := by
  rw [ha.recover_somebody hs, if_neg hx, if_neg (by rw [hsup]; exact Bool.false_ne_true)]

end recover

/-! ## The records after a RECOVER -/

section records
variable {s : State} {l : Loader} {x c : Chair}

theorem State.reloaded_enterFree_record (s : State) (c : Chair) (l : Loader) :
    ((s.refreshPresence c).enterFree l).auth[l] = ⟨s.freedState l, s.auth[l].epoch⟩ := by
  rw [State.enterFree_record, putAt_same, State.freedState_congr (s.refreshPresence_status c) (s.refreshPresence_timer c),
    State.refreshPresence_auth]

theorem State.letGo_enterFree_record (v : State) (l : Loader) (x : Chair) (a : AuthState) :
    ((v.letGo l x a).enterFree l).auth[l] = ⟨v.freedState l, v.auth[l].epoch + 1⟩ := by
  have hrest := v.letGo_rest l x a
  rw [State.enterFree_record, putAt_same, State.freedState_congr (congrArg Rest.status hrest) (congrArg Rest.timer hrest),
    State.letGo_record]

theorem State.letGo_enterFree_hasLeft {v : State} {a : AuthState} (hp : v.chairs[x].status ≠ .absent) (hx : x ∉ v.freeList) :
    v.HasLeft ((v.letGo l x a).enterFree l) x := by
  obtain ⟨hc, hf, -⟩ := (v.letGo l x a).enterFree_lists l
  exact (State.letGo_hasLeft hp hx).congr hc hf

/-- A chair that begins a matching is its candidate, whatever the walk does after. -/
theorem State.beginMatching_chair {v t : State} {ho o r} {rep : Report}
    (hw : ((v.beginMatching l ho c o r).withRep rep).Walked t) : t.chairs[c].status = .candidate ∧ t.chairs[c].engaged = some l := by
  have hc : t.chairs[c] = { v.chairs[c] with status := .candidate, engaged := some l } := by
    refine hw.chair ?_ ?_
    · rw [State.withRep_chairs, State.beginMatching_chairs, putAt_same]
    · rw [State.withRep_freeList, State.beginMatching_freeList]
      simp
  rw [hc]
  exact ⟨rfl, rfl⟩

end records

end Sys2Proof.Machine

namespace Sys2Proof

open Machine

/-- Settles O39: the checks in their order; then the loader is freed, or goes to its retained holder's matching. -/
theorem recoverEndsTheStanding : Obligations.RecoverEndsTheStanding := by
  intro s h tag c l ha hr a refused
  have hexec : exec (.recover h tag []) s =
      .next ((s.refreshPresence c).recoverRequest c h.loader tag []).finish := ha.1.exec_recover
  have hend := ha.recover_touched hr
  have hquiet : s.Quiet := ha.1.1.1
  have hv := State.Alike.refreshPresence s c
  rw [hexec]
  split
  · next hs => rw [ha.recover_wrongState hs, hquiet.finish_refused]
  · next hs =>
    split
    · next hc => rw [ha.recover_causeActive hs hc, hquiet.finish_refused]
    · next hc =>
      have hrec : s.recoverable l a.holder := State.recoverable_of hs hc rfl
      cases hret : a.holder with
      | none =>
        rw [hret] at hrec
        rw [ha.recover_freed hrec] at hend ⊢
        rw [if_neg (fun hn => Bool.false_ne_true hn.1)]
        refine ⟨_, rfl, ?_, ⟨_, rfl, rfl⟩, hend.kept, hend.authority⟩
        have hrecord := s.reloaded_enterFree_record c l
        rw [if_neg nofun]
        refine ⟨hend.walked.freed hend.tables ?_, ?_, nofun⟩
        · rw [State.withRep_auth, hrecord]
        · rw [hend.walked.epoch, State.withRep_auth, hrecord]
          rfl
      | some x =>
        rw [hret] at hrec
        by_cases hx : x = c
        · subst hx
          rw [ha.recover_matching hrec] at hend ⊢
          rw [if_neg (fun hn => hn.2.1 rfl)]
          simp only [if_true]
          refine ⟨_, rfl, ?_, ⟨_, rfl, rfl⟩, hend.kept, hend.authority⟩
          refine ⟨hend.walked.record ?_ rfl, State.beginMatching_chair hend.walked⟩
          rw [State.withRep_auth, State.beginMatching_auth, putAt_same, hv.auth, hv.tables]
        · have hne : ¬ some x = some c := fun he => hx (Option.some.inj he)
          cases hsup : s.tables.chairs[c].supervisor with
          | false => rw [if_pos ⟨rfl, hne, rfl⟩, ha.recover_notHolder hrec hx hsup, hquiet.finish_refused]
          | true =>
            obtain ⟨cause, heq⟩ := ha.recover_dropped hrec hx hsup
            obtain ⟨-, hp, hlist⟩ := hr.holder_placed hret
            have hleft := State.letGo_enterFree_hasLeft (v := s.refreshPresence c) (l := l) (x := x) (a := .standing none cause)
              (by rwa [State.refreshPresence_chairStatus]) (by rwa [State.refreshPresence_freeList])
            have hrecord := (s.refreshPresence c).letGo_enterFree_record l x (.standing none cause)
            rw [heq] at hend ⊢
            rw [if_neg (fun hn => Bool.false_ne_true hn.2.2.symm)]
            simp only [if_neg hx]
            refine ⟨_, rfl, ?_, ⟨_, rfl, rfl⟩, hend.kept, hend.authority⟩
            rw [if_neg hne]
            refine ⟨hend.walked.freed hend.tables ?_, ?_, ?_⟩
            · rw [State.withRep_auth, hrecord, State.freedState_congr hv.status hv.timer]
            · rw [hend.walked.epoch, State.withRep_auth, hrecord, hv.auth]
              rfl
            · rintro y ⟨⟩
              exact ((hleft.since hv.timer hv.freeList).withRep _).rejoined hend.walked

end Sys2Proof
end

section
/-! TAKE (R22, R24): an operator's, and what a supervisor's reports. -/

namespace Sys2Proof.Machine

open Sys2Proof

section take
variable {s : State} {h : Header} {tag : Word16} {c x : Chair} {l : Loader}

/-! ## An operator's TAKE (R22) -/

section operator
variable (ha : s.Asks (requestFrame h 0x10 tag []) c l) (hsup : s.tables.chairs[c].supervisor = false)
include ha hsup

theorem State.Asks.takeOperator_refused {why : Reason} (hc : s.takeOperatorChecks c l = some why) :
    (s.refreshPresence c).takeRequest c h.loader tag [] = (s.refreshPresence c).refuse c tag (some l) why := by
  have hchecks : (s.refreshPresence c).takeOperatorChecks c l = s.takeOperatorChecks c l := by
    simp only [State.takeOperatorChecks, State.refreshPresence_chairStatus, State.refreshPresence_auth]
  refine (ha.authorityRequest tag _).trans ?_
  simp only [State.refreshPresence_tables, hsup, Bool.false_eq_true, if_false, hchecks, hc]

theorem State.Asks.takeOperator_admitted (hi : s.chairs[c].status = .idle)
    (hf : s.auth[l].state = .free ∨ s.auth[l].state.isCalling = true) :
    (s.refreshPresence c).takeRequest c h.loader tag [] = { s with
      auth := putAt s.auth l ⟨.matching none c .direct none s.tables.device.matchTimeout, s.auth[l].epoch⟩
      chairs := putAt s.chairs c
        { s.chairs[c] with status := .candidate, engaged := some l, presence := s.tables.device.presenceTimeout }
      freeList := s.freeList.filter (· ≠ c)
      callQueue := s.callQueue.filter (·.loader ≠ l)
      windows := putAt s.windows l []
      builders := putAt s.builders l { s.builders[l] with cand := none, lastCand := none }
      rep := s.doneReport c tag (some l) (s.auth[l].epoch + 1) 0 s.tables.device.matchTimeout } := by
  have hchecks : (s.refreshPresence c).takeOperatorChecks c l = none := by
    simp only [State.takeOperatorChecks, State.refreshPresence_chairStatus, State.refreshPresence_auth, hi, ne_eq, not_true_eq_false,
      if_false]
    cases heq : s.auth[l].state with
    | free => rfl
    | calling w => rfl
    | _ =>
      rw [heq] at hf
      obtain hf | hf := hf
      · exact nomatch hf
      · exact nomatch hf
  have hp : s.chairs[c].status ≠ .absent := ha.2.1
  have hv : s.refreshPresence c =
      { s with chairs := putAt s.chairs c { s.chairs[c] with presence := s.tables.device.presenceTimeout } } := if_neg hp
  have hdone := s.reloaded_done c tag l (s.auth[l].epoch + 1) 0 s.tables.device.matchTimeout
  refine (ha.authorityRequest tag _).trans ?_
  simp only [State.refreshPresence_tables, hsup, Bool.false_eq_true, if_false, hchecks, State.takeOperator,
    State.refreshPresence_auth, hdone]
  simp only [hv, State.beginMatching, State.engage, State.clearMatch, State.setChair, State.setAuth, State.setWindow,
    State.setBuilder, State.leaveList, State.dequeue, State.withRep, putAt_same, putAt_putAt]
  rfl

end operator

/-! ## What a supervisor's TAKE reports (R24) -/

theorem State.SameReporting.callWalk {v : State} (h : s.SameReporting v) : s.SameReporting v.callWalk := ⟨h.timer, h.tables, h.present⟩

theorem State.SameReporting.dequeue {v : State} (h : s.SameReporting v) (l : Loader) : s.SameReporting (v.dequeue l) :=
  ⟨h.timer, h.tables, h.present⟩

/-- A matching that begins, and the TAKE of the supervisor reported. -/
theorem State.SameReporting.take_rep {v : State} (hv : s.SameReporting v) (r : Report) (ho o p)
    (hc : v.chairs[c].status ≠ .absent) :
    (((v.withRep r).beginMatching l ho c o p).raise .takeSupervisor (some l) (some c)).rep =
      r.raise s ⟨.takeSupervisor, some l, some c, 0⟩ := by
  rw [State.withRep_beginMatching, (hv.trans (v.beginMatching_same l ho c o p hc)).raise_rep]
  rfl

/-- The epoch that a supervisor's TAKE leaves. -/
def State.takenEpoch (s : State) (l : Loader) : Byte :=
  if s.auth[l].state.isStanding && s.auth[l].state.holder.isSome then s.auth[l].epoch + 1 else s.auth[l].epoch

/-- What the parties of the loader are told of a supervisor's TAKE. -/
def State.preemptReport (s : State) (c : Chair) (l : Loader) (done : Report) : Report :=
  match s.auth[l].state with
  | .offered _ x _ number _ _ =>
    (done.sends s x .withdrawn l s.auth[l].epoch 0x23 number).raise s ⟨.offerEnded, some l, some x, 6⟩
  | .matching _ x _ _ _ => done.sends s x .aborted l s.auth[l].epoch 0x23
  | .standing (some x) _ =>
    done.notice s x { name := .lost, loader := some l, chair := some c, epoch := s.auth[l].epoch + 1, byte6 := 0x28 }
  | _ => done

theorem State.takeSupervisor_rep (hp : s.chairs[c].status ≠ .absent) :
    ((s.refreshPresence c).takeSupervisor c tag l).rep =
      (s.preemptReport c l (s.doneReport c tag (some l) (s.takenEpoch l + 1) 0 s.tables.device.matchTimeout)).raise s
        ⟨.takeSupervisor, some l, some c, 0⟩ := by
  have hv := State.Alike.refreshPresence s c
  have hpv : (s.refreshPresence c).chairs[c].status ≠ .absent := by rwa [State.refreshPresence_chairStatus]
  have hepoch2 (b : Byte) : b + 1 + 1 = b + 2 := by rw [BitVec.add_assoc]; rfl
  have kept {a : AuthState} (ha : s.auth[l].state = a) (hn : (a.isStanding && a.holder.isSome) = false) :
      s.takenEpoch l = s.auth[l].epoch := by
    rw [State.takenEpoch, ha, hn]
    rfl
  simp only [State.takeSupervisor, State.preemptReport, hv.auth, hv.tables]
  cases heq : s.auth[l].state with
  | offered holder x o n p m =>
    have hgone := State.offerGone_same (s.refreshPresence c) x n
    have hpx : ((s.refreshPresence c).offerGone x n).chairs[c].status ≠ .absent := fun he => hpv ((hgone.present c).mp he)
    have hs := hv.same.trans (hgone.trans (State.beginMatching_same _ l holder c .direct none hpx))
    dsimp only
    rw [kept heq rfl, State.reloaded_done, hv.withdrawn, State.endOffer_eq, State.withRep_offerGone,
      State.withRep_beginMatching, hs.raise_rep, State.withRep_callWalk, hs.callWalk.raise_rep]
    rfl
  | matching holder x o p m =>
    have hend := State.endMatching_same (s.refreshPresence c) l x
    have hpx : ((s.refreshPresence c).endMatching l x).chairs[c].status ≠ .absent := fun he => hpv ((hend.present c).mp he)
    dsimp only
    rw [kept heq rfl, State.reloaded_done, hv.aborted, State.withRep_endMatching, (hv.same.trans hend).take_rep _ _ _ _ hpx]
    rfl
  | standing retained cause =>
    cases retained with
    | none =>
      dsimp only
      rw [kept heq rfl, State.reloaded_done, hv.same.take_rep _ _ _ _ hpv]
    | some x =>
      have hgo := State.letGo_same (s.refreshPresence c) l x (.standing none cause)
      have hpx : ((s.refreshPresence c).letGo l x (.standing none cause)).chairs[c].status ≠ .absent :=
        fun he => hpv ((hgo.present c).mp he)
      have htaken : s.takenEpoch l + 1 = s.auth[l].epoch + 2 := by
        rw [State.takenEpoch, heq, ← hepoch2]
        rfl
      dsimp only
      rw [htaken, State.reloaded_done, hv.dropTaken _ heq, (hv.same.trans hgo).take_rep _ _ _ _ hpx]
      rfl
  | calling w =>
    dsimp only
    rw [kept heq rfl, State.reloaded_done, State.withRep_dequeue, (hv.same.dequeue l).take_rep _ _ _ _ hpv]
  | free =>
    dsimp only
    rw [kept heq rfl, State.reloaded_done, hv.same.take_rep _ _ _ _ hpv]
  | held y =>
    dsimp only
    rw [kept heq rfl, State.reloaded_done, hv.same.take_rep _ _ _ _ hpv]
  | releasing n =>
    dsimp only
    rw [kept heq rfl, State.reloaded_done, hv.same.take_rep _ _ _ _ hpv]

end take

end Sys2Proof.Machine

namespace Sys2Proof

open Machine

/-- Settles O33: an operator's TAKE begins the matching or is refused; a supervisor's that is taken tells the other parties. -/
theorem operatorTakesTheLoader : Obligations.OperatorTakesTheLoader := by
  intro s h tag c l ha
  have hquiet : s.Quiet := ha.1.1.1
  refine ⟨fun hsup hr hi t hexec hcand => ?supervisor, fun hsup => ?operator⟩
  case supervisor =>
    cases hc : s.takeSupervisorChecks c l with
    | some why =>
      rw [ha.exec_take_refused hsup hc] at hexec
      obtain rfl := Host.Outcome.next.inj hexec
      have hplace : s.auth[l].state.candidate = some c := by
        rw [← s.refreshPresence_auth c]
        exact hcand
      obtain ⟨-, -, hn, -⟩ := hr.placed (AuthState.candidate_mem hplace)
      exact absurd hi hn
    | none =>
      rw [ha.exec_take_admitted hsup hc] at hexec
      obtain rfl := Host.Outcome.next.inj hexec
      obtain ⟨hdue, hwalk, -⟩ := ha.1.1.idle
      obtain ⟨hauth, -⟩ := State.takeSupervisor_finish hr hdue hwalk hi (c := c) (tag := tag) (l := l) rfl
      have hepoch : (((s.refreshPresence c).takeSupervisor c tag l).finish).auth[l].epoch = s.takenEpoch l := by rw [hauth]; rfl
      rw [hepoch]
      exact ⟨_, State.takeSupervisor_rep ha.2.1, rfl⟩
  case operator =>
    have hexec : exec (.take h tag []) s = .next ((s.refreshPresence c).takeRequest c h.loader tag []).finish := ha.exec_take
    intro r
    rw [hexec]
    by_cases hi : s.chairs[c].status = .idle
    · rw [if_neg (show ¬ r.status ≠ .idle from not_not_intro hi)]
      by_cases hf : s.auth[l].state = .free ∨ s.auth[l].state.isCalling = true
      · rw [if_pos hf, ha.takeOperator_admitted hsup hi hf]
        have hb : s.BeaconsShow := hquiet.2.2
        refine congrArg Host.Outcome.next (hb.finish_driven rfl rfl (driven_putAt ?_) rfl rfl)
        cases heq : s.auth[l].state with
        | free => rfl
        | calling w => rfl
        | _ =>
          rw [heq] at hf
          obtain hf | hf := hf
          · exact nomatch hf
          · exact nomatch hf
      · have hc : s.takeOperatorChecks c l = some .wrongState := by
          rw [State.takeOperatorChecks, if_neg (not_not_intro hi)]
          cases heq : s.auth[l].state with
          | free => exact absurd (.inl heq) hf
          | calling w => exact absurd (.inr (by rw [heq]; rfl)) hf
          | _ => rfl
        rw [if_neg hf, ha.takeOperator_refused hsup hc, hquiet.finish_refused]
    · have hc : s.takeOperatorChecks c l = some .busy := if_pos hi
      rw [if_pos (show r.status ≠ .idle from hi), ha.takeOperator_refused hsup hc, hquiet.finish_refused]

end Sys2Proof
end

section
/-! The timers of a handover and of a release (R18, R26, R43, R66): what an event of the present instant finds, and what OFFER_EXPIRY,
MATCH_TIMEOUT and RELEASE_TIMEOUT leave and report. -/

namespace Sys2Proof.Machine

open Sys2Proof

/-! ## An event of the present instant, the last one over -/

section instant
variable {s u : State} {d : Due} {l : Loader} {c : Chair}

theorem State.undue_cycleStarting (h : s.cycleStarting = false) (d : Due) : (s.undue d).cycleStarting = false := by
  rw [State.cycleStarting, List.any_eq_false] at h ⊢
  exact fun x hx => h x (List.mem_of_mem_erase hx)

theorem State.RecordsAgree.undue (h : s.RecordsAgree) (d : Due) : (s.undue d).RecordsAgree := h.same rfl

/-- An event that touches one loader's records, once it is over. -/
theorem State.Over.touched (hs : s.Over) (hu : u.RecordsAgree) (h : State.Touches l c (s.undue d) u) : (s.undue d).EventOver u l := by
  obtain ⟨⟨hwalk, -⟩, -, hstart⟩ := hs
  exact h.finish hu (State.undue_cycleStarting hstart d) hwalk

end instant

/-! ## OFFER_EXPIRY (R18, R43) -/

section offer
variable {s : State} {l : Loader} {c : Chair}

/-- The chair once an offer to it has expired. -/
def State.offerMissed (s : State) (c : Chair) : State :=
  s.setChair c { s.chairs[c] with
    missed := min 3 (s.chairs[c].missed + 1), available := s.chairs[c].available && s.chairs[c].missed ≠ 2 }

/-- What a missed offer reports. -/
def State.missedReport (s : State) (c : Chair) (r : Report) : Report :=
  let counted := r.count s (.chair c offersMissed) 1
  if s.chairs[c].missed = 2 then counted.raise s ⟨.chairUnavailable, none, some c, 2⟩ else counted

theorem State.offerMissed_alike (s : State) (c : Chair) : s.Alike (s.offerMissed c) := by
  refine ⟨rfl, rfl, rfl, rfl, rfl, fun d => ?_⟩
  rw [State.offerMissed, State.setChair_chairs, putAt_get]
  split
  · next h => rw [h]
  · rfl

theorem State.withRep_missOffer (s : State) (r : Report) (c : Chair) :
    (s.withRep r).missOffer c = (s.offerMissed c).withRep (s.missedReport c r) := by
  have hset (x : ChairState) (hx : x.status = s.chairs[c].status) : s.SameReporting (s.setChair c x) :=
    State.sameReporting_of_chair s rfl rfl rfl (by rw [hx])
  have hfirst := hset { s.chairs[c] with missed := min 3 (s.chairs[c].missed + 1) } rfl
  have hmiss : (s.withRep r).missOffer c =
      if s.chairs[c].missed = 2 then
        (let t := (((s.setChair c { s.chairs[c] with missed := min 3 (s.chairs[c].missed + 1) }).withRep r).count (.chair c offersMissed))
         (t.setChair c { t.chairs[c] with available := false }).raise .chairUnavailable none (some c) unavailableMissed)
      else ((s.setChair c { s.chairs[c] with missed := min 3 (s.chairs[c].missed + 1) }).withRep r).count (.chair c offersMissed) := rfl
  rw [hmiss, hfirst.count_rep, State.missedReport, State.offerMissed]
  by_cases hm : s.chairs[c].missed = 2
  · have hsecond := hset { s.chairs[c] with missed := min 3 (s.chairs[c].missed + 1), available := false } rfl
    simp only [hm, if_true, State.withRep_chairs, State.setChair_chairs, putAt_same, State.withRep_setChair]
    have htwice (a b : ChairState) : (s.setChair c a).setChair c b = s.setChair c b :=
      congrArg (fun x => { s with chairs := x }) (putAt_putAt _ _ _ _)
    rw [hm] at hsecond
    rw [htwice, hsecond.raise_rep]
    simp only [ne_eq, not_true_eq_false, decide_false, Bool.and_false]
    rfl
  · simp only [hm, if_false, ne_eq, not_false_eq_true, decide_true, Bool.and_true]

theorem State.offerExpiry_eq {holder o n p} (h : s.auth[l].state = .offered holder c o n p 0) :
    s.offerExpiry l = ((s.offerMissed c).endOffer l c n .expired (·.returnLoader l)).withRep
      ((s.returnReport l (s.missedReport c (s.rep.sends s c .withdrawn l s.auth[l].epoch 0x22 n))).raise s
        ⟨.offerEnded, some l, some c, 2⟩) := by
  have hexp : s.offerExpiry l = ((s.withdrawn l c n .expired).missOffer c).endOffer l c n .expired (·.returnLoader l) := by
    simp only [State.offerExpiry, h, if_true]
  rw [hexp, ← s.withRep_self, (State.Alike.refl s).withdrawn, State.withRep_missOffer, (s.offerMissed_alike c).endOffer_return]
  rfl

theorem State.Touches.offerExpiry {holder o n p m} (h : s.auth[l].state = .offered holder c o n p m) :
    State.Touches l c s (s.offerExpiry l) := by
  simp only [State.offerExpiry, h]
  split
  · exact (((State.Touches.refl s).notice _ _).missOffer).endOffer_return _ _ _
  · exact .refl s

end offer

/-! ## MATCH_TIMEOUT and RELEASE_TIMEOUT (R26, R66) -/

section timeouts
variable {s : State} {l : Loader} {c : Chair}

/-- What a matching that has run out reports ahead of the return. -/
def State.failedReport (s : State) (l : Loader) (c : Chair) (r : Report) : Report :=
  let detail := wordOf (256 * s.windows[l].count true + s.windows[l].length)
  ((r.notice s c { name := .failed, loader := some l, chair := some c, epoch := s.auth[l].epoch, byte6 := 0x29,
                   detail := detail }).count s (.chair c matchFails) 1).raise s ⟨.matchFailed, some l, some c, detail⟩

theorem State.matchTimeout_eq {holder o p} (h : s.auth[l].state = .matching holder c o p 0) :
    s.matchTimeout l = ((s.endMatching l c).returnLoader l).withRep (s.returnReport l (s.failedReport l c s.rep)) := by
  have hout : s.matchTimeout l = ((s.withRep (s.failedReport l c s.rep)).endMatching l c).returnLoader l := by
    have hdetail : matchDetail s.windows[l] = wordOf (256 * s.windows[l].count true + s.windows[l].length) := by
      rw [Nat.mul_comm]
      rfl
    simp only [State.matchTimeout, h, if_true, hdetail]
    refine congrArg (fun t => (State.endMatching t l c).returnLoader l) ?_
    have hs := (State.Alike.refl s).same
    have hn (n : Notice) : s.notice c n = s.withRep (s.rep.notice s c n) := rfl
    rw [hn, hs.count_rep, hs.raise_rep]
    rfl
  rw [hout, State.withRep_endMatching_return]

theorem State.releaseTimeout_eq (h : s.auth[l].state = .releasing 0) : s.releaseTimeout l = { s with
    auth := putAt s.auth l ⟨.standing none .releaseTimeout, s.auth[l].epoch⟩
    rep := s.rep.raise s ⟨.standReleaseTimeout, some l, none, s.auth[l].epoch.setWidth 16⟩ } := by
  have hout : s.releaseTimeout l = s.standEntry l .releaseTimeout := by simp only [State.releaseTimeout, h]
  have hholder : s.standHolder l .releaseTimeout = s := by simp only [State.standHolder, h, AuthState.holder]
  have hparties : s.standParties l = s := by simp only [State.standParties, h]
  have hepoch : (s.setAuth l (.standing none .releaseTimeout)).auth[l].epoch = s.auth[l].epoch := by
    rw [State.setAuth_auth, putAt_same]
  have hs : s.SameReporting (s.setAuth l (.standing none .releaseTimeout)) := State.sameReporting_of_records rfl rfl rfl
  have hentry : s.standEntry l .releaseTimeout = (s.setAuth l (.standing none .releaseTimeout)).raise .standReleaseTimeout
      (some l) none (s.auth[l].epoch.setWidth 16) := by
    simp only [State.standEntry, hholder, hparties, h, AuthState.holder, State.reportStand, State.noticeIfPresent, hepoch,
      Cause.event, ite_self]
  rw [hout, hentry, hs.raise_eq]
  rfl

end timeouts

end Sys2Proof.Machine

namespace Sys2Proof

open Machine

/-- Settles O16: the chair has missed an offer, the offer ends, and the loader returns. -/
theorem offerExpires : Obligations.OfferExpires := by
  intro s l holder c origin number offerer hs hr hd hoff
  have hexec : exec (.offerExpiry l) s = .next ((s.undue (.offerExpiry l)).offerExpiry l).finish :=
    congrArg Host.Outcome.next (State.runDue_follows hd rfl hs.2.1 fun s => s.offerExpiry l)
  have hv := State.Alike.undue s (.offerExpiry l)
  have hoff' : (s.undue (.offerExpiry l)).auth[l].state = .offered holder c origin number offerer 0 := hoff
  have hend := State.Over.touched hs ((hr.undue (.offerExpiry l)).offerExpiry l) (State.Touches.offerExpiry hoff')
  obtain ⟨-, hp, hlist⟩ := hr.offered_placed hoff
  rw [hexec]
  rw [State.offerExpiry_eq hoff'] at hend ⊢
  have hmissed := (s.undue (.offerExpiry l)).offerMissed_alike c
  obtain ⟨hover, hlast⟩ := State.endOffer_over (s := (s.undue (.offerExpiry l)).offerMissed c) (l := l) (x := c)
    (by rw [hmissed.present]; exact hp) (by rw [hmissed.freeList]; exact hlist) number .expired
  obtain ⟨hl, hm, hav, -⟩ := hend.walked.chair_counts c
  refine ⟨_, rfl, ?_, hend.kept, ?_, hl.trans hlast, hm.trans ?_, hav.trans ?_, ⟨_, rfl, rfl⟩, hend.authority⟩
  · refine hend.walked.returned hend.tables ?_
    rw [State.withRep_auth, hover.record, (hmissed.sameFor l).returnState, (hv.sameFor l).returnState, hmissed.auth]
    rfl
  · exact ((hover.left.since hmissed.timer hmissed.freeList).withRep _).rejoined hend.walked
  · rw [State.withRep_chairs, hover.missed, State.offerMissed, State.setChair_chairs, putAt_same]
    rfl
  · rw [State.withRep_chairs, hover.available, State.offerMissed, State.setChair_chairs, putAt_same]
    rfl

/-- Settles O17: the matching ends with the loader's return, or the loader in RELEASING stands. -/
theorem matchingAndReleaseTimeOut : Obligations.MatchingAndReleaseTimeOut := by
  intro s l holder c origin offerer hs hr
  refine ⟨fun hd hm => ?matching, fun hd hm => ?release⟩
  case matching =>
    have hexec : exec (.matchTimeout l) s = .next ((s.undue (.matchTimeout l)).matchTimeout l).finish :=
      congrArg Host.Outcome.next (State.runDue_follows hd rfl hs.2.1 fun s => s.matchTimeout l)
    have hv := State.Alike.undue s (.matchTimeout l)
    have hm' : (s.undue (.matchTimeout l)).auth[l].state = .matching holder c origin offerer 0 := hm
    have hend := State.Over.touched (c := c) hs ((hr.undue (.matchTimeout l)).matchTimeout l) State.Touches.matchTimeout
    obtain ⟨-, hp, hlist⟩ := hr.matching_placed hm
    rw [hexec]
    rw [State.matchTimeout_eq hm'] at hend ⊢
    have hover := State.endMatching_over (s := s.undue (.matchTimeout l)) (l := l) (x := c) hp hlist
    obtain ⟨hwin, hbld⟩ := (s.undue (.matchTimeout l)).endMatching_lists l c
    refine ⟨_, rfl, ?_, hend.kept, ?_, ?_, ?_, ⟨_, rfl, rfl⟩, hend.authority⟩
    · refine hend.walked.returned hend.tables ?_
      rw [State.withRep_auth, hover.record, (hv.sameFor l).returnState]
      rfl
    · exact ((hover.left.since hv.timer hv.freeList).withRep _).rejoined hend.walked
    · rw [hend.walked.windows, State.withRep_windows, hwin]
      rfl
    · rw [State.finish_builders, State.withRep_builders, hbld]
      rfl
  case release =>
    have hexec : exec (.releaseTimeout l) s = .next ((s.undue (.releaseTimeout l)).releaseTimeout l).finish :=
      congrArg Host.Outcome.next (State.runDue_follows hd rfl hs.2.1 fun s => s.releaseTimeout l)
    have hm' : (s.undue (.releaseTimeout l)).auth[l].state = .releasing 0 := hm
    have hb : (s.undue (.releaseTimeout l)).BeaconsShow := hs.1
    rw [hexec, State.releaseTimeout_eq hm']
    refine congrArg Host.Outcome.next (hb.finish_driven rfl rfl (driven_putAt ?_) rfl rfl)
    rw [hm']
    rfl

end Sys2Proof
end

section
/-! The link tests and the exit from START and RESET (R7, R10, R116, R117). -/

namespace Sys2Proof.Machine

open Sys2Proof

/-! ## An event that leaves the zones and who drives -/

/-- The beacons read the zone of a status report alone (R135). -/
theorem State.beaconOn_zones {s t : State} (ha : ∀ k : Loader, t.auth[k].state.driven = s.auth[k].state.driven)
    (hs : ∀ k : Loader, t.status[k].zone = s.status[k].zone) (ht : t.tables = s.tables) : t.beaconOn = s.beaconOn := by
  funext n
  simp only [State.beaconOn, ha, hs, ht]

theorem State.BeaconsShow.finish_zones {s t : State} (h : s.BeaconsShow) (hw : t.walkCalled = s.walkCalled)
    (hb : t.beacons = s.beacons) (ha : ∀ k : Loader, t.auth[k].state.driven = s.auth[k].state.driven)
    (hs : ∀ k : Loader, t.status[k].zone = s.status[k].zone) (ht : t.tables = s.tables) : t.finish = t := by
  rw [State.finish_idle (hw.trans h.1), State.setBeacons, State.beaconOn_zones ha hs ht, ← h.2, ← hb]

theorem zone_putAt {s : State} {l : Loader} {r : LoaderStatus} (h : r.zone = s.status[l].zone) (k : Loader) :
    (putAt s.status l r)[k].zone = s.status[k].zone := by
  rw [putAt_get]
  split
  · next hk =>
    subst hk
    exact h
  · rfl

section link
variable {s : State} {l : Loader}

/-! ## The stand condition (R7) -/

theorem State.standCondition_iff (s : State) (l : Loader) : s.standCondition l = true ↔
    s.status[l].linkUp = false ∨ s.zoneInterlocked s.status[l].zone = true := by
  rw [State.standCondition, Bool.or_eq_true, Bool.not_eq_true']

/-! ## LINK_DOWN (R116) -/

/-- The loader's link is DOWN. -/
def State.linkDowned (s : State) (l : Loader) : State := s.setStatus l { s.status[l] with linkUp := false }

theorem State.linkDowned_same (s : State) (l : Loader) : s.SameReporting (s.linkDowned l) := ⟨rfl, rfl, fun _ => Iff.rfl⟩

theorem State.linkDownTest_eq (h : s.enabled l = true) : s.linkDownTest l = ((s.linkDowned l).stand l .link).withRep
    (s.standReport l .link (s.rep.raise s ⟨.linkDown, some l, none, wordOf (s.status[l].linkWindow.count false)⟩)) := by
  have hdown : s.linkDownTest l = ((s.linkDowned l).withRep
      (s.rep.raise s ⟨.linkDown, some l, none, wordOf (s.status[l].linkWindow.count false)⟩)).stand l .link := by
    rw [State.linkDownTest, if_pos h, ← (s.linkDowned_same l).raise_rep]
    rfl
  have hreport (r : Report) : (s.linkDowned l).standReport l .link r = s.standReport l .link r := by
    have hs := s.linkDowned_same l
    have ha : (s.linkDowned l).auth = s.auth := rfl
    simp only [State.standReport, ha, hs.standTold, Report.sends, Report.notice_same hs, Report.raise_same hs]
  rw [hdown, State.withRep_stand, hreport]

theorem State.Touches.linkDown (c : Chair) : State.Touches l c (s.linkDowned l) (((s.linkDowned l).stand l .link).withRep
    (s.standReport l .link (s.rep.raise s ⟨.linkDown, some l, none, wordOf (s.status[l].linkWindow.count false)⟩))) :=
  State.Touches.of_lists ((State.Touches.refl (s.linkDowned l)).stand .link) rfl rfl rfl rfl rfl

/-! ## LOADER_READY (R10) -/

theorem State.readyTest_eq (h : s.auth[l].state = .standing none .start ∨ s.auth[l].state = .standing none .reset)
    (hc : s.standCondition l = false) : s.readyTest l = ((s.setAuth l .free).enterFree l).withRep
      (s.freedReport l (s.rep.raise s ⟨.loaderReady, some l, none, 0⟩)) := by
  have hs : s.SameReporting (s.setAuth l .free) := State.sameReporting_of_records rfl rfl rfl
  have hready : s.readyTest l = ((s.setAuth l .free).withRep (s.rep.raise s ⟨.loaderReady, some l, none, 0⟩)).enterFree l := by
    rw [← hs.raise_rep]
    obtain h | h := h
    · simp only [State.readyTest, h, hc, decide_true, Bool.true_or, Bool.not_false, Bool.and_self, if_true]
      rfl
    · simp only [State.readyTest, h, hc, decide_true, Bool.or_true, Bool.not_false, Bool.and_self, if_true]
      rfl
  have hreport (r : Report) : (s.setAuth l .free).freedReport l r = s.freedReport l r := by
    simp only [State.freedReport, State.setAuth_status, Report.raise_same hs]
  rw [hready, State.withRep_enterFree, hreport]

theorem State.readyTest_idle (h : ¬((s.auth[l].state = .standing none .start ∨ s.auth[l].state = .standing none .reset)
    ∧ s.standCondition l = false)) : s.readyTest l = s := by
  unfold State.readyTest
  split
  · next cause heq =>
    rw [heq] at h
    refine if_neg fun hc => h ?_
    simp only [Bool.and_eq_true, Bool.or_eq_true, decide_eq_true_iff, Bool.not_eq_true'] at hc
    obtain ⟨hc | hc, hn⟩ := hc
    · exact ⟨.inl (by rw [hc]), hn⟩
    · exact ⟨.inr (by rw [hc]), hn⟩
  · rfl

end link

end Sys2Proof.Machine

namespace Sys2Proof

open Machine

/-- Settles O15: a link that goes DOWN stands the loader; a loader that stands for START or RESET with nothing in its way is freed. -/
theorem linkChangesAndLoaderReady : Obligations.LinkChangesAndLoaderReady := by
  intro s l
  refine ⟨?condition, fun hs hr he hd => ?down, fun hs he ahead => ?disabled, fun hs he hd => ?up, fun hs hr hd => ?ready⟩
  case condition => rw [State.standCondition_iff, State.zoneInterlocked_iff]
  case down =>
    have hexec : exec (.linkDown l) s = .next ((s.undue (.linkDown l)).linkDownTest l).finish :=
      congrArg Host.Outcome.next (State.runDue_follows hd rfl hs.2.1 fun s => s.linkDownTest l)
    have hagree := (hr.undue (.linkDown l)).linkDownTest l
    rw [hexec]
    rw [State.linkDownTest_eq (s := s.undue (.linkDown l)) he] at hagree ⊢
    have hend := (State.Touches.linkDown (s := s.undue (.linkDown l)) (l := l) 0).finish hagree
      (State.undue_cycleStarting hs.2.2 (.linkDown l)) hs.1.1
    have hstatus : (((s.undue (.linkDown l)).linkDowned l).stand l .link).status =
        putAt s.status l { s.status[l] with linkUp := false } := congrArg Rest.status (State.stand_rest _ l .link)
    have hrec : (((s.undue (.linkDown l)).linkDowned l).stand l .link).auth[l] = s.stoodRecord l .link := by
      rw [State.stand_record, putAt_same]
      rfl
    generalize ((s.undue (.linkDown l)).linkDowned l).stand l .link = u at *
    have hfinal (r : Report) : (u.withRep r).finish.status = putAt s.status l { s.status[l] with linkUp := false } :=
      (congrArg Rest.status (State.finish_rest _)).trans hstatus
    refine ⟨_, rfl, hfinal _, ⟨_, rfl, rfl⟩, hend.walked.stood hrec, hend.kept, ?_⟩
    rw [hfinal]
    exact hend.authority
  case disabled =>
    have hb (d : Due) : (s.undue d).finish = s.undue d := hs.1.finish_shown rfl rfl rfl rfl rfl
    refine ⟨fun hd => ?_, fun hd => ?_, fun hf hd => ?_⟩
    · refine (congrArg Host.Outcome.next (State.runDue_follows hd rfl hs.2.1 fun s => s.linkDownTest l)).trans ?_
      rw [State.linkDownTest_disabled (s := s.undue (.linkDown l)) he, hb]
      rfl
    · refine (congrArg Host.Outcome.next (State.runDue_follows hd rfl hs.2.1 fun s => s.linkUpTest l)).trans ?_
      rw [State.linkUpTest_disabled (s := s.undue (.linkUp l)) he, hb]
      rfl
    · have hexec : exec (.statusDeadline ⟨l, ahead⟩) s = .next (s.runDue (.statusDeadline l) fun s => s.deadline l) :=
        congrArg Host.Outcome.next (if_pos hd)
      rw [hexec, State.runDue_whole hd ⟨hs.2.1, hf⟩, State.deadline_disabled (s := s.undue (.statusDeadline l)) he, hb]
      rfl
  case up =>
    refine (congrArg Host.Outcome.next (State.runDue_follows hd rfl hs.2.1 fun s => s.linkUpTest l)).trans ?_
    have hup : (s.undue (.linkUp l)).linkUpTest l = { s with
        due := s.due.erase (.linkUp l)
        status := putAt s.status l { s.status[l] with linkUp := true, linkWindow := [] }
        rep := s.rep.raise s ⟨.linkUp, some l, none, 0⟩ } := if_pos he
    rw [hup]
    exact congrArg Host.Outcome.next (hs.1.finish_zones rfl rfl (fun _ => rfl) (zone_putAt rfl) rfl)
  case ready =>
    intro rest
    have hexec : exec (.loaderReady l) s = .next ((s.undue (.loaderReady l)).readyTest l).finish :=
      congrArg Host.Outcome.next (State.runDue_follows hd rfl hs.2.1 fun s => s.readyTest l)
    have hb : (s.undue (.loaderReady l)).finish = s.undue (.loaderReady l) := hs.1.finish_shown rfl rfl rfl rfl rfl
    rw [hexec]
    split
    · next hready =>
      have hend := State.Over.touched (c := 0) hs ((hr.undue (.loaderReady l)).readyTest l) State.Touches.readyTest
      rw [State.readyTest_eq (s := s.undue (.loaderReady l)) hready.1 hready.2] at hend ⊢
      have hrec : (((s.undue (.loaderReady l)).setAuth l .free).enterFree l).auth[l] = ⟨s.freedState l, s.auth[l].epoch⟩ := by
        rw [State.enterFree_record, putAt_same, State.setAuth_auth, putAt_same]
        rfl
      refine ⟨_, rfl, ?_, hend.walked.freed hend.tables ?_, ⟨_, rfl, rfl⟩, hend.kept, hend.authority⟩
      · rw [hend.walked.epoch, State.withRep_auth, hrec]
      · rw [State.withRep_auth, hrec]
    · next hready =>
      rw [State.readyTest_idle (s := s.undue (.loaderReady l)) hready, hb]
      rfl

end Sys2Proof
end

section
/-! PRESENT (R36, R37, R42): a chair's record, its place on the Free Chair List, and what the request reports. -/

namespace Sys2Proof.Machine

open Sys2Proof

/-- A chair's record, the list and the arbiter's call as a PRESENT leaves them. -/
def State.chairSet (s : State) (c : Chair) (x : ChairState) (list : List Chair) (called : Bool) : State :=
  { s with chairs := putAt s.chairs c x, freeList := list, walkCalled := called }

section present
variable {s : State} {h : Header} {tag : Word16} {c : Chair}

theorem State.Admits.exec_present {a extra} (ha : s.Admits (requestFrame h 0x01 tag (a :: extra)) c) :
    exec (.present h tag a extra) s = .next ((s.refreshPresence c).presentRequest c tag (a :: extra)).finish :=
  congrArg _ (ha.chairCommand _)

/-- The chair once it has become present. -/
def ChairState.presented (r : ChairState) (available : Bool) (timeout : Nat) (now : Word32) : ChairState :=
  { r with
    status := .idle, available := available, presence := timeout, missed := 0, engaged := none
    idleSince := if available then now else r.idleSince }

/-- The list with the chair at its tail, if it joins. -/
def listJoined (join : Bool) (c : Chair) (xs : List Chair) : List Chair := if join then xs.filter (· ≠ c) ++ [c] else xs

theorem State.setChair_joinList (s : State) (c : Chair) (x : ChairState) : (s.setChair c x).joinList c =
    s.chairSet c { x with idleSince := s.timer.number } (s.freeList.filter (· ≠ c) ++ [c]) true := by
  simp only [State.joinList, State.setChair_chairs, putAt_same, putAt_putAt]
  rfl

theorem State.present_absent (hp : s.chairs[c].status = .absent) {a : Byte} {available : Bool}
    (ha : availabilityOfArgs [a] = some available) :
    (s.refreshPresence c).presentRequest c tag [a] =
      (s.chairSet c (s.chairs[c].presented available s.tables.device.presenceTimeout s.timer.number)
        (listJoined available c s.freeList) (available || s.walkCalled)).withRep
      ((s.doneReport c tag none 0).raise { s with chairs := putAt s.chairs c { s.chairs[c] with status := .idle } }
        ⟨.chairPresent, none, some c, 0⟩) := by
  have hv : s.refreshPresence c = s := if_pos hp
  let x : ChairState := { s.chairs[c] with
    status := .idle, available := available, presence := s.tables.device.presenceTimeout, missed := 0, engaged := none }
  have hsame : State.SameReporting { s with chairs := putAt s.chairs c { s.chairs[c] with status := .idle } } (s.setChair c x) := by
    refine ⟨rfl, rfl, fun d => ?_⟩
    simp only [State.setChair_chairs, putAt_get]
    split
    · exact Iff.rfl
    · exact Iff.rfl
  have hreq : s.presentRequest c tag [a] =
      if available then (((s.setChair c x).withRep (s.doneReport c tag none 0)).raise .chairPresent none (some c)).joinList c
      else ((s.setChair c x).withRep (s.doneReport c tag none 0)).raise .chairPresent none (some c) := by
    simp only [State.presentRequest, ha, hp, if_true]
    rfl
  rw [hv, hreq, hsame.raise_rep]
  cases available with
  | true =>
    rw [if_pos rfl, State.withRep_joinList, State.setChair_joinList]
    rfl
  | false => rfl

/-- A present chair's record with its presence reloaded. -/
def ChairState.reloaded (r : ChairState) (timeout : Nat) : ChairState := { r with presence := timeout }

theorem State.reloaded_set (hp : s.chairs[c].status ≠ .absent) :
    s.refreshPresence c = s.setChair c (s.chairs[c].reloaded s.tables.device.presenceTimeout) := if_neg hp

theorem State.reloaded_twice (s : State) (c : Chair) : (s.refreshPresence c).refreshPresence c = s.refreshPresence c := by
  by_cases hp : s.chairs[c].status = .absent
  · have hv : s.refreshPresence c = s := if_pos hp
    rw [hv, hv]
  · have hp' : (s.setChair c (s.chairs[c].reloaded s.tables.device.presenceTimeout)).chairs[c].status ≠ .absent := by
      rwa [State.setChair_chairs, putAt_same]
    rw [State.reloaded_set hp, State.reloaded_set hp', State.setChair_chairs, putAt_same]
    exact congrArg (fun x => { s with chairs := x }) (putAt_putAt _ _ _ _)

theorem State.present_there (hp : s.chairs[c].status ≠ .absent) {a : Byte} {available : Bool}
    (ha : availabilityOfArgs [a] = some available) : (s.refreshPresence c).presentRequest c tag [a] =
      ((s.refreshPresence c).withRep (s.doneReport c tag none 0)).setAvailable c available := by
  have hp' : ¬ (s.refreshPresence c).chairs[c].status = .absent := by rwa [State.refreshPresence_chairStatus]
  simp only [State.presentRequest, ha, hp', if_false]
  rw [State.reloaded_doneNone, State.withRep_refreshPresence, State.reloaded_twice]

/-- A PRESENT that leaves the availability. -/
theorem State.present_same (hp : s.chairs[c].status ≠ .absent) {a : Byte} (ha : availabilityOfArgs [a] = some s.chairs[c].available) :
    (s.refreshPresence c).presentRequest c tag [a] =
      (s.chairSet c (s.chairs[c].reloaded s.tables.device.presenceTimeout) s.freeList s.walkCalled).withRep
        (s.doneReport c tag none 0) := by
  rw [State.present_there hp ha, State.reloaded_set hp, State.setAvailable, if_pos]
  · rfl
  · rw [State.withRep_chairs, State.setChair_chairs, putAt_same]
    rfl

/-- A present chair that becomes available; one that is IDLE joins the list. -/
def ChairState.madeAvailable (r : ChairState) (timeout : Nat) (now : Word32) : ChairState :=
  { r with available := true, presence := timeout, missed := 0, idleSince := if r.status = .idle then now else r.idleSince }

/-- A PRESENT that makes the chair available. -/
theorem State.present_on (hp : s.chairs[c].status ≠ .absent) (hav : s.chairs[c].available = false) {a : Byte}
    (ha : availabilityOfArgs [a] = some true) :
    (s.refreshPresence c).presentRequest c tag [a] =
      (s.chairSet c (s.chairs[c].madeAvailable s.tables.device.presenceTimeout s.timer.number)
        (listJoined (decide (s.chairs[c].status = .idle)) c s.freeList) (decide (s.chairs[c].status = .idle) || s.walkCalled)).withRep
        ((s.doneReport c tag none 0).raise s ⟨.chairAvailable, none, some c, 0⟩) := by
  let x : ChairState := { s.chairs[c] with available := true, presence := s.tables.device.presenceTimeout, missed := 0 }
  have hsame : s.SameReporting (s.setChair c x) := State.sameReporting_of_chair s rfl rfl rfl Iff.rfl
  have hset : ((s.refreshPresence c).withRep (s.doneReport c tag none 0)).setAvailable c true =
      (let t := ((s.setChair c x).withRep (s.doneReport c tag none 0)).raise .chairAvailable none (some c)
       if t.chairs[c].status = .idle then t.joinList c else t) := by
    have htwice (y z : ChairState) : (s.setChair c y).setChair c z = s.setChair c z :=
      congrArg (fun w => { s with chairs := w }) (putAt_putAt _ _ _ _)
    rw [State.reloaded_set hp, State.setAvailable]
    simp only [State.withRep_chairs, State.setChair_chairs, putAt_same, ChairState.reloaded, hav, Bool.true_eq_false, if_false,
      if_true, State.withRep_setChair, htwice]
    rfl
  rw [State.present_there hp ha, hset, hsame.raise_rep]
  simp only [State.withRep_chairs, State.setChair_chairs, putAt_same]
  by_cases hi : s.chairs[c].status = .idle
  · rw [if_pos (show x.status = .idle from hi), State.withRep_joinList, State.setChair_joinList]
    simp only [decide_eq_true hi, ChairState.madeAvailable, if_pos hi]
    rfl
  · rw [if_neg (show ¬ x.status = .idle from hi)]
    simp only [decide_eq_false hi, ChairState.madeAvailable, if_neg hi]
    rfl

/-- A PRESENT that makes the chair unavailable. -/
theorem State.present_off (hp : s.chairs[c].status ≠ .absent) (hav : s.chairs[c].available = true) {a : Byte}
    (ha : availabilityOfArgs [a] = some false) :
    (s.refreshPresence c).presentRequest c tag [a] =
      (s.chairSet c { s.chairs[c] with available := false, presence := s.tables.device.presenceTimeout }
        (s.freeList.filter (· ≠ c)) s.walkCalled).withRep
        ((s.doneReport c tag none 0).raise s ⟨.chairUnavailable, none, some c, 1⟩) := by
  let x : ChairState := { s.chairs[c] with available := false, presence := s.tables.device.presenceTimeout }
  have hsame : s.SameReporting (s.setChair c x) := State.sameReporting_of_chair s rfl rfl rfl Iff.rfl
  have hset : ((s.refreshPresence c).withRep (s.doneReport c tag none 0)).setAvailable c false =
      (((s.setChair c x).withRep (s.doneReport c tag none 0)).raise .chairUnavailable none (some c) unavailableRequest).leaveList c := by
    have htwice (y z : ChairState) : (s.setChair c y).setChair c z = s.setChair c z :=
      congrArg (fun w => { s with chairs := w }) (putAt_putAt _ _ _ _)
    rw [State.reloaded_set hp, State.setAvailable]
    simp only [State.withRep_chairs, State.setChair_chairs, putAt_same, ChairState.reloaded, hav, Bool.false_eq_true, if_false,
      State.withRep_setChair, htwice]
    rfl
  rw [State.present_there hp ha, hset, hsame.raise_rep]
  rfl

end present

/-! ## Once the event is over -/

section finished
variable {s : State} {c : Chair} {x : ChairState} {list : List Chair} {called : Bool} {r : Report}

/-- A PRESENT's event is over: the walk, the records kept, and authority alone written. -/
theorem State.Ready.chairSet_finish (h : s.Ready) (hu : ((s.chairSet c x list called).withRep r).RecordsAgree) :
    ((s.chairSet c x list called).withRep r).Walked ((s.chairSet c x list called).withRep r).finish
      ∧ (∀ l : Loader, s.Kept ((s.chairSet c x list called).withRep r).finish l)
      ∧ s.OnlyAuthority ((s.chairSet c x list called).withRep r).finish := by
  obtain ⟨-, hwalk, hstart⟩ := h.idle
  have hcs : ((s.chairSet c x list called).withRep r).cycleStarting = false := hstart
  have hw := hu.walked hcs
  exact ⟨hw, fun l => hw.kept rfl rfl, State.onlyAuthority_of_rest (State.finish_rest _)
    ((State.finish_walkCalled_off hcs).trans hwalk.symm)⟩

/-- A chair that was IDLE with no place and joined the list has rejoined. -/
theorem State.chairSet_hasLeft (hi : x.status = .idle) (he : x.engaged = none) (ha : x.available = true)
    (hn : x.idleSince = s.timer.number) : s.HasLeft ((s.chairSet c x (listJoined true c s.freeList) called).withRep r) c := by
  have hx : ((s.chairSet c x (listJoined true c s.freeList) called).withRep r).chairs[c] = x := putAt_same _ _ _
  constructor
  · rw [hx, hi]
  · rw [hx, he]
  · exact List.Sublist.refl _
  · rw [hx, if_pos ha]
    exact ⟨hn, by simp [listJoined, State.chairSet]⟩

/-- An IDLE chair stays so, or the walk has offered it a loader. -/
theorem State.Walked.idleAgain {u t : State} (hw : u.Walked t) (hi : u.chairs[c].status = .idle) (he : u.chairs[c].engaged = none) :
    t.idleAgain c = true := by
  obtain ⟨hc, -⟩ | ⟨-, -, k, w, n, timer, hc, ha⟩ := hw.chairs c
  · simp only [State.idleAgain, hc, hi, he]
  · simp only [State.idleAgain, hc, ha, decide_true]

/-- With no walk called for, the list is as the row left it. -/
theorem State.chairSet_uncalled : ((s.chairSet c x list false).withRep r).finish.freeList = list := by
  rw [State.finish_idle rfl]
  rfl

/-- A present chair keeps its place, or is IDLE as it was. -/
theorem State.chairSet_place {t : State} (hw : ((s.chairSet c x list called).withRep r).Walked t) (hr : s.RecordsAgree) (hp : s.chairs[c].status ≠ .absent) (hs : x.status = s.chairs[c].status)
    (he : x.engaged = s.chairs[c].engaged) (hl : s.chairs[c].status ≠ .idle → c ∉ list) :
    if s.chairs[c].status = .absent ∨ s.chairs[c].status = .idle then t.idleAgain c = true
    else t.chairs[c].status = s.chairs[c].status ∧ t.chairs[c].engaged = s.chairs[c].engaged := by
  have hx : ((s.chairSet c x list called).withRep r).chairs[c] = x := putAt_same _ _ _
  split
  · next hi =>
    have hi := hi.resolve_left hp
    exact hw.idleAgain (by rw [hx, hs, hi]) (by rw [hx, he, hr.idle_engaged hi])
  · next hi =>
    rw [not_or] at hi
    rw [hw.chair hx (hl hi.2)]
    exact ⟨hs, he⟩

/-- The counts of the chair, once the event is over. -/
theorem State.chairSet_counts {t : State} (hw : ((s.chairSet c x list called).withRep r).Walked t) :
    t.chairs[c].lastEnded = x.lastEnded ∧ t.chairs[c].missed = x.missed ∧ t.chairs[c].available = x.available
      ∧ t.chairs[c].presence = x.presence ∧ t.chairs[c].idleSince = x.idleSince := by
  have hx : ((s.chairSet c x list called).withRep r).chairs[c] = x := putAt_same _ _ _
  have hcounts := hw.chair_counts c
  rwa [hx] at hcounts

theorem State.chairSet_unlisted {t : State} (hw : ((s.chairSet c x list called).withRep r).Walked t) (hc : c ∉ list) :
    c ∉ t.freeList := fun hm => hc (hw.freeList.subset hm)

end finished

/-! ## The four cases of a PRESENT -/

/-- What a PRESENT has done once its event is over (R36, R42, R45). -/
def State.Presented (s t : State) (c : Chair) (tag : Word16) (available : Bool) : Prop :=
  let r := s.chairs[c]
  (if r.status = .absent ∨ r.status = .idle then t.idleAgain c = true
   else t.chairs[c].status = r.status ∧ t.chairs[c].engaged = r.engaged)
  ∧ t.chairs[c].available = available ∧ t.chairs[c].presence = s.tables.device.presenceTimeout
  ∧ t.chairs[c].missed = (if r.status = .absent ∨ (available = true ∧ r.available = false) then 0 else r.missed)
  ∧ t.chairs[c].lastEnded = r.lastEnded ∧ (available = false → c ∉ t.freeList)
  ∧ (if available = true ∧ (r.status = .absent ∨ (r.status = .idle ∧ r.available = false)) then s.Rejoined t c
     else t.chairs[c].idleSince = r.idleSince ∧ (available = true → t.freeList = s.freeList))
  ∧ (let done := s.doneReport c tag none 0
     t.Reported (
       if r.status = .absent then
         done.raise { s with chairs := putAt s.chairs c { r with status := .idle } } ⟨.chairPresent, none, some c, 0⟩
       else if available = r.available then done
       else done.raise s
         (if available then ⟨.chairAvailable, none, some c, 0⟩ else ⟨.chairUnavailable, none, some c, 1⟩)))
  ∧ (∀ l : Loader, s.Kept t l) ∧ s.OnlyAuthority t

section cases
variable {s : State} {tag : Word16} {c : Chair} {a : Byte} {available : Bool} (hready : s.Ready) (hr : s.RecordsAgree)
include hready hr

theorem State.presented_absent (hp : s.chairs[c].status = .absent) (hav : availabilityOfArgs [a] = some available) :
    s.Presented ((s.refreshPresence c).presentRequest c tag [a]).finish c tag available := by
  have hagree : ((s.refreshPresence c).presentRequest c tag [a]).RecordsAgree := (hr.refreshPresence c).presentRequest _ _ _
  rw [State.present_absent hp hav] at hagree ⊢
  obtain ⟨hw, hk, ho⟩ := hready.chairSet_finish hagree
  obtain ⟨hlast, hmissed, havail, hpres, hsince⟩ := State.chairSet_counts hw
  refine ⟨?_, havail, hpres, ?_, hlast, fun hoff => ?_, ?_, ⟨_, (if_pos hp).symm, rfl⟩, hk, ho⟩
  · rw [if_pos (.inl hp)]
    refine hw.idleAgain ?_ ?_
    · rw [State.withRep_chairs, State.chairSet, putAt_same]
      rfl
    · rw [State.withRep_chairs, State.chairSet, putAt_same]
      rfl
  · rw [if_pos (.inl hp)]
    exact hmissed
  · refine State.chairSet_unlisted hw ?_
    rw [hoff]
    exact hr.2.1.not_listed (by rw [hp]; decide)
  · cases available with
    | true =>
      rw [if_pos ⟨rfl, .inl hp⟩]
      exact (State.chairSet_hasLeft rfl rfl rfl rfl).rejoined hw
    | false =>
      rw [if_neg (fun hn => Bool.false_ne_true hn.1)]
      exact ⟨hsince, nofun⟩

theorem State.presented_same (hp : s.chairs[c].status ≠ .absent) (hav : availabilityOfArgs [a] = some s.chairs[c].available) :
    s.Presented ((s.refreshPresence c).presentRequest c tag [a]).finish c tag s.chairs[c].available := by
  have hagree : ((s.refreshPresence c).presentRequest c tag [a]).RecordsAgree := (hr.refreshPresence c).presentRequest _ _ _
  have hwalk : s.walkCalled = false := hready.1.2.2.1
  have hchanged {p : Prop} (hn : s.chairs[c].available = true ∧ s.chairs[c].available = false) : p :=
    absurd (hn.1.symm.trans hn.2) (by decide)
  rw [State.present_same hp hav] at hagree ⊢
  obtain ⟨hw, hk, ho⟩ := hready.chairSet_finish hagree
  obtain ⟨hlast, hmissed, havail, hpres, hsince⟩ := State.chairSet_counts hw
  refine ⟨State.chairSet_place hw hr hp rfl rfl fun hi => hr.2.1.not_listed hi, havail, hpres, ?_, hlast, fun hoff => ?_, ?_,
    ⟨_, ?_, rfl⟩, hk, ho⟩
  · rw [if_neg (not_or.mpr ⟨hp, hchanged⟩)]
    exact hmissed
  · refine State.chairSet_unlisted hw fun hm => ?_
    exact hchanged ⟨(hr.2.1.1 c hm).2, hoff⟩
  · rw [if_neg]
    · refine ⟨hsince, fun _ => ?_⟩
      rw [hwalk]
      exact State.chairSet_uncalled
    · rintro ⟨hon, hn | ⟨-, hoff⟩⟩
      · exact hp hn
      · exact hchanged ⟨hon, hoff⟩
  · rw [if_neg hp, if_pos rfl]
    rfl

theorem State.presented_on (hp : s.chairs[c].status ≠ .absent) (hoff : s.chairs[c].available = false)
    (hav : availabilityOfArgs [a] = some true) :
    s.Presented ((s.refreshPresence c).presentRequest c tag [a]).finish c tag true := by
  have hagree : ((s.refreshPresence c).presentRequest c tag [a]).RecordsAgree := (hr.refreshPresence c).presentRequest _ _ _
  have hwalk : s.walkCalled = false := hready.1.2.2.1
  rw [State.present_on hp hoff hav] at hagree ⊢
  obtain ⟨hw, hk, ho⟩ := hready.chairSet_finish hagree
  obtain ⟨hlast, hmissed, havail, hpres, hsince⟩ := State.chairSet_counts hw
  refine ⟨State.chairSet_place hw hr hp rfl rfl fun hi => ?_, havail, hpres, ?_, hlast, nofun, ?_, ⟨_, ?_, rfl⟩, hk, ho⟩
  · rw [decide_eq_false hi]
    exact hr.2.1.not_listed hi
  · rw [if_pos (.inr ⟨rfl, hoff⟩)]
    exact hmissed
  · by_cases hi : s.chairs[c].status = .idle
    · rw [if_pos ⟨rfl, .inr ⟨hi, hoff⟩⟩]
      simp only [decide_eq_true hi] at hw ⊢
      have hjoined : s.HasLeft _ c := State.chairSet_hasLeft (called := true) (r := (s.doneReport c tag none 0).raise s
        ⟨.chairAvailable, none, some c, 0⟩) (x := s.chairs[c].madeAvailable s.tables.device.presenceTimeout s.timer.number) hi
        (hr.idle_engaged hi) rfl (if_pos hi)
      exact hjoined.rejoined hw
    · rw [if_neg]
      · refine ⟨hsince.trans (if_neg hi), fun _ => ?_⟩
        simp only [decide_eq_false hi, hwalk]
        exact State.chairSet_uncalled
      · rintro ⟨-, hn | ⟨hidle, -⟩⟩
        · exact hp hn
        · exact hi hidle
  · rw [if_neg hp, if_neg (by rw [hoff]; decide), if_pos rfl]
    rfl

theorem State.presented_off (hp : s.chairs[c].status ≠ .absent) (hon : s.chairs[c].available = true)
    (hav : availabilityOfArgs [a] = some false) :
    s.Presented ((s.refreshPresence c).presentRequest c tag [a]).finish c tag false := by
  have hagree : ((s.refreshPresence c).presentRequest c tag [a]).RecordsAgree := (hr.refreshPresence c).presentRequest _ _ _
  have hunlisted : c ∉ s.freeList.filter (· ≠ c) := by simp
  rw [State.present_off hp hon hav] at hagree ⊢
  obtain ⟨hw, hk, ho⟩ := hready.chairSet_finish hagree
  obtain ⟨hlast, hmissed, havail, hpres, hsince⟩ := State.chairSet_counts hw
  refine ⟨State.chairSet_place hw hr hp rfl rfl fun _ => hunlisted, havail, hpres, ?_, hlast,
    fun _ => State.chairSet_unlisted hw hunlisted, ?_, ⟨_, ?_, rfl⟩, hk, ho⟩
  · rw [if_neg (not_or.mpr ⟨hp, fun hn => Bool.false_ne_true hn.1⟩)]
    exact hmissed
  · rw [if_neg (fun hn => Bool.false_ne_true hn.1)]
    exact ⟨hsince, nofun⟩
  · rw [if_neg hp, if_neg (by rw [hon]; decide), if_neg Bool.false_ne_true]
    rfl

/-- Whatever the chair was, a PRESENT does this. -/
theorem State.presented (hav : availabilityOfArgs [a] = some available) :
    s.Presented ((s.refreshPresence c).presentRequest c tag [a]).finish c tag available := by
  by_cases hp : s.chairs[c].status = .absent
  · exact State.presented_absent hready hr hp hav
  · cases hold : s.chairs[c].available with
    | false =>
      cases available with
      | false => exact hold ▸ State.presented_same hready hr hp (hold.symm ▸ hav)
      | true => exact State.presented_on hready hr hp hold hav
    | true =>
      cases available with
      | true => exact hold ▸ State.presented_same hready hr hp (hold.symm ▸ hav)
      | false => exact State.presented_off hready hr hp hold hav

end cases

end Sys2Proof.Machine

namespace Sys2Proof

open Machine

/-- Settles O32: an ABSENT chair becomes IDLE; a present one keeps its place, and its availability is set. -/
theorem presentMakesTheChairPresent : Obligations.PresentMakesTheChairPresent := by
  intro s h tag a c ha hr r available
  have hexec : exec (.present h tag a []) s = .next ((s.refreshPresence c).presentRequest c tag [a]).finish :=
    ha.exec_present (extra := [])
  have hquiet : s.Quiet := ha.1.1
  rw [hexec]
  split
  · next harg =>
    have hav : availabilityOfArgs [a] = some available := by
      obtain rfl | rfl := harg
      · rfl
      · rfl
    exact ⟨_, rfl, State.presented ha.1 hr hav⟩
  · next harg =>
    have hav : availabilityOfArgs [a] = none := by
      rw [not_or] at harg
      simp only [availabilityOfArgs, harg.1, harg.2, if_false]
    have hreq : (s.refreshPresence c).presentRequest c tag [a] = (s.refreshPresence c).refuse c tag none .badArgument := by
      simp only [State.presentRequest, hav]
    rw [hreq, hquiet.finish_refused]

end Sys2Proof
end

section
/-! The end of a chair's place (R40, R167): the record of the loader, the chair, and what is reported. -/

namespace Sys2Proof.Machine

open Sys2Proof

/-! ## A chair that others' places leave alone -/

/-- The chair and its place on the Free Chair List are as they were. -/
structure State.Spares (c : Chair) (s u : State) : Prop where
  chair : u.chairs[c] = s.chairs[c]
  listed : c ∈ u.freeList ↔ c ∈ s.freeList

namespace State.Spares
variable {s t u : State} {c d : Chair} {l : Loader}

theorem refl (s : State) : State.Spares c s s := ⟨rfl, Iff.rfl⟩

theorem trans (h : State.Spares c s t) (h' : State.Spares c t u) : State.Spares c s u :=
  ⟨h'.chair.trans h.chair, h'.listed.trans h.listed⟩

theorem of_lists (hc : u.chairs = s.chairs) (hf : u.freeList = s.freeList) : State.Spares c s u :=
  ⟨by rw [hc], by rw [hf]⟩

theorem setChair (h : d ≠ c) (x : ChairState) : State.Spares c s (s.setChair d x) :=
  ⟨by rw [State.setChair_chairs, putAt_other _ _ h], Iff.rfl⟩

theorem joinList (h : d ≠ c) : State.Spares c s (s.joinList d) := by
  refine ⟨by rw [State.joinList_chairs, putAt_other _ _ h], ?_⟩
  rw [State.joinList_freeList]
  simp [Ne.symm h]

theorem release (h : d ≠ c) : State.Spares c s (s.release d) := by
  by_cases hp : s.chairs[d].status = .absent
  · rw [State.release_absent hp]
    exact setChair h _
  · cases ha : s.chairs[d].available
    · rw [State.release_unavailable hp ha]
      exact setChair h _
    · rw [State.release_available hp ha]
      exact (setChair h _).trans (joinList h)

theorem offerGone (h : d ≠ c) (n) : State.Spares c s (s.offerGone d n) := (setChair h _).trans (release h)

theorem endMatching (h : d ≠ c) (l) : State.Spares c s (s.endMatching l d) := by
  have hrel : State.Spares c (s.clearMatch l) ((s.clearMatch l).release d) := release h
  exact ⟨hrel.chair, hrel.listed⟩

theorem standParties (ho : s.auth[l].state.offeredChair ≠ some c) (hm : s.auth[l].state.candidate ≠ some c) :
    State.Spares c s (s.standParties l) := by
  unfold State.standParties
  cases ha : s.auth[l].state with
  | offered h x o n p m =>
    have hx : x ≠ c := fun he => ho (by rw [ha, he]; rfl)
    have hgone : State.Spares c s ((s.withdrawn l x n .stand).offerGone x n) :=
      (of_lists (s := s) (u := s.withdrawn l x n .stand) rfl rfl).trans (offerGone hx n)
    exact ⟨hgone.chair, hgone.listed⟩
  | matching h x o p m =>
    have hx : x ≠ c := fun he => hm (by rw [ha, he]; rfl)
    exact (of_lists (s := s) (u := s.aborted l x .stand) rfl rfl).trans (endMatching hx l)
  | _ => exact ⟨rfl, Iff.rfl⟩

theorem reportStand (h cause) : State.Spares c s (s.reportStand l h cause) := by
  obtain ⟨r, hr⟩ := s.reportStand_eq l h cause
  rw [hr]
  exact of_lists rfl rfl

theorem returnLoader : State.Spares c s (s.returnLoader l) := by
  obtain ⟨hc, hf, -⟩ := s.returnLoader_lists l
  exact of_lists hc hf

end State.Spares

/-- The record of a chair once it has left its place. -/
def ChairState.released (r : ChairState) (now : Word32) : ChairState :=
  if r.status = .absent then { r with engaged := none }
  else { r with status := .idle, engaged := none, idleSince := if r.available then now else r.idleSince }

/-- A release writes the chair and, where it is present and available, lists it. -/
theorem State.release_released {s : State} {c : Chair} (hc : c ∉ s.freeList) :
    (s.release c).chairs[c] = s.chairs[c].released s.timer.number
      ∧ (c ∈ (s.release c).freeList ↔ s.chairs[c].status ≠ .absent ∧ s.chairs[c].available = true) := by
  by_cases hp : s.chairs[c].status = .absent
  · rw [State.release_absent hp, State.setChair_chairs, putAt_same, ChairState.released, if_pos hp]
    exact ⟨rfl, fun hm => absurd hm hc, fun hn => absurd hp hn.1⟩
  · rw [ChairState.released, if_neg hp]
    by_cases ha : s.chairs[c].available = true
    · rw [State.release_available hp ha, State.joinList_chairs, State.setChair_chairs, putAt_same, putAt_same, if_pos ha]
      refine ⟨rfl, fun _ => ⟨hp, ha⟩, fun _ => ?_⟩
      rw [State.joinList_freeList]
      simp
    · rw [State.release_unavailable hp (Bool.eq_false_of_not_eq_true ha), State.setChair_chairs, putAt_same, if_neg ha]
      exact ⟨rfl, fun hm => absurd hm hc, fun hn => absurd hn.2 ha⟩

/-! ## The place of a chair ends (R40, R167) -/

/-- What the end of chair c's place makes of loader l and of the chair. -/
def State.placeEnded (s : State) (c : Chair) (l : Loader) : State :=
  let a := s.auth[l].state
  if a.holder = some c then
    match a with
    | .standing _ cause => s.letGo l c (.standing none cause)
    | _ => s.standEntry l .chairLost
  else if a.offeredChair = some c then s.endOffer l c (a.number.getD 0) .permit (·.returnLoader l)
  else if a.candidate = some c then (s.endMatching l c).returnLoader l
  else s

/-- The record of a loader that a chair has left. -/
def State.abandonedRecord (s : State) (l : Loader) (c : Chair) : AuthRecord :=
  if s.auth[l].state.holder = some c then
    match s.auth[l].state with
    | .standing _ cause => ⟨.standing none cause, s.auth[l].epoch + 1⟩
    | _ => ⟨.standing none .chairLost, s.auth[l].epoch + 1⟩
  else ⟨s.returnState l, s.auth[l].epoch⟩

/-- The chair has a place in the record, and one alone. -/
structure AuthState.Seats (a : AuthState) (c : Chair) : Prop where
  named : a.holder = some c ∨ a.offeredChair = some c ∨ a.candidate = some c
  once : a.holder = some c → a.offeredChair ≠ some c ∧ a.candidate ≠ some c

theorem State.RecordsAgree.seats {s : State} (h : s.RecordsAgree) {c : Chair} {l : Loader} (he : s.chairs[c].engaged = some l) :
    s.auth[l].state.Seats c := by
  have hpl := h.place_of_engaged he
  constructor
  · by_contra hn
    rw [not_or, not_or] at hn
    rw [AuthState.placesOf, if_neg hn.1, if_neg hn.2.1, if_neg hn.2.2] at hpl
    exact nomatch hpl
  · intro hh
    exact ⟨fun ho => (h.party l).2 c (.inl ho) hh, fun hm => (h.party l).2 c (.inr hm) hh⟩

section placeEnded
variable {s : State} {c : Chair} {l : Loader}

theorem State.letGo_auth (s : State) (l : Loader) (c : Chair) (a : AuthState) :
    (s.letGo l c a).auth = putAt s.auth l ⟨a, s.auth[l].epoch + 1⟩ := by
  simp only [State.letGo, State.setAuth_auth, State.release_auth, State.advanceEpoch_auth, putAt_same, putAt_putAt]

theorem State.endOffer_return_record (s : State) (l : Loader) (c : Chair) (n way) :
    (s.endOffer l c n way (·.returnLoader l)).auth = putAt s.auth l ⟨s.returnState l, s.auth[l].epoch⟩ := by
  rw [State.endOffer_auth, State.returnLoader_record, (State.SameFor.offerGone s l c n).returnState, State.offerGone_auth]

theorem State.endMatching_return_record (s : State) (l : Loader) (c : Chair) :
    ((s.endMatching l c).returnLoader l).auth = putAt s.auth l ⟨s.returnState l, s.auth[l].epoch⟩ := by
  rw [State.returnLoader_record, (State.SameFor.endMatching s l c).returnState, State.endMatching_auth]

theorem State.placeEnded_auth (h : s.auth[l].state.Seats c) : (s.placeEnded c l).auth = putAt s.auth l (s.abandonedRecord l c) := by
  unfold State.placeEnded State.abandonedRecord
  dsimp only
  by_cases hh : s.auth[l].state.holder = some c
  · rw [if_pos hh, if_pos hh]
    have hentry : (s.standEntry l .chairLost).auth = putAt s.auth l ⟨.standing none .chairLost, s.auth[l].epoch + 1⟩ := by
      rw [State.standEntry_record, State.standEpoch, hh]
      rfl
    cases ha : s.auth[l].state with
    | standing y cause => exact s.letGo_auth l c _
    | _ => exact hentry
  · rw [if_neg hh, if_neg hh]
    by_cases ho : s.auth[l].state.offeredChair = some c
    · rw [if_pos ho]
      exact s.endOffer_return_record l c _ _
    · have hm : s.auth[l].state.candidate = some c := by
        obtain hn | hn | hn := h.named
        · exact absurd hn hh
        · exact absurd hn ho
        · exact hn
      rw [if_neg ho, if_pos hm]
      exact s.endMatching_return_record l c

theorem State.placeEnded_rest (s : State) (c : Chair) (l : Loader) : (s.placeEnded c l).rest = s.rest := by
  unfold State.placeEnded
  dsimp only
  split
  · split
    · exact s.letGo_rest _ _ _
    · exact s.standEntry_rest _ _
  split
  · exact s.endOffer_rest _ _ _ _ _ fun s => s.returnLoader_rest l
  split
  · exact (State.returnLoader_rest _ l).trans (s.endMatching_rest l c)
  · rfl

/-- A stand for CHAIR_LOST releases the holder and leaves it so. -/
theorem State.standEntry_released (hh : s.auth[l].state.holder = some c)
    (hn : s.auth[l].state.offeredChair ≠ some c ∧ s.auth[l].state.candidate ≠ some c) :
    State.Spares c ((s.advanceEpoch l).release c) (s.standEntry l .chairLost) := by
  have hholder : s.standHolder l .chairLost = (s.advanceEpoch l).release c := by
    simp only [State.standHolder, hh]
    rfl
  have hstate : ((s.advanceEpoch l).release c).auth[l].state = s.auth[l].state := by
    rw [State.release_auth, State.advanceEpoch_state]
  have hparties : State.Spares c ((s.advanceEpoch l).release c) (((s.advanceEpoch l).release c).standParties l) :=
    State.Spares.standParties (by rw [hstate]; exact hn.1) (by rw [hstate]; exact hn.2)
  rw [State.standEntry, hholder]
  exact (hparties.trans (.of_lists (u := (((s.advanceEpoch l).release c).standParties l).setAuth l _) rfl rfl)).trans
    (State.Spares.reportStand _ _)

/-- The chair once its place has ended: released, with the offer that ended recorded. -/
theorem State.placeEnded_chair (h : s.auth[l].state.Seats c) (hc : c ∉ s.freeList) :
    (s.placeEnded c l).chairs[c] =
        { s.chairs[c].released s.timer.number with lastEnded := (s.placeEnded c l).chairs[c].lastEnded }
      ∧ (c ∈ (s.placeEnded c l).freeList ↔ s.chairs[c].status ≠ .absent ∧ s.chairs[c].available = true) := by
  have hspares {v u : State} (hv : v.chairs[c] = s.chairs[c]) (ht : v.timer = s.timer) (hf : v.freeList = s.freeList)
      (hu : State.Spares c (v.release c) u) : u.chairs[c] = { s.chairs[c].released s.timer.number with lastEnded := u.chairs[c].lastEnded }
        ∧ (c ∈ u.freeList ↔ s.chairs[c].status ≠ .absent ∧ s.chairs[c].available = true) := by
    obtain ⟨hrel, hlist⟩ := State.release_released (s := v) (c := c) (by rwa [hf])
    rw [hv, ht] at hrel
    rw [hv] at hlist
    exact ⟨by rw [hu.chair, hrel], hu.listed.trans hlist⟩
  unfold State.placeEnded
  dsimp only
  by_cases hh : s.auth[l].state.holder = some c
  · rw [if_pos hh]
    have hentry := hspares (v := s.advanceEpoch l) rfl rfl rfl (State.standEntry_released hh (h.once hh))
    cases ha : s.auth[l].state with
    | standing y cause => exact hspares (v := s.advanceEpoch l) rfl rfl rfl (.of_lists rfl rfl)
    | _ => exact hentry
  · rw [if_neg hh]
    by_cases ho : s.auth[l].state.offeredChair = some c
    · rw [if_pos ho]
      generalize s.auth[l].state.number.getD 0 = n
      obtain ⟨hrel, hlist⟩ := State.release_released (s := s.setChair c { s.chairs[c] with lastEnded := some n }) (c := c) hc
      obtain ⟨hchairs, hfree, -⟩ := (s.offerGone c n).returnLoader_lists l
      rw [State.setChair_chairs, putAt_same] at hrel hlist
      rw [State.endOffer_eq]
      generalize hw : (s.offerGone c n).returnLoader l = w at hchairs hfree
      have hwc : w.chairs[c] = ({ s.chairs[c] with lastEnded := some n } : ChairState).released s.timer.number := by
        rw [hchairs]
        exact hrel
      refine ⟨?_, ?_⟩
      · change w.chairs[c] = { s.chairs[c].released s.timer.number with lastEnded := w.chairs[c].lastEnded }
        rw [hwc]
        unfold ChairState.released
        split
        · rfl
        · rfl
      · change c ∈ w.freeList ↔ _
        rw [hfree]
        exact hlist
    · have hm : s.auth[l].state.candidate = some c := by
        obtain hn | hn | hn := h.named
        · exact absurd hn hh
        · exact absurd hn ho
        · exact hn
      rw [if_neg ho, if_pos hm]
      exact hspares (v := s.clearMatch l) rfl rfl rfl State.Spares.returnLoader

end placeEnded

end Sys2Proof.Machine
end

section
/-! LEAVE, PRESENCE_EXPIRY and an applied CHAIRS entry (R39, R38, R41, R167). -/

namespace Sys2Proof.Machine

open Sys2Proof

/-! ## A loader that a chair has left -/

/-- The end of a place moves the loader as R40 gives it, the walk's offers allowed for. -/
theorem State.Walked.abandoned {s u t : State} {c : Chair} {l : Loader} (hw : u.Walked t) (htab : u.tables = s.tables)
    (ha : u.auth[l] = s.abandonedRecord l c) : s.abandoned t l c = true := by
  unfold State.abandonedRecord at ha
  unfold State.abandoned
  by_cases hh : s.auth[l].state.holder = some c
  · rw [if_pos hh] at ha ⊢
    cases hs : s.auth[l].state with
    | standing y cause =>
      rw [hs] at ha
      exact decide_eq_true (hw.record ha rfl)
    | _ =>
      rw [hs] at ha
      exact decide_eq_true (hw.record ha rfl)
  · rw [if_neg hh] at ha ⊢
    exact hw.returned htab ha

/-! ## What the end of a place reports -/

/-- The reports of a place ended by the chair's absence, the chair being sent nothing (R40). -/
def State.absentReport (s : State) (c : Chair) (l : Loader) (r : Report) : Report :=
  let a := s.auth[l].state
  if a.holder = some c then (if a.isStanding then r else s.standReport l .chairLost r)
  else if a.offeredChair = some c then (s.returnReport l r).raise s ⟨.offerEnded, some l, some c, 4⟩
  else if a.candidate = some c then s.returnReport l r
  else r

section report
variable {s t : State} {c : Chair} {l : Loader} {r : Report}

theorem State.SameFor.absentReport (h : State.SameFor l s t) (r : Report) :
    t.absentReport c l r = s.absentReport c l r := by
  simp only [State.absentReport, h.auth, h.standReport, h.returnReport, Report.raise_same h.toSameReporting]

/-- However an offer ends, only its report tells. -/
theorem State.endOffer_way (s : State) (r : Report) (l c n) (way way' : OfferEnd) :
    (s.endOffer l c n way (·.returnLoader l)).withRep r = (s.endOffer l c n way' (·.returnLoader l)).withRep r := by
  have hrep (u : State) (e k d w) : (u.raise e k d w).callWalk.withRep r = u.callWalk.withRep r := rfl
  rw [State.endOffer_eq, State.endOffer_eq, hrep, hrep]

/-! ### A retained holder -/

section retained
variable {cause : Cause} (ha : s.auth[l].state = .standing (some c) cause)
include ha

theorem State.placeEnded_retained : s.placeEnded c l = s.letGo l c (.standing none cause) := by
  simp only [State.placeEnded, ha, AuthState.holder, if_true]

theorem State.absent_retained : (s.withRep r).absentPlace c l = (s.placeEnded c l).withRep (s.absentReport c l r) := by
  have hplace : (s.withRep r).absentPlace c l = (s.withRep r).dropRetained l := by
    simp only [State.absentPlace, State.withRep_auth, ha, if_true]
  have hrep : s.absentReport c l r = r := by
    simp only [State.absentReport, ha, AuthState.holder, AuthState.isStanding, if_true]
  rw [hplace, hrep, State.placeEnded_retained ha, State.withRep_dropRetained, State.dropRetained_letGo ha]

theorem State.permit_retained : (s.withRep r).permitEnds c l = (s.placeEnded c l).withRep (s.permitReport c l r) := by
  have hplace : (s.withRep r).permitEnds c l = ((s.withRep r).dropRetained l).noticeIfPresent (some c)
      (standNotice l cause ((s.withRep r).dropRetained l).auth[l].epoch) := by
    simp only [State.permitEnds, State.withRep_auth, ha, if_true]
  have hrep : s.permitReport c l r = if s.chairs[c].status = .absent then r
      else r.sends s c .stand l (s.auth[l].epoch + 1) cause.code := by
    simp only [State.permitReport, ha, AuthState.holder, if_true]
  have hepoch : (s.letGo l c (.standing none cause)).auth[l].epoch = s.auth[l].epoch + 1 := by
    rw [State.letGo_auth, putAt_same]
  have hsame := s.letGo_same l c (.standing none cause)
  rw [hplace, hrep, State.placeEnded_retained ha, State.withRep_dropRetained, State.dropRetained_letGo ha,
    State.withRep_auth, hepoch, State.noticeIfPresent, State.withRep_chairs]
  generalize s.letGo l c (.standing none cause) = u at hsame
  by_cases hp : s.chairs[c].status = .absent
  · rw [if_pos hp, if_pos ((hsame.present c).mpr hp)]
  · rw [if_neg hp, if_neg (fun h => hp ((hsame.present c).mp h)), hsame.notice_rep]
    rfl

end retained

/-! ### A holder of a loader that does not stand -/

section holder
variable (hh : s.auth[l].state.holder = some c) (hs : s.auth[l].state.isStanding = false)
include hh hs

theorem State.placeEnded_holder : s.placeEnded c l = s.standEntry l .chairLost := by
  unfold State.placeEnded
  dsimp only
  rw [if_pos hh]
  cases ha : s.auth[l].state with
  | standing x cause => exact absurd (congrArg AuthState.isStanding ha) (by rw [hs]; exact Bool.false_ne_true)
  | _ => rfl

/-- A chair that holds the loader is the holder of a HELD loader, or of an OFFERED or MATCHING one. -/
theorem State.withRep_entry : (s.withRep r).standEntry l .chairLost =
    (s.placeEnded c l).withRep (s.standReport l .chairLost r) := by
  rw [State.placeEnded_holder hh hs, State.withRep_standEntry, State.standReport_entry hs]

theorem State.absent_holder : (s.withRep r).absentPlace c l = (s.placeEnded c l).withRep (s.absentReport c l r) := by
  have hplace : (s.withRep r).absentPlace c l = (s.withRep r).standEntry l .chairLost := by
    cases ha : s.auth[l].state <;> rw [ha] at hh hs <;>
      simp_all [AuthState.holder, AuthState.isStanding, State.absentPlace]
  have hrep : s.absentReport c l r = s.standReport l .chairLost r := by
    unfold State.absentReport
    dsimp only
    rw [if_pos hh, if_neg (by rw [hs]; exact Bool.false_ne_true)]
  rw [hplace, hrep, State.withRep_entry hh hs]

theorem State.permit_holder : (s.withRep r).permitEnds c l = (s.placeEnded c l).withRep (s.permitReport c l r) := by
  have hplace : (s.withRep r).permitEnds c l = (s.withRep r).standEntry l .chairLost := by
    cases ha : s.auth[l].state <;> rw [ha] at hh hs <;>
      simp_all [AuthState.holder, AuthState.isStanding, State.permitEnds]
  have hrep : s.permitReport c l r = s.standReport l .chairLost r := by
    unfold State.permitReport
    dsimp only
    rw [if_pos hh]
    cases ha : s.auth[l].state with
    | standing x cause => exact absurd (congrArg AuthState.isStanding ha) (by rw [hs]; exact Bool.false_ne_true)
    | _ => rfl
  rw [hplace, hrep, State.withRep_entry hh hs]

end holder

/-! ### A chair that is offered the loader -/

section offered
variable {holder : Option Chair} {o : Origin} {n : Word16} {p : Option Chair} {m : Nat}
variable (ha : s.auth[l].state = .offered holder c o n p m) (hh : holder ≠ some c)
include ha hh

theorem State.placeEnded_offered : s.placeEnded c l = s.endOffer l c n .permit (·.returnLoader l) := by
  simp only [State.placeEnded, ha, AuthState.holder, AuthState.offeredChair, AuthState.number, hh, if_false, if_true, Option.getD_some]

theorem State.absent_offered : (s.withRep r).absentPlace c l = (s.placeEnded c l).withRep (s.absentReport c l r) := by
  have hplace : (s.withRep r).absentPlace c l = (s.withRep r).endOffer l c n .chairAbsent (·.returnLoader l) := by
    simp only [State.absentPlace, State.withRep_auth, ha, hh, if_false, if_true]
  have hrep : s.absentReport c l r = (s.returnReport l r).raise s ⟨.offerEnded, some l, some c, 4⟩ := by
    simp only [State.absentReport, ha, AuthState.holder, AuthState.offeredChair, hh, if_false, if_true]
  rw [hplace, hrep, State.placeEnded_offered ha hh, State.withRep_endOffer_return, State.endOffer_way _ _ _ _ _ _ .permit]
  rfl

theorem State.permit_offered : (s.withRep r).permitEnds c l = (s.placeEnded c l).withRep (s.permitReport c l r) := by
  have hplace : (s.withRep r).permitEnds c l =
      ((s.withRep r).withdrawn l c n .permit).endOffer l c n .permit (·.returnLoader l) := by
    simp only [State.permitEnds, State.withRep_auth, ha, hh, if_false, if_true]
  have hrep : s.permitReport c l r = (s.returnReport l (r.sends s c .withdrawn l s.auth[l].epoch 0x26 n)).raise s
      ⟨.offerEnded, some l, some c, 8⟩ := by
    simp only [State.permitReport, ha, AuthState.holder, AuthState.offeredChair, AuthState.number, Option.getD_some, hh,
      if_false, if_true]
  rw [hplace, hrep, State.placeEnded_offered ha hh, (State.Alike.refl s).withdrawn, State.withRep_endOffer_return]
  rfl

end offered

/-! ### A chair that is matching -/

section matching
variable {holder : Option Chair} {o : Origin} {p : Option Chair} {m : Nat}
variable (ha : s.auth[l].state = .matching holder c o p m) (hh : holder ≠ some c)
include ha hh

theorem State.placeEnded_matching : s.placeEnded c l = (s.endMatching l c).returnLoader l := by
  simp only [State.placeEnded, ha, AuthState.holder, AuthState.offeredChair, AuthState.candidate, hh, reduceCtorEq, if_false, if_true]

theorem State.absent_matching : (s.withRep r).absentPlace c l = (s.placeEnded c l).withRep (s.absentReport c l r) := by
  have hplace : (s.withRep r).absentPlace c l = ((s.withRep r).endMatching l c).returnLoader l := by
    simp only [State.absentPlace, State.withRep_auth, ha, hh, if_false, if_true]
  have hrep : s.absentReport c l r = s.returnReport l r := by
    simp only [State.absentReport, ha, AuthState.holder, AuthState.offeredChair, AuthState.candidate, hh, reduceCtorEq, if_false, if_true]
  rw [hplace, hrep, State.placeEnded_matching ha hh, State.withRep_endMatching_return]

theorem State.permit_matching : (s.withRep r).permitEnds c l = (s.placeEnded c l).withRep (s.permitReport c l r) := by
  have hplace : (s.withRep r).permitEnds c l =
      (((s.withRep r).aborted l c .permit).endMatching l c).returnLoader l := by
    simp only [State.permitEnds, State.withRep_auth, ha, hh, if_false, if_true]
  have hrep : s.permitReport c l r = s.returnReport l (r.sends s c .aborted l s.auth[l].epoch 0x26) := by
    simp only [State.permitReport, ha, AuthState.holder, AuthState.offeredChair, AuthState.candidate, hh, reduceCtorEq, if_false, if_true]
  rw [hplace, hrep, State.placeEnded_matching ha hh, (State.Alike.refl s).aborted, State.withRep_endMatching_return]
  rfl

end matching

/-- The four places a chair may have in a record. -/
theorem AuthState.Seats.cases {a : AuthState} (h : a.Seats c) :
    (∃ cause, a = .standing (some c) cause) ∨ (a.holder = some c ∧ a.isStanding = false)
      ∨ (∃ holder o n p m, a = .offered holder c o n p m ∧ holder ≠ some c)
      ∨ (∃ holder o p m, a = .matching holder c o p m ∧ holder ≠ some c) := by
  by_cases hh : a.holder = some c
  · cases ha : a with
    | standing x cause =>
      rw [ha] at hh
      exact .inl ⟨cause, by rw [show x = some c from hh]⟩
    | _ => exact .inr (.inl ⟨ha ▸ hh, rfl⟩)
  · obtain hn | hn | hn := h.named
    · exact absurd hn hh
    · cases ha : a with
      | offered holder x o n p m =>
        rw [ha] at hn hh
        obtain rfl := Option.some.inj hn
        exact .inr (.inr (.inl ⟨holder, o, n, p, m, rfl, hh⟩))
      | _ =>
        rw [ha] at hn
        exact nomatch hn
    · cases ha : a with
      | matching holder x o p m =>
        rw [ha] at hn hh
        obtain rfl := Option.some.inj hn
        exact .inr (.inr (.inr ⟨holder, o, p, m, rfl, hh⟩))
      | _ =>
        rw [ha] at hn
        exact nomatch hn

/-- The place of an absent chair ends with its reports. -/
theorem State.withRep_absentPlace (h : s.auth[l].state.Seats c) (r : Report) :
    (s.withRep r).absentPlace c l = (s.placeEnded c l).withRep (s.absentReport c l r) := by
  obtain ⟨cause, ha⟩ | ⟨hh, hs⟩ | ⟨holder, o, n, p, m, ha, hh⟩ | ⟨holder, o, p, m, ha, hh⟩ := h.cases
  · exact State.absent_retained ha
  · exact State.absent_holder hh hs
  · exact State.absent_offered ha hh
  · exact State.absent_matching ha hh

/-- The place a narrowed permitted set takes ends with its reports. -/
theorem State.withRep_permitEnds (h : s.auth[l].state.Seats c) (r : Report) :
    (s.withRep r).permitEnds c l = (s.placeEnded c l).withRep (s.permitReport c l r) := by
  obtain ⟨cause, ha⟩ | ⟨hh, hs⟩ | ⟨holder, o, n, p, m, ha, hh⟩ | ⟨holder, o, p, m, ha, hh⟩ := h.cases
  · exact State.permit_retained ha
  · exact State.permit_holder hh hs
  · exact State.permit_offered ha hh
  · exact State.permit_matching ha hh

end report

/-! ## A chair that has become ABSENT (R40) -/

/-- The chair is ABSENT, off the list, its views inactive. -/
def State.absented (s : State) (c : Chair) : State := ((s.setChair c s.chairs[c].gone).leaveList c).clearViews c

/-- The chair is ABSENT and its place has ended. -/
def State.departed (s : State) (c : Chair) : State :=
  match s.chairs[c].engaged with
  | none => s.absented c
  | some l => (s.absented c).placeEnded c l

section departed
variable {s v : State} {c : Chair} {l : Loader}

theorem State.departed_none (h : s.chairs[c].engaged = none) : s.departed c = s.absented c := by
  rw [State.departed, h]

theorem State.departed_some (h : s.chairs[c].engaged = some l) : s.departed c = (s.absented c).placeEnded c l := by
  rw [State.departed, h]

theorem State.absented_chairs (v : State) (c : Chair) : (v.absented c).chairs = putAt v.chairs c v.chairs[c].gone := rfl

theorem State.absented_chair (v : State) (c : Chair) : (v.absented c).chairs[c] = v.chairs[c].gone := putAt_same _ _ _

theorem State.absented_unlisted (v : State) (c : Chair) : c ∉ (v.absented c).freeList :=
  fun hm => by simpa using (List.mem_filter.mp hm).2

/-- A report finds the absent chair as the report of R40 does. -/
theorem State.Alike.absented (h : s.Alike v) (c : Chair) (l : Loader) :
    State.SameFor l { s with chairs := putAt s.chairs c { s.chairs[c] with status := .absent } } (v.absented c) where
  timer := h.timer
  tables := h.tables
  present d := by
    by_cases hd : c = d
    · subst hd
      rw [State.absented_chair, putAt_same]
      rfl
    · rw [State.absented_chairs, putAt_other _ _ hd, putAt_other _ _ hd, h.present]
  auth := by
    change v.auth[l] = s.auth[l]
    rw [h.auth]
  status := h.status

theorem State.withRep_becomeAbsent_none {d : Word16} {r : Report} (h : s.Alike v) (he : s.chairs[c].engaged = none)
    (hv : v.chairs[c].engaged = none) :
    (v.withRep r).becomeAbsent c d = (v.departed c).withRep (s.goneReport c d r) := by
  have hrep : s.goneReport c d r = r.raise { s with chairs := putAt s.chairs c { s.chairs[c] with status := .absent } }
      ⟨.chairAbsent, none, some c, d⟩ := by
    simp only [State.goneReport, putAt_same, he]
  have hgone : (v.withRep r).becomeAbsent c d = ((v.absented c).withRep r).raise .chairAbsent none (some c) d := by
    simp only [State.becomeAbsent, State.withRep_chairs, hv]
    rfl
  rw [hgone, hrep, State.departed_none hv, (h.absented c 0).toSameReporting.raise_rep]

theorem State.withRep_becomeAbsent_some {d : Word16} {r : Report} (h : s.Alike v) (he : s.chairs[c].engaged = some l)
    (hv : v.chairs[c].engaged = some l) (hseats : s.auth[l].state.Seats c) :
    (v.withRep r).becomeAbsent c d = (v.departed c).withRep (s.goneReport c d r) := by
  have hrep : s.goneReport c d r = State.absentReport { s with chairs := putAt s.chairs c { s.chairs[c] with status := .absent } }
      c l (r.raise { s with chairs := putAt s.chairs c { s.chairs[c] with status := .absent } } ⟨.chairAbsent, none, some c, d⟩) := by
    simp only [State.goneReport, putAt_same, he]
    rfl
  have hgone : (v.withRep r).becomeAbsent c d = (((v.absented c).withRep r).raise .chairAbsent none (some c) d).absentPlace c l := by
    simp only [State.becomeAbsent, State.withRep_chairs, hv]
    rfl
  have hsame := h.absented c l
  have hseats' : (v.absented c).auth[l].state.Seats c := by
    rw [hsame.auth]
    exact hseats
  rw [hgone, hrep, State.departed_some hv, hsame.toSameReporting.raise_rep, State.withRep_absentPlace hseats', hsame.absentReport]

/-- An absence moves the state as `departed` and reports as R40 gives it. -/
theorem State.withRep_becomeAbsent (h : s.Alike v) (he : v.chairs[c].engaged = s.chairs[c].engaged) (hr : s.RecordsAgree)
    (d : Word16) (r : Report) : (v.withRep r).becomeAbsent c d = (v.departed c).withRep (s.goneReport c d r) := by
  cases hs : s.chairs[c].engaged with
  | none => exact State.withRep_becomeAbsent_none h hs (he.trans hs)
  | some l => exact State.withRep_becomeAbsent_some h hs (he.trans hs) (hr.seats hs)

/-- What an absence makes of the chair, the list, the views and the record of its loader. -/
structure State.Departed (s u : State) (c : Chair) : Prop where
  chair : u.chairs[c] = { s.chairs[c].gone with lastEnded := u.chairs[c].lastEnded }
  listed : c ∉ u.freeList
  views : u.views = putAt s.views c (mapAll (fun e => { e with active := false }) s.views[c])
  record : ∀ l : Loader, s.chairs[c].engaged = some l → u.auth[l] = s.abandonedRecord l c
  others : ∀ l : Loader, s.chairs[c].engaged ≠ some l → u.auth[l] = s.auth[l]
  tables : u.tables = s.tables

theorem State.Departed.gone {u t : State} (h : s.Departed u c) (hw : u.Walked t) : s.Gone t c := by
  have hviews : t.views = u.views := congrArg Rest.views hw.rest
  refine ⟨?_, fun hm => h.listed (hw.freeList.subset hm), fun l => ?_, fun l => ?_⟩
  · rw [hw.chair h.chair h.listed]
  · rw [hviews, h.views, putAt_same, mapAll_get]
  · split
    · next he => exact hw.abandoned h.tables (h.record l he)
    · next he => exact hw.kept (h.others l he) h.tables

theorem State.abandonedRecord_congr (ha : v.auth[l] = s.auth[l]) (hs : v.status = s.status) (ht : v.timer = s.timer) :
    v.abandonedRecord l c = s.abandonedRecord l c := by
  unfold State.abandonedRecord State.returnState State.freedState
  rw [ha, hs, ht]

theorem State.departed_rest (v : State) (c : Chair) : (v.departed c).rest = (v.absented c).rest := by
  unfold State.departed
  split
  · rfl
  · exact State.placeEnded_rest _ _ _

/-- The chair of `departed` is gone, and unlisted. -/
theorem State.departed_chair (hseats : ∀ l : Loader, v.chairs[c].engaged = some l → v.auth[l].state.Seats c) :
    (v.departed c).chairs[c] = { v.chairs[c].gone with lastEnded := (v.departed c).chairs[c].lastEnded }
      ∧ c ∉ (v.departed c).freeList := by
  cases he : v.chairs[c].engaged with
  | none =>
    rw [State.departed_none he, State.absented_chair]
    exact ⟨rfl, v.absented_unlisted c⟩
  | some l =>
    rw [State.departed_some he]
    obtain ⟨hc, hl⟩ := State.placeEnded_chair (s := v.absented c) (c := c) (l := l) (hseats l he) (v.absented_unlisted c)
    rw [State.absented_chair] at hc hl
    refine ⟨?_, fun hm => (hl.mp hm).1 rfl⟩
    generalize ((v.absented c).placeEnded c l).chairs[c] = x at hc
    rw [hc]
    have hrel : v.chairs[c].gone.released (v.absented c).timer.number = v.chairs[c].gone := if_pos rfl
    rw [hrel]

theorem State.Alike.departed (h : s.Alike v) (hg : v.chairs[c].gone = s.chairs[c].gone)
    (he : v.chairs[c].engaged = s.chairs[c].engaged) (hviews : v.views = s.views) (hr : s.RecordsAgree) (r : Report) :
    s.Departed ((v.departed c).withRep r) c := by
  have hseats (l : Loader) (hl : v.chairs[c].engaged = some l) : v.auth[l].state.Seats c := by
    rw [h.auth]
    exact hr.seats (he.symm.trans hl)
  obtain ⟨hchair, hlist⟩ := State.departed_chair hseats
  have hrest := v.departed_rest c
  have hauth (l : Loader) (hl : v.chairs[c].engaged = some l) : (v.departed c).auth = putAt v.auth l (v.abandonedRecord l c) := by
    rw [State.departed_some hl, State.placeEnded_auth (s := v.absented c) (hseats l hl),
      State.abandonedRecord_congr (s := v) rfl rfl rfl]
    rfl
  constructor
  · rw [State.withRep_chairs, ← hg]
    exact hchair
  · exact hlist
  · change (v.departed c).views = _
    rw [show (v.departed c).views = (v.absented c).views from congrArg Rest.views hrest, ← hviews]
    rfl
  · intro l hl
    rw [State.withRep_auth, hauth l (he.trans hl), putAt_same]
    exact State.abandonedRecord_congr (by rw [h.auth]) h.status h.timer
  · intro l hl
    rw [State.withRep_auth, ← h.auth]
    cases hs : v.chairs[c].engaged with
    | none =>
      rw [State.departed_none hs]
      rfl
    | some k =>
      have hne : k ≠ l := fun hk => hl ((he.symm.trans hs).trans (congrArg some hk))
      rw [hauth k hs, putAt_other _ _ hne]
  · exact (congrArg Rest.tables hrest).trans h.tables

end departed

end Sys2Proof.Machine
end

section
/-! PRESENCE_EXPIRY, LEAVE and an applied CHAIRS entry (R38, R39, R41, R167). -/

namespace Sys2Proof.Machine

open Sys2Proof

/-! ## An operation that makes no offer -/

/-- No offer is made, and a walk called for stays so. -/
structure State.NoOffer (s u : State) : Prop where
  offers : u.offerCounter = s.offerCounter
  walk : s.walkCalled = true → u.walkCalled = true

namespace State.NoOffer
variable {s t u : State}

theorem of_kept (ho : u.offerCounter = s.offerCounter) (hw : u.walkCalled = s.walkCalled) : s.NoOffer u :=
  ⟨ho, fun h => hw.trans h⟩

theorem refl (s : State) : s.NoOffer s := of_kept rfl rfl

theorem trans (h : s.NoOffer t) (h' : t.NoOffer u) : s.NoOffer u :=
  ⟨h'.offers.trans h.offers, fun hs => h'.walk (h.walk hs)⟩

theorem withRep (h : s.NoOffer u) (r : Report) : s.NoOffer (u.withRep r) := h.trans (of_kept rfl rfl)

theorem release (s : State) (c : Chair) : s.NoOffer (s.release c) := by
  by_cases hp : s.chairs[c].status = .absent
  · rw [State.release_absent hp]
    exact of_kept rfl rfl
  · cases ha : s.chairs[c].available
    · rw [State.release_unavailable hp ha]
      exact of_kept rfl rfl
    · rw [State.release_available hp ha]
      exact ⟨rfl, fun _ => rfl⟩

theorem offerGone (s : State) (c n) : s.NoOffer (s.offerGone c n) :=
  (of_kept (s := s) (u := s.setChair c { s.chairs[c] with lastEnded := some n }) rfl rfl).trans (release _ c)

theorem endMatching (s : State) (l c) : s.NoOffer (s.endMatching l c) :=
  (of_kept (s := s) (u := s.clearMatch l) rfl rfl).trans (release _ c)

theorem letGo (s : State) (l c a) : s.NoOffer (s.letGo l c a) :=
  ((of_kept (s := s) (u := s.advanceEpoch l) rfl rfl).trans (release _ c)).trans (of_kept rfl rfl)

theorem returnLoader (s : State) (l : Loader) : s.NoOffer (s.returnLoader l) := by
  obtain ⟨h, hh⟩ | ⟨hh, w, ho, hc⟩ | ⟨hh, ho⟩ := s.return_cases l
  · rw [State.returnLoader_held hh]
    exact of_kept rfl rfl
  · rw [State.returnLoader_requeued hh ho hc]
    exact ⟨rfl, fun _ => rfl⟩
  · rw [State.returnLoader_freed hh ho]
    by_cases hc : s.status[l].accepted.isCall = true
    · rw [State.enterFree_call hc]
      exact ⟨rfl, fun _ => rfl⟩
    · rw [State.enterFree_free hc]
      exact of_kept rfl rfl

theorem endOffer (s : State) (l c n way) : s.NoOffer (s.endOffer l c n way (·.returnLoader l)) := by
  have hback : s.NoOffer ((s.offerGone c n).returnLoader l) := (offerGone s c n).trans (returnLoader _ l)
  rw [State.endOffer_eq]
  exact ⟨hback.offers, fun _ => rfl⟩

theorem standHolder (s : State) (l cause) : s.NoOffer (s.standHolder l cause) := by
  unfold State.standHolder
  cases s.auth[l].state.holder with
  | none => exact refl s
  | some x =>
    cases cause.retains with
    | true => exact refl s
    | false => exact (of_kept (s := s) (u := s.advanceEpoch l) rfl rfl).trans (release _ x)

theorem standParties (s : State) (l) : s.NoOffer (s.standParties l) := by
  unfold State.standParties
  cases s.auth[l].state with
  | offered h x o n p m =>
    have hgone := offerGone (s.withdrawn l x n .stand) x n
    exact ⟨hgone.offers, fun _ => rfl⟩
  | matching h x o p m => exact (of_kept (s := s) (u := s.aborted l x .stand) rfl rfl).trans (endMatching _ l x)
  | _ => exact of_kept rfl rfl

theorem standEntry (s : State) (l cause) : s.NoOffer (s.standEntry l cause) := by
  have hparties := (standHolder s l cause).trans (standParties (s.standHolder l cause) l)
  unfold State.standEntry
  dsimp only
  obtain ⟨r, hr⟩ := ((((s.standHolder l cause).standParties l).setAuth l
    (.standing (if cause.retains then s.auth[l].state.holder else none) cause))).reportStand_eq l s.auth[l].state.holder cause
  rw [hr]
  exact hparties.trans (of_kept rfl rfl)

theorem placeEnded (s : State) (c : Chair) (l : Loader) : s.NoOffer (s.placeEnded c l) := by
  unfold State.placeEnded
  dsimp only
  split
  · split
    · exact letGo s l c _
    · exact standEntry s l _
  split
  · exact endOffer s l c _ _
  split
  · exact (endMatching s l c).trans (returnLoader _ l)
  · exact refl s

theorem departed (s : State) (c : Chair) : s.NoOffer (s.departed c) := by
  unfold State.departed
  split
  · exact of_kept rfl rfl
  · exact (of_kept (s := s) (u := s.absented c) rfl rfl).trans (placeEnded _ c _)

/-- Within a cycle start's event no offer is made at all. -/
theorem finish (h : s.NoOffer u) (hc : u.finish.cycleStarting = true) :
    u.finish.offerCounter = s.offerCounter ∧ (s.walkCalled = true → u.finish.walkCalled = true) := by
  rw [State.finish_cycleStarting] at hc
  rw [State.finish_within hc]
  exact ⟨h.offers, h.walk⟩

end State.NoOffer

/-! ## The event of a chair that goes -/

/-- A row ends with the walk it called for, or within a cycle start's event with none. -/
theorem State.RecordsAgree.walkedOrNot {u : State} (h : u.RecordsAgree) : u.Walked u.finish := by
  cases hc : u.cycleStarting with
  | false => exact h.walked hc
  | true =>
    obtain ⟨ha, hch, hl, hw, hr⟩ := State.Walked.refl u
    rw [State.finish_within hc]
    exact ⟨ha, hch, hl, hw, hr⟩

/-- A state whose rest differs in the views alone. -/
theorem State.rest_viewed {s u : State} {views} (h : u.rest = { s.rest with views := views }) :
    u.rest = { s with views := u.views }.rest := by
  have hviews : u.views = views := congrArg Rest.views h
  rw [hviews]
  exact h

section goes
variable {s v : State} {c : Chair}

/-- An absence writes no more of the rest than the views. -/
theorem State.departed_rest_eq (hv : v.rest = s.rest) (r : Report) :
    ((v.departed c).withRep r).rest = { s.rest with views := (v.absented c).views } := by
  rw [← hv]
  exact v.departed_rest c

theorem State.departed_viewed (hv : v.rest = s.rest) (r : Report) :
    ((v.departed c).withRep r).finish.rest = { s with views := ((v.departed c).withRep r).finish.views }.rest :=
  State.rest_viewed ((State.finish_rest _).trans (State.departed_rest_eq hv r))

end goes

/-! ## An applied CHAIRS entry -/

section applied
variable {s : State} {c : Chair} {e : ChairEntry}

/-- The state with the new entry applied. -/
def State.chairEntered (s : State) (c : Chair) (e : ChairEntry) : State :=
  { s with tables := { s.tables with chairs := putAt s.tables.chairs c e } }

theorem State.RecordsAgree.chairEntered (h : s.RecordsAgree) (c e) : (s.chairEntered c e).RecordsAgree := h.same rfl

/-- The chair of the entry becomes ABSENT. -/
theorem State.applyChair_goes (hr : s.RecordsAgree) (hp : s.chairs[c].status ≠ .absent)
    (hg : (!e.enabled || e.station ≠ s.tables.chairs[c].station || e.supervisor ≠ s.tables.chairs[c].supervisor) = true) :
    s.applyChair c e = ((((s.chairEntered c e).departed c).withRep ((s.chairEntered c e).goneReport c
      (if e.enabled then 4 else 3) s.rep)).trimViews c e.views).callWalk := by
  have hgone (d : Word16) : (s.chairEntered c e).becomeAbsent c d =
      ((s.chairEntered c e).departed c).withRep ((s.chairEntered c e).goneReport c d s.rep) :=
    State.withRep_becomeAbsent (.refl _) rfl (hr.chairEntered c e) d s.rep
  rw [← hgone]
  cases he : e.enabled with
  | false =>
    simp only [State.applyChair, hp, he, ne_eq, not_false_eq_true, Bool.not_false, and_self, if_true]
    rfl
  | true =>
    have hch : e.station ≠ s.tables.chairs[c].station ∨ e.supervisor ≠ s.tables.chairs[c].supervisor := by
      simpa [-Fin.getElem_fin, he] using hg
    simp only [State.applyChair, hp, he, hch, ne_eq, not_false_eq_true, Bool.not_true, and_false, Bool.false_eq_true, if_false,
      and_self, if_true]
    rfl

/-- The chair of the entry stays, or was ABSENT. -/
theorem State.applyChair_stays (hg : ¬ (s.chairs[c].status ≠ .absent ∧
      (!e.enabled || e.station ≠ s.tables.chairs[c].station || e.supervisor ≠ s.tables.chairs[c].supervisor) = true)) :
    s.applyChair c e = (((s.chairEntered c e).narrowPermits c).trimViews c e.views).callWalk := by
  have hd : ¬ (s.chairs[c].status ≠ .absent ∧ (!e.enabled) = true) := by
    rintro ⟨hp, he⟩
    exact hg ⟨hp, by simp [he]⟩
  have hm : ¬ (s.chairs[c].status ≠ .absent ∧ (e.station ≠ s.tables.chairs[c].station ∨ e.supervisor ≠ s.tables.chairs[c].supervisor)) := by
    rintro ⟨hp, he⟩
    exact hg ⟨hp, by rcases he with he | he <;> simp [-Fin.getElem_fin, he]⟩
  simp only [State.applyChair, hd, hm, if_false]
  rfl

theorem State.narrowPermits_kept (h : ∀ l : Loader, s.chairs[c].engaged = some l → s.permits c l = true) : s.narrowPermits c = s := by
  unfold State.narrowPermits
  split
  · rfl
  · next l hl => exact if_pos (h l hl)

theorem State.narrowPermits_ended {l : Loader} (hr : s.RecordsAgree) (he : s.chairs[c].engaged = some l) (h : s.permits c l = false) :
    s.narrowPermits c = (s.placeEnded c l).withRep (s.permitReport c l s.rep) := by
  have hn : s.narrowPermits c = s.permitEnds c l := by
    simp only [State.narrowPermits, he, h, Bool.false_eq_true, if_false]
  rw [hn]
  exact State.withRep_permitEnds (hr.seats he) s.rep

end applied

end Sys2Proof.Machine
end

section
/-! The end of a chair's place, settled (O18). -/

namespace Sys2Proof.Machine

open Sys2Proof

section rows
variable {s : State} {c : Chair} {h : Header} {tag : Word16} {e : ChairEntry}

/-- PRESENCE_EXPIRY of a chair whose presence has run out (R38). -/
theorem State.presenceExpiry_eq (hr : s.RecordsAgree) (hp : s.chairs[c].status ≠ .absent) (h0 : s.chairs[c].presence = 0) (d : Due) :
    (s.undue d).presenceExpiry c = ((s.undue d).departed c).withRep (s.goneReport c 1 s.rep) := by
  have hout : (s.undue d).presenceExpiry c = (s.undue d).becomeAbsent c absentExpired := by
    refine if_pos ?_
    rw [State.presenceOut]
    exact (Bool.and_eq_true _ _).mpr ⟨decide_eq_true hp, decide_eq_true h0⟩
  rw [hout]
  exact State.withRep_becomeAbsent (.undue s d) rfl hr 1 s.rep

/-- LEAVE of a present chair (R39). -/
theorem State.leaveRequest_eq (hr : s.RecordsAgree) (hp : s.chairs[c].status ≠ .absent) :
    (s.refreshPresence c).leaveRequest c tag [] =
      ((s.refreshPresence c).departed c).withRep (s.goneReport c 2 (s.doneReport c tag none 0)) := by
  have hp' : (s.refreshPresence c).chairs[c].status ≠ .absent := by rwa [State.refreshPresence_chairStatus]
  have hleave : (s.refreshPresence c).leaveRequest c tag [] = ((s.refreshPresence c).doneNone c tag).becomeAbsent c 2 := by
    unfold State.leaveRequest
    rw [if_neg hp']
    rfl
  obtain ⟨-, -, -, -, heng⟩ := s.refreshPresence_counts c c
  rw [hleave, State.reloaded_doneNone, State.withRep_becomeAbsent (.refreshPresence s c) heng hr]

theorem State.leave_departed (hr : s.RecordsAgree) (r : Report) : s.Departed (((s.refreshPresence c).departed c).withRep r) c := by
  obtain ⟨n, hn⟩ := s.refreshPresence_chair c c
  refine (State.Alike.refreshPresence s c).departed ?_ ?_ (congrArg Rest.views (s.refreshPresence_rest c)) hr r
  · rw [hn]
    rfl
  · rw [hn]

theorem State.Admits.exec_leave (ha : s.Admits (requestFrame h 0x02 tag []) c) :
    exec (.leave h tag []) s = .next ((s.refreshPresence c).leaveRequest c tag []).finish :=
  congrArg _ (ha.chairCommand _)

theorem State.presenceExpiry_gone (hr : s.RecordsAgree) (hd : .presenceExpiry c ∈ s.due) (hp : s.chairs[c].status ≠ .absent)
    (h0 : s.chairs[c].presence = 0) :
    ∃ t, exec (.presenceExpiry c) s = .next t ∧ s.Gone t c ∧ t.Reported (s.goneReport c 1 s.rep)
      ∧ (t.cycleStarting = true → t.offerCounter = s.offerCounter ∧ (s.walkCalled = true → t.walkCalled = true))
      ∧ (t.cycleStarting = false → t.walkCalled = false)
      ∧ State.OnlyAuthority { s with
          due := s.due.erase (.presenceExpiry c), views := t.views, walkCalled := t.walkCalled } t := by
  have hexec : exec (.presenceExpiry c) s = .next ((s.undue (.presenceExpiry c)).presenceExpiry c).finish :=
    congrArg Host.Outcome.next (State.runDue_ofCycleStart hd rfl fun s => s.presenceExpiry c)
  have hagree := (hr.undue (.presenceExpiry c)).presenceExpiry c
  rw [hexec]
  rw [State.presenceExpiry_eq hr hp h0] at hagree ⊢
  have hgone : s.Departed (((s.undue (.presenceExpiry c)).departed c).withRep (s.goneReport c 1 s.rep)) c :=
    (State.Alike.undue s _).departed rfl rfl rfl hr _
  have hno : s.NoOffer (((s.undue (.presenceExpiry c)).departed c).withRep (s.goneReport c 1 s.rep)) :=
    ((State.NoOffer.of_kept (s := s) (u := s.undue (.presenceExpiry c)) rfl rfl).trans (.departed _ c)).withRep _
  have hviewed := State.departed_viewed (v := s.undue (.presenceExpiry c)) (c := c) rfl (s.goneReport c 1 s.rep)
  refine ⟨_, rfl, hgone.gone hagree.walkedOrNot, ⟨_, rfl, rfl⟩, hno.finish, fun hc => ?_, State.onlyAuthority_of_rest hviewed rfl⟩
  rw [State.finish_cycleStarting] at hc
  exact State.finish_walkCalled_off hc

theorem State.leave_gone (hr : s.RecordsAgree) (ha : s.Admits (requestFrame h 0x02 tag []) c) (hp : s.chairs[c].status ≠ .absent) :
    ∃ t, exec (.leave h tag []) s = .next t ∧ s.Gone t c ∧ t.Reported (s.goneReport c 2 (s.doneReport c tag none 0))
      ∧ State.OnlyAuthority { s with views := t.views } t := by
  obtain ⟨-, hwalk, hstart⟩ := ha.1.idle
  have hagree := (hr.refreshPresence c).leaveRequest c tag []
  rw [ha.exec_leave]
  rw [State.leaveRequest_eq hr hp] at hagree ⊢
  have hgone := State.leave_departed (c := c) hr (s.goneReport c 2 (s.doneReport c tag none 0))
  have hrest := State.departed_rest_eq (s.refreshPresence_rest c) (c := c) (s.goneReport c 2 (s.doneReport c tag none 0))
  have hviewed := State.departed_viewed (s.refreshPresence_rest c) (c := c) (s.goneReport c 2 (s.doneReport c tag none 0))
  generalize hu : ((s.refreshPresence c).departed c).withRep (s.goneReport c 2 (s.doneReport c tag none 0)) = u at *
  have hcs : u.cycleStarting = false := (State.cycleStarting_congr (congrArg Rest.due hrest)).trans hstart
  refine ⟨_, rfl, hgone.gone (hagree.walked hcs), ⟨u, ?_, rfl⟩,
    State.onlyAuthority_of_rest hviewed ((State.finish_walkCalled_off hcs).trans hwalk.symm)⟩
  rw [← hu]
  rfl

/-! ## An applied CHAIRS entry -/

/-- The chair's views outside the set are inactive, the rest and authority are as they were. -/
theorem State.trimViews_view (u : State) (c : Chair) (set : Word16) (l : Loader) : (u.trimViews c set).callWalk.views[c][l] =
    { u.views[c][l] with active := u.views[c][l].active && set.getLsbD l.val } := by
  change (putAt u.views c _)[c][l] = _
  rw [putAt_same, tabulate_get]
  rfl

theorem State.trimmed_authority {u : State} (hu : u.rest = { (s.chairEntered c e).rest with views := u.views })
    (hviews : u.views = putAt s.views c u.views[c]) :
    State.OnlyAuthority { s with
      tables := { s.tables with chairs := putAt s.tables.chairs c e }
      views := putAt s.views c (u.trimViews c e.views).callWalk.views[c], walkCalled := true } (u.trimViews c e.views).callWalk := by
  refine State.onlyAuthority_of_rest ?_ rfl
  have htrim : (u.trimViews c e.views).callWalk.rest = { u.rest with views := (u.trimViews c e.views).callWalk.views } := rfl
  have hown (row : Vector ViewEntry 16) : putAt u.views c row = putAt s.views c (putAt u.views c row)[c] := by
    rw [putAt_same, hviews, putAt_putAt]
  have htrimmed : (u.trimViews c e.views).callWalk.views = putAt s.views c (u.trimViews c e.views).callWalk.views[c] := hown _
  rw [htrim, hu]
  exact congrArg (fun views => { (s.chairEntered c e).rest with views := views }) htrimmed

/-- The entry makes the chair ABSENT (R41). -/
theorem State.applyChair_gone (hr : s.RecordsAgree) (hp : s.chairs[c].status ≠ .absent)
    (hg : (!e.enabled || e.station ≠ s.tables.chairs[c].station || e.supervisor ≠ s.tables.chairs[c].supervisor) = true) :
    s.Gone (s.applyChair c e) c
      ∧ (s.applyChair c e).rep = (s.chairEntered c e).goneReport c (if e.enabled then 4 else 3) s.rep := by
  rw [State.applyChair_goes hr hp hg]
  refine ⟨?_, rfl⟩
  have hgone : (s.chairEntered c e).Departed (((s.chairEntered c e).departed c).withRep _) c :=
    (State.Alike.refl (s.chairEntered c e)).departed rfl rfl rfl (hr.chairEntered c e) ((s.chairEntered c e).goneReport c (if e.enabled then 4 else 3) s.rep)
  generalize ((s.chairEntered c e).departed c).withRep ((s.chairEntered c e).goneReport c (if e.enabled then 4 else 3) s.rep) = u at hgone
  obtain ⟨hchair, hlist, hviews, hauth⟩ := hgone.gone (.refl u)
  refine ⟨hchair, hlist, fun l => ?_, hauth⟩
  rw [State.trimViews_view, hviews, Bool.false_and]

/-- What the entry leaves of the chair's place and of the records where the chair does not become ABSENT (R167). -/
structure State.Narrowed (s u : State) (c : Chair) (e : ChairEntry) : Prop where
  rest : u.rest = (s.chairEntered c e).rest
  ended : ∀ l : Loader, s.chairs[c].engaged = some l → e.permitted.getLsbD l.val = false →
    s.abandoned u l c = true
      ∧ u.chairs[c] = { s.chairs[c] with
          status := .idle, engaged := none, lastEnded := u.chairs[c].lastEnded
          idleSince := if s.chairs[c].available then s.timer.number else s.chairs[c].idleSince }
      ∧ (c ∈ u.freeList ↔ s.chairs[c].available = true)
  kept : ∀ l : Loader, ¬ (s.chairs[c].engaged = some l ∧ e.permitted.getLsbD l.val = false) → u.auth[l] = s.auth[l]

theorem State.chairEntered_permits (l : Loader) : (s.chairEntered c e).permits c l = e.permitted.getLsbD l.val := by
  unfold State.permits State.chairEntered
  dsimp only
  rw [putAt_same]
  rfl

theorem State.narrowed_kept (h : ∀ l : Loader, s.chairs[c].engaged = some l → e.permitted.getLsbD l.val = true) :
    (s.chairEntered c e).narrowPermits c = s.chairEntered c e ∧ s.Narrowed (s.chairEntered c e) c e := by
  refine ⟨State.narrowPermits_kept fun l hl => (State.chairEntered_permits l).trans (h l hl), rfl, ?_, fun _ _ => rfl⟩
  intro l hl hn
  exact absurd (hn.symm.trans (h l hl)) Bool.false_ne_true

theorem State.narrowed_ended (hr : s.RecordsAgree) {l : Loader} (he : s.chairs[c].engaged = some l)
    (hn : e.permitted.getLsbD l.val = false) :
    (s.chairEntered c e).narrowPermits c =
        ((s.chairEntered c e).placeEnded c l).withRep ((s.chairEntered c e).permitReport c l s.rep)
      ∧ s.Narrowed (((s.chairEntered c e).placeEnded c l).withRep ((s.chairEntered c e).permitReport c l s.rep)) c e := by
  have hagree := hr.chairEntered c e
  have hseats := hr.seats he
  obtain ⟨-, hp, -, hlist, -⟩ := hr.placed (by rw [hr.place_of_engaged he]; exact List.mem_singleton_self _)
  obtain ⟨hchair, hfree⟩ := State.placeEnded_chair (s := s.chairEntered c e) (c := c) (l := l) hseats hlist
  have hauth := State.placeEnded_auth (s := s.chairEntered c e) (c := c) (l := l) hseats
  have hrest := (s.chairEntered c e).placeEnded_rest c l
  refine ⟨State.narrowPermits_ended hagree he ((State.chairEntered_permits l).trans hn), ?_⟩
  generalize (s.chairEntered c e).placeEnded c l = u at hchair hfree hauth hrest
  refine ⟨hrest, fun k hk _ => ?_, fun k hk => ?_⟩
  · obtain rfl := Option.some.inj (he.symm.trans hk)
    refine ⟨?_, ?_, ?_⟩
    · exact State.Walked.abandoned (s := s.chairEntered c e) (.refl _) (congrArg Rest.tables hrest) (by
        rw [State.withRep_auth, hauth, putAt_same])
    · rw [State.withRep_chairs]
      have hrel : s.chairs[c].released s.timer.number = { s.chairs[c] with
          status := .idle, engaged := none
          idleSince := if s.chairs[c].available then s.timer.number else s.chairs[c].idleSince } := if_neg hp
      refine hchair.trans ?_
      change { s.chairs[c].released s.timer.number with lastEnded := u.chairs[c].lastEnded } = _
      rw [hrel]
    · exact hfree.trans ⟨fun h => h.2, fun h => ⟨hp, h⟩⟩
  · have hne : l ≠ k := by
      rintro rfl
      exact hk ⟨he, hn⟩
    rw [State.withRep_auth, hauth, putAt_other _ _ hne]
    rfl

theorem State.Narrowed.authority {u : State} (h : s.Narrowed u c e) :
    State.OnlyAuthority { s with
      tables := { s.tables with chairs := putAt s.tables.chairs c e }
      views := putAt s.views c (u.trimViews c e.views).callWalk.views[c], walkCalled := true } (u.trimViews c e.views).callWalk := by
  have hviews : u.views = s.views := congrArg Rest.views h.rest
  refine State.trimmed_authority ?_ ?_
  · rw [hviews, h.rest]
    rfl
  · rw [hviews, putAt_self]

theorem State.applyChair_gone_authority (hr : s.RecordsAgree) (hp : s.chairs[c].status ≠ .absent)
    (hg : (!e.enabled || e.station ≠ s.tables.chairs[c].station || e.supervisor ≠ s.tables.chairs[c].supervisor) = true) :
    State.OnlyAuthority { s with
      tables := { s.tables with chairs := putAt s.tables.chairs c e }
      views := putAt s.views c (s.applyChair c e).views[c], walkCalled := true } (s.applyChair c e) := by
  rw [State.applyChair_goes hr hp hg]
  have hrest := State.departed_rest_eq (v := s.chairEntered c e) (s := s.chairEntered c e) (c := c) rfl
    ((s.chairEntered c e).goneReport c (if e.enabled then 4 else 3) s.rep)
  generalize ((s.chairEntered c e).departed c).withRep ((s.chairEntered c e).goneReport c (if e.enabled then 4 else 3) s.rep) = u at hrest
  have hviews : u.views = ((s.chairEntered c e).absented c).views := congrArg Rest.views hrest
  have hrow : u.views = putAt s.views c u.views[c] := by
    have habs : ((s.chairEntered c e).absented c).views =
        putAt s.views c (mapAll (fun x => { x with active := false }) s.views[c]) := rfl
    rw [hviews, habs, putAt_same]
  refine State.trimmed_authority ?_ hrow
  rw [hrest, hviews]

/-- The entry leaves the chair where it is, or ends the one place that it no longer permits. -/
theorem State.applyChair_narrowed (hr : s.RecordsAgree)
    (hg : ¬ (s.chairs[c].status ≠ .absent ∧
      (!e.enabled || e.station ≠ s.tables.chairs[c].station || e.supervisor ≠ s.tables.chairs[c].supervisor) = true)) :
    ∃ u : State, s.applyChair c e = (u.trimViews c e.views).callWalk ∧ s.Narrowed u c e
      ∧ ((∀ l : Loader, s.chairs[c].engaged = some l → e.permitted.getLsbD l.val = true) → u.rep = s.rep)
      ∧ (∀ l : Loader, s.chairs[c].engaged = some l → e.permitted.getLsbD l.val = false →
          u.rep = (s.chairEntered c e).permitReport c l s.rep) := by
  rw [State.applyChair_stays hg]
  by_cases hall : ∀ l : Loader, s.chairs[c].engaged = some l → e.permitted.getLsbD l.val = true
  · obtain ⟨heq, hn⟩ := State.narrowed_kept hall
    rw [heq]
    exact ⟨_, rfl, hn, fun _ => rfl, fun l hl hf => absurd (hf.symm.trans (hall l hl)) Bool.false_ne_true⟩
  · rw [not_forall] at hall
    obtain ⟨l, hall⟩ := hall
    rw [Classical.not_imp, Bool.not_eq_true] at hall
    obtain ⟨he, hf⟩ := hall
    obtain ⟨heq, hn⟩ := State.narrowed_ended hr he hf
    rw [heq]
    refine ⟨_, rfl, hn, fun hall => absurd (hf.symm.trans (hall l he)) Bool.false_ne_true, fun k hk _ => ?_⟩
    obtain rfl := Option.some.inj (he.symm.trans hk)
    rfl

end rows

end Sys2Proof.Machine

namespace Sys2Proof

open Machine

/-- Settles O18: the chair is ABSENT with its place ended, or only the place that the new entry no longer permits has ended. -/
theorem absentChairLosesItsPlace : Obligations.AbsentChairLosesItsPlace := by
  intro s c h tag e hr
  refine ⟨fun hd hp h0 => State.presenceExpiry_gone hr hd hp h0, fun ha hp => State.leave_gone hr ha hp, ?_⟩
  intro t old goes u
  have hgoes : goes = true ↔ s.chairs[c].status ≠ .absent ∧
      (!e.enabled || e.station ≠ s.tables.chairs[c].station || e.supervisor ≠ s.tables.chairs[c].supervisor) = true := by
    change (_ && _) = true ↔ _
    rw [Bool.and_eq_true, decide_eq_true_iff]
  cases hg : goes with
  | true =>
    obtain ⟨hp, hch⟩ := hgoes.mp hg
    refine ⟨fun _ => State.applyChair_gone hr hp hch, nofun, nofun, State.applyChair_gone_authority hr hp hch⟩
  | false =>
    have hstays := fun hn => Bool.false_ne_true (hg.symm.trans (hgoes.mpr hn))
    obtain ⟨v, heq, hn, hkeep, hend⟩ := State.applyChair_narrowed hr hstays
    have ht : t = (v.trimViews c e.views).callWalk := heq
    rw [ht]
    refine ⟨nofun, fun _ => ?_, fun _ l => ⟨?_, ?_⟩, hn.authority⟩
    · cases he : s.chairs[c].engaged with
      | none => exact hkeep fun l hl => nomatch he.symm.trans hl
      | some l =>
        dsimp only
        by_cases hpm : e.permitted.getLsbD l.val = true
        · rw [if_pos hpm]
          refine hkeep fun k hk => ?_
          obtain rfl := Option.some.inj (he.symm.trans hk)
          exact hpm
        · rw [if_neg hpm]
          exact hend l he (Bool.eq_false_of_not_eq_true hpm)
    · split
      · next hl => exact hn.ended l hl.1 hl.2
      · next hl => exact hn.kept l hl
    · rw [State.trimViews_view, show v.views = s.views from congrArg Rest.views hn.rest]

end Sys2Proof
end

section
/-! Slot events (R76, R84-R91, R96-R98). -/

namespace Sys2Proof.Machine

open Sys2Proof

/-! ## The frame of a slot -/

/-- The counts of a built frame (R91). -/
def State.frameReport (s : State) (l : Loader) (k : FrameKind) (r : Report) : Report :=
  match k with
  | .stand _ => r.count s (.loader l standSent) 1
  | .neutral _ => r.count s (.loader l cmdSent) 1
  | .synthesized hold =>
    if hold then (r.count s (.loader l cmdSent) 1).count s (.loader l holdSlots) 1 else r.count s (.loader l cmdSent) 1

/-- What a level port carries once a frame is handed to it (R159). -/
def State.carried (s : State) (p : LevelPort) (f : Frame) : Option Outgoing :=
  if s.linkIsUp p.toPort then some ⟨s.tables.device.marker, f⟩ else none

section frame
variable {s : State} {l : Loader} {p : LevelPort} {k : SlotTime} {slot : Slot}

theorem State.SameReporting.frameReport {t : State} (h : s.SameReporting t) (l : Loader) (k : FrameKind) (r : Report) :
    t.frameReport l k r = s.frameReport l k r := by
  cases k <;> simp only [State.frameReport, Report.count_same h]

theorem State.countFrame_eq (s : State) (l : Loader) (k : FrameKind) : s.countFrame l k = s.withRep (s.frameReport l k s.rep) := by
  have hs : s.SameReporting (s.count (.loader l cmdSent)) := State.sameReporting_of_records rfl rfl rfl
  cases k with
  | stand cause => rfl
  | neutral auto => rfl
  | synthesized hold =>
    cases hold with
    | false => rfl
    | true => exact congrArg (s.withRep ·) (Report.count_same hs _ _ _)

/-- A built frame writes the mailboxes' last output, the report and the port (R85, R91, R159). -/
theorem State.sendFrame_eq (s : State) (l : Loader) (k : FrameKind) (o : Output) : s.sendFrame l k o = { s with
    builders := putAt s.builders l
      { s.builders[l] with lastOut := o.axes, lastGear := o.gear, outSeq := s.builders[l].outSeq + 1 }
    rep := s.frameReport l k s.rep
    lSending := putAt s.lSending (levelIndex s.tables.loaders[l].port)
      (s.carried s.tables.loaders[l].port (s.commandFrame l k o (s.builders[l].outSeq + 1))) } := by
  have hs (b : Builder) : s.SameReporting (s.setBuilder l b) := State.sameReporting_of_records rfl rfl rfl
  unfold State.sendFrame
  dsimp only
  rw [State.countFrame_eq, (hs _).frameReport]
  rfl

/-- A frame that no command fills leaves the mailbox and brings the last output to 0 (R86). -/
theorem State.sendIdle_eq (s : State) (l : Loader) (k : FrameKind) : s.sendIdle l k = { s with
    builders := putAt s.builders l
      { s.builders[l] with stale := 0, lastOut := .zero, lastGear := .neutral, outSeq := s.builders[l].outSeq + 1 }
    rep := s.frameReport l k s.rep
    lSending := putAt s.lSending (levelIndex s.tables.loaders[l].port)
      (s.carried s.tables.loaders[l].port (s.commandFrame l k .neutral (s.builders[l].outSeq + 1))) } := by
  have hs (b : Builder) : s.SameReporting (s.setBuilder l b) := State.sameReporting_of_records rfl rfl rfl
  rw [State.sendIdle, State.sendFrame_eq, (hs _).frameReport, State.setBuilder_builders, putAt_putAt, putAt_same]
  rfl

/-- The event of a loader's slot is its frame, its deadline, and an earlier deadline brought forward (R97). -/
theorem State.slotOf_eq (s : State) (l : Loader) (instant : Nat) : s.slotOf l instant = { s.slotFrame l with
    due := (s.slotFrame l).due ++ if (s.slotFrame l).deadlines[l].isSome then [.statusDeadline l] else []
    deadlines := putAt (s.slotFrame l).deadlines l
      (some ((s.slotFrame l).timer.deadlineFor (s.slotFrame l).tables.loaders[l].port instant)) } := by
  unfold State.slotOf
  generalize s.slotFrame l = u
  cases hd : u.deadlines[l].isSome with
  | true => simp only [hd, if_true]
  | false => simp only [hd, Bool.false_eq_true, if_false, List.append_nil]

/-! ## The loader of a slot -/

theorem State.loaderAt_some (h : s.loaderAt p slot = some l) :
    s.enabled l = true ∧ s.tables.loaders[l].port = p ∧ s.tables.loaders[l].slot = slot := by
  have hf := List.find?_some h
  simp only [Bool.and_eq_true, decide_eq_true_iff] at hf
  exact ⟨hf.1.1, hf.1.2, hf.2⟩

theorem SlotTime.slot_eq (h : slot.val = if k = 16 then 0 else k.val) : SlotTime.slot k = slot := by
  refine Fin.ext ?_
  rw [h, SlotTime.slot]
  split
  · next hk => rw [hk]; rfl
  · next hk =>
    have hlt : k.val < 16 := by
      have hne : k.val ≠ 16 := fun hv => hk (Fin.ext hv)
      omega
    exact Nat.mod_eq_of_lt hlt

/-- The cycle position at a slot's instant (R98); at the next cycle start's instant it is 15. -/
theorem Timer.positionAt_slot (t : Timer) (k : SlotTime) (h : 0 < t.period) :
    (t.positionAt (t.origin + k.val * t.period)).val = min 15 k.val := by
  have hk : (t.origin + k.val * t.period - t.origin) / t.period = k.val := by
    rw [Nat.add_sub_cancel_left, Nat.mul_div_cancel _ h]
  unfold Timer.positionAt
  dsimp only
  rw [if_neg (by omega)]
  simp only [hk]
  split
  · next hlt => exact (Nat.min_eq_right (by omega)).symm
  · next hlt => exact (Nat.min_eq_left (by omega)).symm

theorem State.slotAt_some (hk : slot.val = if k = 16 then 0 else k.val) (hl : s.loaderAt p slot = some l) :
    s.slotAt p k = (s.seek (s.timer.slotInstant k)).slotOf l (s.timer.slotInstant k) := by
  have hl' : (s.seek (s.timer.slotInstant k)).loaderAt p (SlotTime.slot k) = some l := by
    rw [SlotTime.slot_eq hk]
    exact hl
  unfold State.slotAt
  dsimp only
  rw [hl']

theorem State.slotAt_none (hk : slot.val = if k = 16 then 0 else k.val) (hl : s.loaderAt p slot = none) :
    s.slotAt p k = s.seek (s.timer.slotInstant k) := by
  have hl' : (s.seek (s.timer.slotInstant k)).loaderAt p (SlotTime.slot k) = none := by
    rw [SlotTime.slot_eq hk]
    exact hl
  unfold State.slotAt
  dsimp only
  rw [hl']

theorem State.ReadyAt.exec_slot (h : s.ReadyAt (s.timer.origin + k.val * s.timer.period)) :
    exec (.slotEvent p k) s = .next (s.slotAt p k).finish :=
  congrArg _ (h.runAt rfl _)

/-! ## A loader that no chair drives -/

/-- What a neutral or stand frame shows: flags, cause and counter (R84, R85, R91). -/
structure FrameKind.Shows (kind : FrameKind) (bits code : Byte) : Prop where
  flags : ∀ alarm : Bool, kind.flags alarm = bits ||| (if alarm then 8 else 0)
  cause : kind.causeByte = code
  counted : ∀ (s : State) (l : Loader) (r : Report),
    s.frameReport l kind r = r.count s (.loader l (if bits = 0x01 then standSent else cmdSent)) 1

theorem FrameKind.Shows.ofStand (cause : Cause) : (FrameKind.stand cause).Shows 0x01 cause.code :=
  ⟨fun alarm => by cases alarm <;> rfl, rfl, fun _ _ _ => rfl⟩

theorem FrameKind.Shows.ofNeutral : (FrameKind.neutral false).Shows 0x02 0 := ⟨by decide, rfl, fun _ _ _ => rfl⟩

theorem FrameKind.Shows.ofReturn : (FrameKind.neutral true).Shows 0x06 0 := ⟨by decide, rfl, fun _ _ _ => rfl⟩

theorem State.slotFrame_standing {x : Option Chair} {cause : Cause} (ha : s.auth[l].state = .standing x cause) (hc : cause ≠ .disabled) :
    s.slotFrame l = s.sendIdle l (.stand cause) := by
  unfold State.slotFrame
  rw [ha]
  cases cause with
  | disabled => exact absurd rfl hc
  | _ => rfl

theorem AuthState.idleFrame_standing {x : Option Chair} {cause : Cause} {y : Byte × Byte}
    (h : (AuthState.standing x cause).idleFrame = some y) : cause ≠ .disabled ∧ y = (0x01, cause.code) := by
  have hc : cause ≠ .disabled := by
    rintro rfl
    exact nomatch h
  refine ⟨hc, (Option.some.inj ?_).symm⟩
  rw [← h]
  cases cause with
  | disabled => exact absurd rfl hc
  | _ => rfl

/-- The slot of a loader that no chair drives sends a neutral or stand frame (R4, R86). -/
theorem State.slotFrame_idle {bits code : Byte} (h : s.auth[l].state.idleFrame = some (bits, code)) :
    ∃ kind : FrameKind, s.slotFrame l = s.sendIdle l kind ∧ kind.Shows bits code := by
  cases ha : s.auth[l].state with
  | standing x cause =>
    rw [ha] at h
    obtain ⟨hc, hy⟩ := AuthState.idleFrame_standing h
    obtain ⟨rfl, rfl⟩ := Prod.mk.inj hy
    exact ⟨_, State.slotFrame_standing ha hc, .ofStand cause⟩
  | free =>
    rw [ha] at h
    obtain ⟨rfl, rfl⟩ := Prod.mk.inj (Option.some.inj h)
    exact ⟨_, by simp only [State.slotFrame, ha], .ofNeutral⟩
  | calling w =>
    rw [ha] at h
    obtain ⟨rfl, rfl⟩ := Prod.mk.inj (Option.some.inj h)
    exact ⟨_, by simp only [State.slotFrame, ha], .ofNeutral⟩
  | releasing m =>
    rw [ha] at h
    obtain ⟨rfl, rfl⟩ := Prod.mk.inj (Option.some.inj h)
    exact ⟨_, by simp only [State.slotFrame, ha], .ofReturn⟩
  | held x =>
    rw [ha] at h
    exact nomatch h
  | offered holder x o n p m =>
    rw [ha] at h
    cases holder with
    | none =>
      obtain ⟨rfl, rfl⟩ := Prod.mk.inj (Option.some.inj h)
      exact ⟨_, by simp only [State.slotFrame, ha], .ofNeutral⟩
    | some y => exact nomatch h
  | matching holder x o p m =>
    rw [ha] at h
    cases holder with
    | none =>
      obtain ⟨rfl, rfl⟩ := Prod.mk.inj (Option.some.inj h)
      exact ⟨_, by simp only [State.slotFrame, ha], .ofNeutral⟩
    | some y => exact nomatch h

/-- The frame of a slot that no chair's command fills. -/
theorem State.commandFrame_idle {kind : FrameKind} {bits code : Byte} (h : kind.Shows bits code) (n : Word16) :
    s.commandFrame l kind .neutral n = ⟨0x31, ⟨bits ||| (if s.status[l].linkUp then 0 else 8), s.tables.device.station,
      s.tables.loaders[l].station, byteOf l.val, s.auth[l].epoch, n⟩, [0, 0, 0, 0, 0, 0, 0, 0, 0, 0, 0, code]⟩ := by
  have hflags : kind.flags (!s.status[l].linkUp) = bits ||| (if s.status[l].linkUp then 0 else 8) := by
    rw [h.flags]
    cases s.status[l].linkUp <;> rfl
  have hpayload : outputPayload kind .neutral = [0, 0, 0, 0, 0, 0, 0, 0, 0, 0, 0, code] := by
    rw [← h.cause]
    rfl
  rw [State.commandFrame, hflags, hpayload]
  rfl

/-- The slot event of a loader that no chair drives, at its instant. -/
theorem State.slotOf_idle {bits code : Byte} (h : s.auth[l].state.idleFrame = some (bits, code)) (instant : Nat) :
    s.slotOf l instant = { s with
      builders := putAt s.builders l
        { s.builders[l] with stale := 0, lastOut := ⟨0, 0, 0, 0⟩, lastGear := .neutral, outSeq := s.builders[l].outSeq + 1 }
      lSending := putAt s.lSending (levelIndex s.tables.loaders[l].port)
        (s.carried s.tables.loaders[l].port ⟨0x31, ⟨bits ||| (if s.status[l].linkUp then 0 else 8), s.tables.device.station,
          s.tables.loaders[l].station, byteOf l.val, s.auth[l].epoch, s.builders[l].outSeq + 1⟩,
          [0, 0, 0, 0, 0, 0, 0, 0, 0, 0, 0, code]⟩)
      rep := s.rep.count s (.loader l (if bits = 0x01 then standSent else cmdSent)) 1
      deadlines := putAt s.deadlines l (some ⟨s.tables.loaders[l].port, instant, instant + 8 * s.timer.period⟩)
      due := s.due ++ if s.deadlines[l].isSome then [.statusDeadline l] else [] } := by
  obtain ⟨kind, hframe, hshows⟩ := State.slotFrame_idle h
  rw [State.slotOf_eq, hframe, State.sendIdle_eq, hshows.counted, State.commandFrame_idle hshows]
  rfl

end frame

end Sys2Proof.Machine
end

section
/-! The slot of a driven loader (R76-R78, R83). -/

namespace Sys2Proof.Machine

open Sys2Proof

/-! ## The mailboxes of a stand that keeps its holder (R8) -/

section keeps
variable {s : State} {l : Loader} {cause : Cause}

theorem State.standParties_builders (s : State) (l : Loader) : (s.standParties l).builders = s.builders
    ∨ (s.standParties l).builders = putAt s.builders l s.builders[l].candEmptied := by
  unfold State.standParties
  cases s.auth[l].state with
  | offered h x o n p m => exact .inl (State.release_builders _ x)
  | matching h x o p m => exact .inr ((s.aborted l x .stand).endMatching_builders l x)
  | _ => exact .inl rfl

theorem State.standEntry_builders (hk : cause.retains = true) : (s.standEntry l cause).builders = s.builders
    ∨ (s.standEntry l cause).builders = putAt s.builders l s.builders[l].candEmptied := by
  have hholder : s.standHolder l cause = s := by
    unfold State.standHolder
    rw [hk]
    cases s.auth[l].state.holder <;> rfl
  have hentry : (s.standEntry l cause).builders = (s.standParties l).builders := by
    rw [State.standEntry, hholder]
    obtain ⟨r, hr⟩ := ((s.standParties l).setAuth l
      (.standing (if cause.retains then s.auth[l].state.holder else none) cause)).reportStand_eq l s.auth[l].state.holder cause
    rw [hr]
    rfl
  rw [hentry]
  exact s.standParties_builders l

/-- A stand that keeps its holder leaves the mailboxes but for the candidate's. -/
theorem State.standEntry_builder (hk : cause.retains = true) : (s.standEntry l cause).builders[l] = { s.builders[l] with
    cand := (s.standEntry l cause).builders[l].cand, lastCand := (s.standEntry l cause).builders[l].lastCand } := by
  obtain h | h := State.standEntry_builders (s := s) (l := l) hk
  · rw [h]
  · rw [h, putAt_same]
    rfl

end keeps

section driven
variable {s : State} {l : Loader}

theorem State.slotFrame_driven (h : s.auth[l].state.driven = true) : s.slotFrame l = s.slotDriven l := by
  unfold State.slotFrame
  cases ha : s.auth[l].state with
  | held x => rfl
  | offered holder x o n p m =>
    rw [ha] at h
    cases holder with
    | none => exact nomatch h
    | some y => rfl
  | matching holder x o p m =>
    rw [ha] at h
    cases holder with
    | none => exact nomatch h
    | some y => rfl
  | _ =>
    rw [ha] at h
    exact nomatch h

theorem State.slotStale_of_stale (hf : s.builders[l].fresh = false) (hs : s.tables.device.holdLimit ≤ s.builders[l].stale) :
    s.slotStale l = true := by
  rw [State.slotStale, Builder.staleNext, hf]
  exact decide_eq_true (Nat.lt_succ_of_le hs)

theorem State.slotStale_of_timely (h : s.builders[l].fresh = true ∨ s.builders[l].stale < s.tables.device.holdLimit) :
    s.slotStale l = false := by
  rw [State.slotStale, Builder.staleNext]
  refine decide_eq_false ?_
  split
  · exact Nat.not_lt_zero _
  · next hf =>
    obtain h | h := h
    · exact absurd h hf
    · omega

/-- The frame a driven loader's slot builds (R76, R78). -/
theorem State.slotFrame_synthesized (hd : s.auth[l].state.driven = true) (ht : s.slotStale l = false) :
    s.slotFrame l = (s.setBuilder l { s.builders[l] with stale := s.builders[l].staleNext, fresh := false }).sendFrame l
      (.synthesized (!s.builders[l].fresh))
      (synthesize s.tables.loaders[l] (s.governor l) s.builders[l].lastOut s.builders[l].command) := by
  rw [State.slotFrame_driven hd]
  unfold State.slotDriven
  rw [ht]
  rfl

/-- A stale mailbox stands the loader, and the slot sends a stand frame (R77). -/
theorem State.slotFrame_stale (hd : s.auth[l].state.driven = true) (ht : s.slotStale l = true) :
    s.slotFrame l = (s.standEntry l .stale).sendIdle l (.stand .stale) := by
  rw [State.slotFrame_driven hd, State.slotDriven, ht]
  rfl

theorem synthesize_gear (e : LoaderEntry) (g : Nat) (last : Axes) (c : Command) : (synthesize e g last c).gear = c.gear := by
  unfold synthesize
  split <;> rfl

theorem synthesize_held (e : LoaderEntry) (g : Nat) (last : Axes) (c : Command) : (synthesize e g last c).held = c.held := by
  unfold synthesize
  split
  · next h => exact h.symm
  · next h => exact (Bool.eq_false_of_not_eq_true h).symm

/-- The frame of a synthesized output (R84, R85, R141). -/
theorem State.commandFrame_synthesized (b : Builder) (e : LoaderEntry) (g : Nat) (last : Axes) (n : Word16) :
    let o := synthesize e g last b.command
    s.commandFrame l (.synthesized (!b.fresh)) o n =
      ⟨0x31, ⟨(if s.status[l].linkUp then 0 else 8) ||| (if b.fresh then 0 else 16), s.tables.device.station,
        s.tables.loaders[l].station, byteOf l.val, s.auth[l].epoch, n⟩,
        bytes16 (signed16 o.axes.throttle) ++ bytes16 (signed16 o.axes.steer)
          ++ bytes16 (signed16 o.axes.boom) ++ bytes16 (signed16 o.axes.bucket)
          ++ [b.command.gear.code, o.switches, if b.command.held then 0xA5 else 0x00, 0x00]⟩ := by
  intro o
  have hflags : (FrameKind.synthesized (!b.fresh)).flags (!s.status[l].linkUp) =
      (if s.status[l].linkUp then 0 else 8) ||| (if b.fresh then 0 else 16) := by
    cases s.status[l].linkUp <;> cases b.fresh <;> rfl
  have hpayload : outputPayload (.synthesized (!b.fresh)) o = bytes16 (signed16 o.axes.throttle) ++ bytes16 (signed16 o.axes.steer)
      ++ bytes16 (signed16 o.axes.boom) ++ bytes16 (signed16 o.axes.bucket)
      ++ [b.command.gear.code, o.switches, if b.command.held then 0xA5 else 0x00, 0x00] := by
    rw [outputPayload, synthesize_gear, synthesize_held]
    rfl
  rw [State.commandFrame, hflags, hpayload]
  rfl

/-- The counts of a synthesized frame (R91). -/
theorem State.frameReport_synthesized (fresh : Bool) (r : Report) : s.frameReport l (.synthesized (!fresh)) r =
    (let r := r.count s (.loader l cmdSent) 1
     if fresh then r else r.count s (.loader l holdSlots) 1) := by
  cases fresh <;> rfl

/-- The slot event of a driven loader whose mailbox is not stale, at its instant. -/
theorem State.slotOf_synthesized (hd : s.auth[l].state.driven = true)
    (ht : s.builders[l].fresh = true ∨ s.builders[l].stale < s.tables.device.holdLimit) (instant : Nat) :
    let b := s.builders[l]
    let o := synthesize s.tables.loaders[l] (s.governor l) b.lastOut b.command
    s.slotOf l instant = { s with
      builders := putAt s.builders l { b with
        fresh := false, stale := if b.fresh then 0 else b.stale + 1
        lastOut := o.axes, lastGear := b.command.gear, outSeq := b.outSeq + 1 }
      lSending := putAt s.lSending (levelIndex s.tables.loaders[l].port) (s.carried s.tables.loaders[l].port
        (s.commandFrame l (.synthesized (!b.fresh)) o (b.outSeq + 1)))
      rep := s.frameReport l (.synthesized (!b.fresh)) s.rep
      deadlines := putAt s.deadlines l (some ⟨s.tables.loaders[l].port, instant, instant + 8 * s.timer.period⟩)
      due := s.due ++ if s.deadlines[l].isSome then [.statusDeadline l] else [] } := by
  intro b o
  have hs (x : Builder) : s.SameReporting (s.setBuilder l x) := State.sameReporting_of_records rfl rfl rfl
  rw [State.slotOf_eq, State.slotFrame_synthesized hd (State.slotStale_of_timely ht), State.sendFrame_eq, (hs _).frameReport,
    State.setBuilder_builders, putAt_putAt, putAt_same, synthesize_gear]
  rfl

end driven

end Sys2Proof.Machine

namespace Sys2Proof

open Machine

/-- Settles O11: a driven loader's slot sends the command of its mailbox, with HOLD where it is not fresh. -/
theorem drivenSlotSynthesizes : Obligations.DrivenSlotSynthesizes := by
  intro s p k slot l h hk hl hd ht b o flags frame instant
  obtain ⟨-, hport, -⟩ := State.loaderAt_some hl
  have hev := State.slotOf_synthesized (s := s.seek instant) hd ht instant
  have hexec : exec (.slotEvent p k) s = .next ((s.seek instant).slotOf l instant).finish := by
    rw [h.exec_slot, State.slotAt_some hk hl]
    rfl
  have hport' : (s.seek instant).tables.loaders[l].port = p := hport
  have hshow : (s.seek instant).BeaconsShow := h.2.1
  have hfinish : ((s.seek instant).slotOf l instant).finish = (s.seek instant).slotOf l instant := by
    rw [hev]
    exact hshow.finish_shown rfl rfl rfl rfl rfl
  rw [hfinish, hev] at hexec
  refine ⟨_, hexec, rfl, rfl, ?_, State.frameReport_synthesized _ _, ?_, rfl, rfl⟩
  · dsimp only
    rw [hport', State.commandFrame_synthesized]
    rfl
  · dsimp only
    rw [hport']
    rfl

end Sys2Proof
end

section
/-! A slot that finds its mailbox stale, settled (O12). -/

namespace Sys2Proof.Machine

open Sys2Proof

section stale
variable {s : State} {l : Loader} {p : LevelPort} {k : SlotTime} {slot : Slot}

/-- The slot event of a loader that a stale mailbox stands, at its instant (R77, R86). -/
def State.staleSlotted (s : State) (l : Loader) (instant : Nat) : State :=
  let u := s.standEntry l .stale
  { u with
    builders := putAt u.builders l
      { u.builders[l] with stale := 0, lastOut := ⟨0, 0, 0, 0⟩, lastGear := .neutral, outSeq := u.builders[l].outSeq + 1 }
    rep := (s.standReport l .stale s.rep).count s (.loader l standSent) 1
    lSending := putAt s.lSending (levelIndex s.tables.loaders[l].port) (s.carried s.tables.loaders[l].port
      ⟨0x31, ⟨0x01 ||| (if s.status[l].linkUp then 0 else 8), s.tables.device.station, s.tables.loaders[l].station, byteOf l.val,
        s.auth[l].epoch, u.builders[l].outSeq + 1⟩, [0, 0, 0, 0, 0, 0, 0, 0, 0, 0, 0, 0x03]⟩)
    deadlines := putAt s.deadlines l (some ⟨s.tables.loaders[l].port, instant, instant + 8 * s.timer.period⟩)
    due := s.due ++ if s.deadlines[l].isSome then [.statusDeadline l] else [] }

theorem State.slotOf_stale (hd : s.auth[l].state.driven = true) (hstale : s.slotStale l = true) (instant : Nat) :
    s.slotOf l instant = s.staleSlotted l instant := by
  have hns : s.auth[l].state.isStanding = false := by
    rw [AuthState.driven, Bool.and_eq_true, Bool.not_eq_true'] at hd
    exact hd.1
  have hrest := s.standEntry_rest l .stale
  have hsame := s.standEntry_same l .stale
  have hrep : (s.standEntry l .stale).rep = s.standReport l .stale s.rep := by
    rw [State.standReport_entry hns]
    exact congrArg State.rep (State.withRep_standEntry s s.rep l .stale)
  have hepoch : (s.standEntry l .stale).auth[l].epoch = s.auth[l].epoch := by
    rw [State.standEntry_record, putAt_same, State.standEpoch]
    simp only [Cause.keeps, decide_true, Bool.true_or, Bool.not_true, Bool.and_false, Bool.false_eq_true, if_false]
  rw [State.slotOf_eq, State.slotFrame_stale hd hstale, State.sendIdle_eq, State.commandFrame_idle (.ofStand .stale),
    State.frameReport, Report.count_same hsame, hrep, hepoch]
  unfold State.staleSlotted
  generalize s.standEntry l .stale = u at hrest
  have htimer : u.timer = s.timer := congrArg Rest.timer hrest
  have htab : u.tables = s.tables := congrArg Rest.tables hrest
  have hstatus : u.status = s.status := congrArg Rest.status hrest
  have hdead : u.deadlines = s.deadlines := congrArg Rest.deadlines hrest
  have hdue : u.due = s.due := congrArg Rest.due hrest
  have hlevel : u.lSending = s.lSending := congrArg Rest.lSending hrest
  have hport : u.portUp = s.portUp := congrArg Rest.portUp hrest
  simp only [State.carried, State.linkIsUp, Timer.deadlineFor, htimer, htab, hstatus, hdead, hdue, hlevel, hport]
  rfl

/-- What the slot does not write. -/
theorem State.staleSlotted_rest (s : State) (l : Loader) (instant : Nat) : (s.staleSlotted l instant).rest = { s.rest with
    lSending := (s.staleSlotted l instant).lSending, deadlines := (s.staleSlotted l instant).deadlines
    due := s.due ++ if s.deadlines[l].isSome then [.statusDeadline l] else [] } := by
  have hrest := s.standEntry_rest l .stale
  unfold State.staleSlotted
  generalize s.standEntry l .stale = u at hrest
  rw [← hrest]
  rfl

theorem State.staleSlotted_auth (s : State) (l : Loader) (instant : Nat) :
    (s.staleSlotted l instant).auth = putAt s.auth l ⟨.standing s.auth[l].state.holder .stale, s.auth[l].epoch⟩ := by
  exact (s.standEntry_record l .stale).trans (by
    rw [State.standEpoch]
    simp only [Cause.keeps, decide_true, Bool.true_or, Bool.not_true, Bool.and_false, Bool.false_eq_true, if_false, if_true])

theorem State.staleSlotted_builder (s : State) (l : Loader) (instant : Nat) : (s.staleSlotted l instant).builders[l] =
    { s.builders[l] with
      stale := 0, lastOut := ⟨0, 0, 0, 0⟩, lastGear := .neutral, outSeq := s.builders[l].outSeq + 1
      cand := (s.staleSlotted l instant).builders[l].cand, lastCand := (s.staleSlotted l instant).builders[l].lastCand } := by
  have hb := State.standEntry_builder (s := s) (l := l) (cause := .stale) rfl
  have hown : (s.staleSlotted l instant).builders[l] = { (s.standEntry l .stale).builders[l] with
      stale := 0, lastOut := ⟨0, 0, 0, 0⟩, lastGear := .neutral, outSeq := (s.standEntry l .stale).builders[l].outSeq + 1 } :=
    putAt_same _ _ _
  rw [hown]
  generalize (s.standEntry l .stale).builders[l] = x at hb
  rw [hb]

theorem State.staleSlotted_others {m : Loader} (hm : m ≠ l) (instant : Nat) :
    (s.staleSlotted l instant).builders[m] = s.builders[m] := by
  have hother : (s.staleSlotted l instant).builders[m] = (s.standEntry l .stale).builders[m] := putAt_other _ _ hm.symm
  obtain h | h := State.standEntry_builders (s := s) (l := l) (cause := .stale) rfl
  · rw [hother, h]
  · rw [hother, h, putAt_other _ _ hm.symm]

theorem State.staleSlotted_sequence (s : State) (l : Loader) (instant : Nat) : (s.staleSlotted l instant).lSending =
    putAt s.lSending (levelIndex s.tables.loaders[l].port) (s.carried s.tables.loaders[l].port
      ⟨0x31, ⟨0x01 ||| (if s.status[l].linkUp then 0 else 8), s.tables.device.station, s.tables.loaders[l].station, byteOf l.val,
        s.auth[l].epoch, s.builders[l].outSeq + 1⟩, [0, 0, 0, 0, 0, 0, 0, 0, 0, 0, 0, 0x03]⟩) := by
  have hb := State.standEntry_builder (s := s) (l := l) (cause := .stale) rfl
  have hseq : (s.standEntry l .stale).builders[l].outSeq = s.builders[l].outSeq := by rw [hb]
  unfold State.staleSlotted
  dsimp only
  rw [hseq]

theorem State.ReadyAt.exec_stale (h : s.ReadyAt (s.timer.origin + k.val * s.timer.period)) :
    exec (.standStale ⟨l, k⟩) s = .next (s.staleSlot ⟨l, k⟩).finish :=
  congrArg _ (h.runAt rfl _)

theorem State.staleSlot_eq (he : s.enabled l = true) (hs : SlotTime.slot k = s.tables.loaders[l].slot)
    (hd : s.auth[l].state.driven = true) (hstale : s.slotStale l = true) :
    s.staleSlot ⟨l, k⟩ = (s.seek (s.timer.slotInstant k)).slotOf l (s.timer.slotInstant k) := by
  refine if_pos ?_
  rw [he, hd, hstale, State.atSlot, decide_eq_true hs]
  rfl

end stale

end Sys2Proof.Machine

namespace Sys2Proof

open Machine

/-- Settles O12: the slot stands the loader for STALE and sends its stand frame. -/
theorem staleMailboxStandsTheLoader : Obligations.StaleMailboxStandsTheLoader := by
  intro s p k slot l h hr hk hl hd hf hle b frame instant
  obtain ⟨he, hport, hslot⟩ := State.loaderAt_some hl
  have hstale := State.slotStale_of_stale hf hle
  have hev : (s.seek instant).slotOf l instant = (s.seek instant).staleSlotted l instant := State.slotOf_stale (s := s.seek instant) hd hstale instant
  have hagree : ((s.seek instant).slotOf l instant).RecordsAgree := State.RecordsAgree.slotOf (s := s.seek instant) (hr.same rfl) he instant
  have hexec : exec (.slotEvent p k) s = .next ((s.seek instant).slotOf l instant).finish := by
    rw [h.exec_slot, State.slotAt_some hk hl]
    rfl
  have hexec' : exec (.standStale ⟨l, k⟩) s = .next ((s.seek instant).slotOf l instant).finish := by
    rw [h.exec_stale, State.staleSlot_eq he ((SlotTime.slot_eq hk).trans hslot.symm) hd hstale]
    rfl
  rw [hev] at hagree hexec hexec'
  have hrest := (s.seek instant).staleSlotted_rest l instant
  have hauth := (s.seek instant).staleSlotted_auth l instant
  have hbuilder := (s.seek instant).staleSlotted_builder l instant
  have hothers {m : Loader} (hm : m ≠ l) := State.staleSlotted_others (s := s.seek instant) hm instant
  have hlevel := (s.seek instant).staleSlotted_sequence l instant
  have hrep : ((s.seek instant).staleSlotted l instant).rep =
      ((s.seek instant).standReport l .stale s.rep).count (s.seek instant) (.loader l standSent) 1 := rfl
  have hdead : ((s.seek instant).staleSlotted l instant).deadlines =
      putAt s.deadlines l (some ⟨s.tables.loaders[l].port, instant, instant + 8 * s.timer.period⟩) := rfl
  generalize (s.seek instant).staleSlotted l instant = u at *
  have hcs : u.cycleStarting = false := by
    have hdue : u.due = s.due ++ if s.deadlines[l].isSome then [.statusDeadline l] else [] := congrArg Rest.due hrest
    have hs : s.cycleStarting = false := State.cycleStarting_of_following h.2.2.1.2
    rw [State.cycleStarting, hdue, List.any_append, ← State.cycleStarting, hs]
    split <;> rfl
  have hw := hagree.walked hcs
  have htab : u.tables = s.tables := congrArg Rest.tables hrest
  have hfin := u.finish_rest
  have htimer : u.finish.timer = (s.seek instant).timer := (congrArg Rest.timer hfin).trans (congrArg Rest.timer hrest)
  have hsend : u.finish.lSending = u.lSending := congrArg Rest.lSending hfin
  have hdl : u.finish.deadlines = u.deadlines := congrArg Rest.deadlines hfin
  refine ⟨_, hexec, hexec', ?_, fun m hm => ⟨?_, ?_⟩, ?_, ?_, ?_, ⟨u, ?_, rfl⟩, ?_⟩
  · exact hw.record (by rw [hauth, putAt_same]; rfl) rfl
  · exact hw.kept (by rw [hauth, putAt_other _ _ hm.symm]; rfl) htab
  · rw [State.finish_builders]
    exact hothers hm
  · rw [State.finish_builders]
    exact hbuilder
  · rw [hsend, hlevel]
    have hport' : (s.seek instant).tables.loaders[l].port = p := hport
    rw [hport']
    rfl
  · rw [hdl, hdead, hport]
  · rw [htimer]
    exact hrep
  · refine State.onlyAuthority_of_rest ?_ ?_
    · rw [hsend, hdl]
      exact hfin.trans hrest
    · exact (State.finish_walkCalled_off hcs).trans h.2.1.1.symm

end Sys2Proof
end

section
/-! What follows from an event comes ahead of a slot of its instant (R84, R89; log entry 1). -/

namespace Sys2Proof.Machine

open Sys2Proof

/-! ## The transmitter's takes and the Agent's service -/

/-- What the takes of the transmitter leave: what waits, the clock, the reports of the loaders, the tables, the links and, with no
walk called for, the records. -/
structure State.Unmoved (s u : State) : Prop where
  due : u.due = s.due
  timer : u.timer = s.timer
  running : s.running = true → u.running = true
  status : u.status = s.status
  tables : u.tables = s.tables
  ports : u.portUp = s.portUp
  auth : s.walkCalled = false → u.auth = s.auth ∧ u.walkCalled = false

namespace State.Unmoved
variable {s t u : State}

theorem refl (s : State) : s.Unmoved s := ⟨rfl, rfl, id, rfl, rfl, rfl, fun h => ⟨rfl, h⟩⟩

theorem trans (h : s.Unmoved t) (h' : t.Unmoved u) : s.Unmoved u where
  due := h'.due.trans h.due
  timer := h'.timer.trans h.timer
  running hr := h'.running (h.running hr)
  status := h'.status.trans h.status
  tables := h'.tables.trans h.tables
  ports := h'.ports.trans h.ports
  auth hw := by
    obtain ⟨ha, hw'⟩ := h.auth hw
    obtain ⟨ha', hw''⟩ := h'.auth hw'
    exact ⟨ha'.trans ha, hw''⟩

theorem serves (h : s.Serves u) : s.Unmoved u := by
  cases h with
  | save => exact ⟨rfl, rfl, fun _ => rfl, rfl, rfl, rfl, fun h => ⟨rfl, h⟩⟩
  | _ => exact ⟨rfl, rfl, id, rfl, rfl, rfl, fun h => ⟨rfl, h⟩⟩

theorem tends {room : Nat} (h : State.Tends room s u) : s.Unmoved u := by
  cases h with
  | served h => exact serves h
  | _ => exact ⟨rfl, rfl, id, rfl, rfl, rfl, fun h => ⟨rfl, h⟩⟩

theorem tended {room : Nat} (h : State.Tended room s u) : s.Unmoved u := by
  induction h with
  | refl => exact refl s
  | tail _ h ih => exact ih.trans (tends h)

theorem takeFrame (s : State) : s.Unmoved s.takeFrame := by
  obtain ⟨t, ht, htend⟩ := s.takeFrame_tended
  refine trans ?_ (tended htend)
  cases ht <;> exact ⟨rfl, rfl, id, rfl, rfl, rfl, fun h => ⟨rfl, h⟩⟩

theorem finish (s : State) : s.Unmoved s.finish where
  due := congrArg Rest.due s.finish_rest
  timer := congrArg Rest.timer s.finish_rest
  running h := by
    have hc : s.finish.config = s.config := congrArg Rest.config s.finish_rest
    rw [State.running, hc]
    exact h
  status := congrArg Rest.status s.finish_rest
  tables := congrArg Rest.tables s.finish_rest
  ports := congrArg Rest.portUp s.finish_rest
  auth h := by
    rw [State.finish_idle h]
    exact ⟨rfl, h⟩

theorem takes (s : State) : s.Unmoved s.takes :=
  s.takes_keeps s.Unmoved (fun _ h => (h.trans (takeFrame _)).trans (finish _)) (refl s)

/-- An operation that leaves the rest of the state. -/
theorem following (h : s.Unmoved u) : u.following = s.following := by
  rw [State.following, h.due, State.following]

end State.Unmoved

/-! ## What the event does to the clock -/

/-- What waits, the clock and the running of the part are as they were. -/
structure State.AtClock (s u : State) : Prop where
  due : u.due = s.due
  timer : u.timer = s.timer
  config : u.config = s.config

namespace State.AtClock
variable {s u v : State} {l : Loader} {i : Line}

theorem of_rest (h : u.rest = s.rest) : s.AtClock u :=
  ⟨congrArg Rest.due h, congrArg Rest.timer h, congrArg Rest.config h⟩

theorem refl (s : State) : s.AtClock s := ⟨rfl, rfl, rfl⟩

theorem trans (h : s.AtClock v) (h' : v.AtClock u) : s.AtClock u :=
  ⟨h'.due.trans h.due, h'.timer.trans h.timer, h'.config.trans h.config⟩

theorem becomeAbsent (s : State) (c : Chair) (d : Word16) : s.AtClock (s.becomeAbsent c d) := by
  have hgone : s.AtClock (((s.setChair c s.chairs[c].gone).leaveList c).clearViews c |>.raise .chairAbsent none (some c) d) :=
    ⟨rfl, rfl, rfl⟩
  have hplace (u : State) (l : Loader) : u.AtClock (u.absentPlace c l) := by
    refine of_rest ?_
    unfold State.absentPlace
    repeat' split
    · exact u.dropRetained_rest l
    · rfl
    · exact u.standEntry_rest l _
    · rfl
    · exact u.standEntry_rest l _
    · exact u.endOffer_rest _ _ _ _ _ fun s => s.returnLoader_rest l
    · rfl
    · exact u.standEntry_rest l _
    · exact (State.returnLoader_rest _ l).trans (u.endMatching_rest l c)
    · rfl
    · rfl
  unfold State.becomeAbsent
  dsimp only
  split
  · exact hgone
  · exact hgone.trans (hplace _ _)

theorem presenceExpiry (s : State) (c : Chair) : s.AtClock (s.presenceExpiry c) := by
  unfold State.presenceExpiry
  split
  · exact becomeAbsent s c _
  · exact refl s

theorem stand (h : s.AtClock u) (l cause) : s.AtClock (u.stand l cause) := h.trans (of_rest (u.stand_rest l cause))

theorem linkDownTest (s : State) (l : Loader) : s.AtClock (s.linkDownTest l) := by
  have hdown : s.AtClock (s.linkGoesDown l) :=
    trans (v := (s.setStatus l { s.status[l] with linkUp := false }).raise .linkDown (some l) none
      (wordOf (missedCount s.status[l].linkWindow))) ⟨rfl, rfl, rfl⟩ (of_rest (State.stand_rest _ l .link))
  unfold State.linkDownTest
  split
  · exact hdown
  · exact refl s

theorem linkUpTest (s : State) (l : Loader) : s.AtClock (s.linkUpTest l) := by
  unfold State.linkUpTest
  split
  · exact ⟨rfl, rfl, rfl⟩
  · exact refl s

theorem readyTest (s : State) (l : Loader) : s.AtClock (s.readyTest l) := by
  unfold State.readyTest
  split
  · split
    · exact of_rest (by rw [State.enterFree_rest]; rfl)
    · exact refl s
  · exact refl s

theorem offerExpiry (s : State) (l : Loader) : s.AtClock (s.offerExpiry l) := by
  unfold State.offerExpiry
  split
  · split
    · next x o n p m _ _ =>
      refine of_rest ?_
      rw [State.endOffer_rest _ _ _ _ _ _ fun s => s.returnLoader_rest l, State.missOffer_rest]
      rfl
    · exact refl s
  · exact refl s

theorem matchTimeout (s : State) (l : Loader) : s.AtClock (s.matchTimeout l) := by
  unfold State.matchTimeout
  split
  · split
    · exact of_rest (by rw [State.returnLoader_rest, State.endMatching_rest]; rfl)
    · exact refl s
  · exact refl s

theorem releaseTimeout (s : State) (l : Loader) : s.AtClock (s.releaseTimeout l) := by
  unfold State.releaseTimeout
  split
  · exact of_rest (s.standEntry_rest l _)
  · exact refl s

theorem stands (h : s.AtClock u) (xs : List Loader) (cause) :
    s.AtClock (xs.foldl (fun s l => s.stand l cause) u) := by
  induction xs generalizing u with
  | nil => exact h
  | cons x xs ih => exact ih (h.stand x cause)

theorem moveLine (h : s.AtClock u) (i : Line) : s.AtClock (u.moveLine i) := by
  unfold State.moveLine
  split
  · split
    · exact h
    · exact stands (u := (u.setLine i _).raise .interlockActive none none (lineDetail i)) (h.trans ⟨rfl, rfl, rfl⟩) _ _
  · split
    · unfold State.becomeSafe
      dsimp only
      split <;> exact h.trans ⟨rfl, rfl, rfl⟩
    · exact h

theorem settleLine (s : State) (i : Line) : s.AtClock (s.settleLine i) := by
  have hset : s.AtClock (s.setLine i { s.lines[i] with settled := s.lines[i].raw }) := ⟨rfl, rfl, rfl⟩
  unfold State.settleLine
  split
  · exact hset.moveLine i
  · exact refl s

theorem finish (h : s.AtClock u) : s.AtClock u.finish := h.trans (of_rest u.finish_rest)

end State.AtClock

/-- A consequence, the boundary's applications apart, brings no more events and leaves the clock. -/
theorem State.dueBody_clock (s : State) {i : Instr} {d : Due} (hi : i.consequence = some d) (hd : d ≠ .tableApplied) :
    s.AtClock (s.dueBody d) := by
  cases d with
  | presenceExpiry c => exact .presenceExpiry s c
  | authorityReset => exact ⟨rfl, rfl, rfl⟩
  | linkDown l => exact .linkDownTest s l
  | linkUp l => exact .linkUpTest s l
  | loaderReady l => exact .readyTest s l
  | offerExpiry l => exact .offerExpiry s l
  | matchTimeout l => exact .matchTimeout s l
  | releaseTimeout l => exact .releaseTimeout s l
  | lineSettle k => exact .settleLine s k
  | tableApplied => exact absurd rfl hd
  | _ => cases i <;> exact nomatch hi

/-- The row of a consequence that follows from the last event takes it. -/
theorem State.exec_follows {s : State} {i : Instr} {d : Due} (hi : i.consequence = some d) (hd : d ≠ .tableApplied) (hm : d ∈ s.due)
    (ht : s.canTake = false) : exec i s = .next (s.takeDue d) := by
  have take (e : Due) (hm : e ∈ s.due) (hf : e.follows = true) :
      Host.Outcome.next (s.runDue e fun s => s.dueBody e) = (.next (s.takeDue e) : Host.Outcome State Fault Refusal) :=
    congrArg _ (State.runDue_follows hm hf ht _)
  cases i with
  | linkDown l => obtain rfl := Option.some.inj hi; exact take _ hm rfl
  | linkUp l => obtain rfl := Option.some.inj hi; exact take _ hm rfl
  | loaderReady l => obtain rfl := Option.some.inj hi; exact take _ hm rfl
  | offerExpiry l => obtain rfl := Option.some.inj hi; exact take _ hm rfl
  | matchTimeout l => obtain rfl := Option.some.inj hi; exact take _ hm rfl
  | releaseTimeout l => obtain rfl := Option.some.inj hi; exact take _ hm rfl
  | presenceExpiry c => obtain rfl := Option.some.inj hi; exact take _ hm rfl
  | authorityReset => obtain rfl := Option.some.inj hi; exact take _ hm rfl
  | lineSettle k => obtain rfl := Option.some.inj hi; exact take _ hm rfl
  | tableApplied o r => exact absurd (Option.some.inj hi).symm hd
  | _ => exact nomatch hi

/-! ## The last event brought to its end -/

section conclude
variable {s t : State} {d : Due}

/-- With nothing more that follows, the end of the last event is the transmitter's takes. -/
theorem State.settleN_spent (h : t.following = []) (n : Nat) : State.settleN State.following n t = t.takes := by
  cases n with
  | zero => rfl
  | succ n =>
    have hspent : t.takes.following = [] := (State.Unmoved.takes t).following.trans h
    simp only [State.settleN, hspent, List.isEmpty_nil, if_true]

theorem State.conclude_spent (h : t.following = []) : t.conclude = t.takes := State.settleN_spent h _

/-- Where one event follows from the last, it is taken, and then the transmitter's takes. -/
theorem State.conclude_one (hf : s.following = [d]) (ht : s.canTake = false) (hn : (s.takeDue d).following = []) :
    s.conclude = (s.takeDue d).takes := by
  have hm : d ∈ s.due := List.mem_of_mem_filter (by rw [State.following] at hf; rw [hf]; exact List.mem_singleton_self d)
  obtain ⟨n, hfuel⟩ : ∃ n, s.settleFuel = n + 1 := by
    have hlen := List.length_pos_of_mem hm
    exact ⟨4 * s.due.length - 1, by rw [State.settleFuel]; omega⟩
  rw [State.conclude, hfuel]
  simp only [State.settleN, State.takes_idle ht, hf, List.isEmpty_cons, Bool.false_eq_true, if_false]
  exact State.settleN_spent hn n

/-- Once the one event that follows is taken, none follows. -/
theorem State.following_erase (hf : s.following = [d]) (ht : t.due = s.due.erase d) : t.following = [] := by
  rw [State.following] at hf ⊢
  have hm : d ∈ s.due.filter Due.follows := by
    rw [hf]
    exact List.mem_singleton_self d
  obtain ⟨hmem, hd⟩ := List.mem_filter.mp hm
  have hperm := (List.perm_cons_erase hmem).filter Due.follows
  rw [hf, List.filter_cons_of_pos hd, List.perm_cons] at hperm
  rw [ht, hperm.nil_eq]

end conclude

end Sys2Proof.Machine
end

section
/-! The slot of a loader that no chair drives, settled (O10). -/

namespace Sys2Proof.Machine

open Sys2Proof

section slots
variable {s t u : State} {l : Loader} {p : LevelPort} {k : SlotTime} {slot : Slot} {d : Due} {i : Instr}

/-- A slot event brings events, and takes none. -/
theorem State.slotFrame_due (s : State) (l : Loader) : (s.slotFrame l).due = s.due := by
  have hidle (u : State) (kind : FrameKind) : (u.sendIdle l kind).due = u.due := by rw [State.sendIdle_eq]
  have hdriven : (s.slotDriven l).due = s.due := by
    unfold State.slotDriven
    split
    · exact (hidle _ _).trans (congrArg Rest.due (s.standEntry_rest l .stale))
    · rw [State.sendFrame_eq]
      rfl
  unfold State.slotFrame
  split
  · rfl
  · exact hidle s _
  · exact hidle s _
  · exact hidle s _
  · exact hidle s _
  · exact hdriven
  · exact hdriven
  · exact hdriven
  · exact hidle s _
  · exact hidle s _

theorem State.slotAt_due {e : Due} (h : e ∈ s.due) : e ∈ (s.slotAt p k).finish.due := by
  rw [(State.Unmoved.finish _).due]
  unfold State.slotAt
  dsimp only
  split
  · rw [State.slotOf_eq]
    refine List.mem_append_left _ ?_
    rw [State.slotFrame_due]
    exact h
  · exact h

/-- A slot at the instant last taken comes once the last event is brought to its end. -/
theorem State.exec_slot_concluded (hr : s.running = true) (hn : s.timer.now = s.timer.origin + k.val * s.timer.period)
    (hc : s.conclude = t) (ht : t.running = true) : exec (.slotEvent p k) s = .next (t.slotAt p k).finish := by
  have harrive : s.arriveAt (some (s.timer.slotInstant k)) = t := by
    rw [State.arriveAt, hr, Timer.slotInstant, hn, decide_eq_true rfl]
    exact hc
  refine congrArg Host.Outcome.next ?_
  unfold State.runAt
  dsimp only
  rw [harrive, if_pos ht]

/-- What follows from the last event comes ahead of the slot, whether it is commanded or not. -/
theorem State.slot_after (hr : s.running = true) (hn : s.timer.now = s.timer.origin + k.val * s.timer.period)
    (ht : s.canTake = false) (hi : i.consequence = some d) (hd : d ≠ .tableApplied) (hf : s.following = [d]) :
    exec i s = .next (s.takeDue d) ∧ (s.takeDue d).following = []
      ∧ exec (.slotEvent p k) s = .next ((s.takeDue d).takes.slotAt p k).finish
      ∧ exec (.slotEvent p k) (s.takeDue d) = .next ((s.takeDue d).takes.slotAt p k).finish
      ∧ (s.takeDue d).due = s.due.erase d := by
  have hm : d ∈ s.due := (List.mem_filter.mp (show d ∈ s.following by rw [hf]; exact List.mem_singleton_self d)).1
  have hclock : (s.undue d).AtClock (s.takeDue d) := ((s.undue d).dueBody_clock hi hd).finish
  have hspent := State.following_erase hf hclock.due
  have hrun : (s.takeDue d).running = true := by
    rw [State.running, hclock.config]
    exact hr
  have hnow : (s.takeDue d).timer.now = (s.takeDue d).timer.origin + k.val * (s.takeDue d).timer.period := by
    rw [hclock.timer]
    exact hn
  have htakes := (State.Unmoved.takes (s.takeDue d)).running hrun
  exact ⟨State.exec_follows hi hd hm ht, hspent, State.exec_slot_concluded hr hn (State.conclude_one hf ht hspent) htakes,
    State.exec_slot_concluded hrun hnow (State.conclude_spent hspent) htakes, hclock.due⟩

/-- A loader whose link a deadline has taken DOWN stands for LINK. -/
theorem State.takeDue_linkDown (hb : s.BeaconsShow) (hra : s.RecordsAgree) (he : s.enabled l = true) (hc : s.cycleStarting = false)
    (hs : s.auth[l].state.isStanding = false) :
    (s.takeDue (.linkDown l)).auth[l].state = .standing s.auth[l].state.holder .link
      ∧ (s.takeDue (.linkDown l)).status[l].linkUp = false
      ∧ (s.takeDue (.linkDown l)).tables = s.tables ∧ (s.takeDue (.linkDown l)).portUp = s.portUp
      ∧ (s.takeDue (.linkDown l)).walkCalled = false := by
  have hagree := (hra.undue (.linkDown l)).linkDownTest l
  have hdown : s.takeDue (.linkDown l) = ((s.undue (.linkDown l)).linkDownTest l).finish := rfl
  rw [hdown]
  rw [State.linkDownTest_eq (s := s.undue (.linkDown l)) he] at hagree ⊢
  have hend := (State.Touches.linkDown (s := s.undue (.linkDown l)) (l := l) 0).finish hagree
    (State.undue_cycleStarting hc (.linkDown l)) hb.1
  have hrest : (((s.undue (.linkDown l)).linkDowned l).stand l .link).rest = ((s.undue (.linkDown l)).linkDowned l).rest :=
    State.stand_rest _ l .link
  have hrec : (((s.undue (.linkDown l)).linkDowned l).stand l .link).auth[l] = s.stoodRecord l .link := by
    rw [State.stand_record, putAt_same]
    rfl
  generalize ((s.undue (.linkDown l)).linkDowned l).stand l .link = u at *
  have hfin (r : Report) : (u.withRep r).finish.rest = ((s.undue (.linkDown l)).linkDowned l).rest := (State.finish_rest _).trans hrest
  have hcs (r : Report) : (u.withRep r).cycleStarting = false :=
    (State.cycleStarting_congr (congrArg Rest.due hrest)).trans (State.undue_cycleStarting hc (.linkDown l))
  refine ⟨?_, ?_, congrArg Rest.tables (hfin _), congrArg Rest.portUp (hfin _), State.finish_walkCalled_off (hcs _)⟩
  · have ht := hend.walked.record (l := l) (r := s.stoodRecord l .link) hrec (by
      rw [State.stoodRecord_entry hs]
      rfl)
    rw [ht, State.stoodRecord_entry hs]
    rfl
  · have hstatus := congrArg Rest.status (hfin ((s.undue (.linkDown l)).standReport l .link
      ((s.undue (.linkDown l)).rep.raise (s.undue (.linkDown l)) ⟨.linkDown, some l, none,
        wordOf ((s.undue (.linkDown l)).status[l].linkWindow.count false)⟩)))
    change (_ : State).status = putAt s.status l { s.status[l] with linkUp := false } at hstatus
    rw [hstatus, putAt_same]

/-- While a link's going DOWN alone follows, no cycle start goes on. -/
theorem State.cycleStarting_linkDown (hf : s.following = [.linkDown l]) : s.cycleStarting = false := by
  refine Bool.eq_false_iff.mpr fun hc => ?_
  obtain ⟨e, he, hcy⟩ := List.any_eq_true.mp hc
  have hfol : e.follows = true := by cases e <;> first | rfl | exact nomatch hcy
  have hmem : e ∈ s.following := List.mem_filter.mpr ⟨he, hfol⟩
  rw [hf, List.mem_singleton] at hmem
  rw [hmem] at hcy
  exact nomatch hcy

/-- The stand frame of a loader whose link is DOWN carries LINK_ALARM. -/
theorem State.slot_standFrame {n : Nat} {m : Byte} (h : s.auth[l].state.idleFrame = some (0x01, Cause.link.code))
    (hp : s.tables.loaders[l].port = p) (hd : s.status[l].linkUp = false) (hu : s.linkIsUp p.toPort = true)
    (hm : s.tables.device.marker = m) : ∃ f : Frame,
      ((s.seek n).slotOf l n).finish.lSending[levelIndex p] = some ⟨m, f⟩
        ∧ f.header.flags = 0x09 ∧ f.payload = [0, 0, 0, 0, 0, 0, 0, 0, 0, 0, 0, 0x04] := by
  have hev := State.slotOf_idle (s := s.seek n) h n
  have hp' : (s.seek n).tables.loaders[l].port = p := hp
  have hrest : ((s.seek n).slotOf l n).finish.lSending = ((s.seek n).slotOf l n).lSending :=
    congrArg Rest.lSending (State.finish_rest _)
  rw [hrest, hev]
  dsimp only
  rw [hp', putAt_same, State.carried]
  refine ⟨_, (if_pos hu).trans (by rw [← hm]; rfl), ?_, rfl⟩
  change (0x01 : Byte) ||| (if s.status[l].linkUp then 0 else 8) = 0x09
  rw [hd]
  rfl

end slots

end Sys2Proof.Machine

namespace Sys2Proof

open Machine

/-- Settles O10: the slot comes after what follows from the last event, and sends a neutral or a stand frame. -/
theorem idleSlotSendsNeutralOrStand : Obligations.IdleSlotSendsNeutralOrStand := by
  intro s p k slot l flags cause hk instant timer b frame
  refine ⟨fun h => Timer.positionAt_slot _ k h, fun hr hn ht i d hi hd hf => ?after, fun h hl => ?none, fun h hl hfr => ?idle⟩
  case after =>
    obtain ⟨hexec, -, hslot, hslot', hdue⟩ := State.slot_after (p := p) hr hn ht hi hd hf
    have hun := State.Unmoved.takes (s.takeDue d)
    refine ⟨_, _, hexec, hslot.trans hslot'.symm, hslot, fun e he hne => ?_, ?_⟩
    · refine State.slotAt_due ?_
      rw [hun.due, hdue]
      exact (List.mem_erase_of_ne hne).mpr he
    · rintro rfl hb hra hl hs hup
      have hc := State.cycleStarting_linkDown hf
      obtain ⟨he, hport, -⟩ := State.loaderAt_some hl
      obtain ⟨hauth, hdown, htab, hports, hwalk⟩ := State.takeDue_linkDown hb hra he hc hs
      generalize s.takeDue (.linkDown l) = t at *
      have hl' : t.takes.loaderAt p slot = some l := by
        simp only [State.loaderAt, State.enabled, hun.tables, htab]
        exact hl
      have hframe : t.takes.auth[l].state.idleFrame = some (0x01, Cause.link.code) := by
        rw [(hun.auth hwalk).1, hauth]
        rfl
      rw [State.slotAt_some hk hl']
      refine State.slot_standFrame hframe ?_ ?_ ?_ ?_
      · rw [hun.tables, htab, hport]
      · rw [hun.status, hdown]
      · rw [State.linkIsUp, hun.ports, hports]
        exact hup
      · rw [hun.tables, htab]
  case none =>
    have hshow : (s.seek instant).BeaconsShow := h.2.1
    have hfinish : (s.seek instant).finish = s.seek instant := hshow.finish_shown rfl rfl rfl rfl rfl
    rw [h.exec_slot, State.slotAt_none hk hl]
    exact congrArg _ hfinish
  case idle =>
    obtain ⟨-, hport, -⟩ := State.loaderAt_some hl
    have hshow : (s.seek instant).BeaconsShow := h.2.1
    have hev := State.slotOf_idle (s := s.seek instant) hfr instant
    have hfinish : ((s.seek instant).slotOf l instant).finish = (s.seek instant).slotOf l instant := by
      rw [hev]
      exact hshow.finish_shown rfl rfl rfl rfl rfl
    have hport' : (s.seek instant).tables.loaders[l].port = p := hport
    rw [h.exec_slot, State.slotAt_some hk hl]
    refine (congrArg _ hfinish).trans ?_
    rw [hev, hport']
    rfl

end Sys2Proof
end

section
/-! AUTHORITY_RESET (R32, R35, R70, R92, R119, R170). -/

namespace Sys2Proof.Machine

open Sys2Proof

/-- With no loader queued the end of an event makes no offer: the walk called for is over, or waits within a cycle start. -/
theorem State.finish_unqueued {s : State} (h : s.callQueue = []) :
    s.finish = { s with walkCalled := s.walkCalled && s.cycleStarting }.setBeacons := by
  have hwalk : s.walk = s := by
    rw [State.walk, h]
    rfl
  obtain ⟨hc, hf⟩ | ⟨hc, hw, hf⟩ | ⟨hc, hw, hf⟩ := s.finish_cases
  · rw [hf, hc, Bool.and_true]
  · rw [hf, hc, hw, Bool.and_false, ← hw]
  · rw [hf, hc, hwalk, Bool.and_false]

/-- What the reset makes of the records, the mailboxes, the chairs and the views. -/
def State.resetRecords (s : State) : State := { s with
  auth := tabulate fun l => s.auth[l].afterReset (s.enabled l)
  builders := mapAll Builder.emptied s.builders
  windows := Vector.replicate 16 []
  chairs := mapAll ChairState.gone s.chairs
  views := mapAll (mapAll fun e : ViewEntry => { e with active := false }) s.views
  callQueue := []
  freeList := []
  agent := { s.agent with resetMark := false } }

theorem State.authorityReset_eq (s : State) : s.authorityReset =
    s.resetRecords.withRep (s.rep.raise s.resetRecords ⟨.authorityReset, none, none, 0⟩) := rfl

end Sys2Proof.Machine

namespace Sys2Proof

open Machine

/-- Settles O19: every record of authority is emptied, and no walk finds a loader queued. -/
theorem authorityResetClearsAuthority : Obligations.AuthorityResetClearsAuthority := by
  intro s hd
  have hexec : exec .authorityReset s = .next (s.undue .authorityReset).authorityReset.finish :=
    congrArg Host.Outcome.next (State.runDue_ofCycleStart hd rfl State.authorityReset)
  rw [State.authorityReset_eq, State.finish_unqueued rfl] at hexec
  refine ⟨_, hexec, fun l => ?_, fun c => ?_, fun l => ⟨?_, ?_⟩, fun c l => ?_, rfl, rfl, rfl, rfl, fun n => ?_, ?_, rfl⟩
  · exact tabulate_get _ _
  · exact mapAll_get _ _ _
  · exact mapAll_get _ _ _
  · change (Vector.replicate 16 [] : Vector (List Bool) 16)[l] = []
    simp
  · have hrow : s.resetRecords.views[c] = mapAll (fun e : ViewEntry => { e with active := false }) s.views[c] := mapAll_get _ _ _
    exact (congrArg (fun row : Vector ViewEntry 16 => row[l]) hrow).trans (mapAll_get _ _ _)
  · exact tabulate_get _ _
  · exact Report.raise_same (State.sameReporting_of_records rfl rfl rfl) _ _

end Sys2Proof
end

section
/-! How operations move a loader's epoch (R5): it advances where a holder is removed, and the mailboxes are emptied with it. -/

namespace Sys2Proof.Machine

open Sys2Proof

/-- Both mailboxes hold nothing (R5, R57). -/
structure Builder.Empty (b : Builder) : Prop where
  holder : b.holder = none
  cand : b.cand = none
  lastCand : b.lastCand = none
  stale : b.stale = 0

theorem Builder.emptied_empty (b : Builder) : b.emptied.Empty := ⟨rfl, rfl, rfl, rfl⟩

theorem Builder.Empty.candEmptied {b : Builder} (h : b.Empty) : b.candEmptied.Empty := ⟨h.holder, rfl, rfl, h.stale⟩

/-- What an operation other than a grant makes of loader l's epoch: kept, a loader with no holder staying so with its mailboxes
empty; or advanced, with its holder removed and the mailboxes emptied. -/
inductive State.Paces (l : Loader) (s t : State) : Prop
  | kept (he : t.auth[l].epoch = s.auth[l].epoch)
      (hk : s.auth[l].state.holder = none → t.auth[l].state.holder = none ∧ (s.builders[l].Empty → t.builders[l].Empty))
  | advanced (hs : s.auth[l].state.holder ≠ none) (he : t.auth[l].epoch = s.auth[l].epoch + 1)
      (hn : t.auth[l].state.holder = none) (hb : t.builders[l].Empty)

namespace State.Paces
variable {s t u : State} {l k : Loader} {c : Chair}

theorem refl (s : State) : State.Paces l s s := .kept rfl fun h => ⟨h, id⟩

theorem trans (h : State.Paces l s t) (h' : State.Paces l t u) : State.Paces l s u := by
  obtain ⟨he, hk⟩ | ⟨hs, he, hn, hb⟩ := h
  · obtain ⟨he', hk'⟩ | ⟨hs', he', hn', hb'⟩ := h'
    · refine .kept (he'.trans he) fun h0 => ?_
      obtain ⟨hn, hb⟩ := hk h0
      obtain ⟨hn', hb'⟩ := hk' hn
      exact ⟨hn', fun hemp => hb' (hb hemp)⟩
    · exact .advanced (fun h0 => hs' (hk h0).1) (by rw [he', he]) hn' hb'
  · obtain ⟨he', hk'⟩ | ⟨hs', -, -, -⟩ := h'
    · obtain ⟨hn', hb'⟩ := hk' hn
      exact .advanced hs (by rw [he', he]) hn' (hb' hb)
    · exact absurd hn hs'

/-- An operation that leaves the record and the mailboxes of the loader. -/
theorem silentAt (h : State.Paces l s t) (ha : u.auth[l] = t.auth[l]) (hb : u.builders[l] = t.builders[l]) : State.Paces l s u :=
  h.trans (.kept (by rw [ha]) fun h0 => ⟨by rw [ha, h0], fun hemp => by rw [hb]; exact hemp⟩)

theorem silent (h : State.Paces l s t) (ha : u.auth = t.auth) (hb : u.builders = t.builders) : State.Paces l s u :=
  h.silentAt (by rw [ha]) (by rw [hb])

theorem count (h : State.Paces l s t) (id n) : State.Paces l s (t.count id n) := h.silent rfl rfl
theorem raise (h : State.Paces l s t) (e k d w) : State.Paces l s (t.raise e k d w) := h.silent rfl rfl
theorem notice (h : State.Paces l s t) (d n) : State.Paces l s (t.notice d n) := h.silent rfl rfl
theorem done (h : State.Paces l s t) (d tag k e n m) : State.Paces l s (t.done d tag k e n m) := h.silent rfl rfl
theorem refuse (h : State.Paces l s t) (d tag k why) : State.Paces l s (t.refuse d tag k why) := h.silent rfl rfl
theorem callWalk (h : State.Paces l s t) : State.Paces l s t.callWalk := h.silent rfl rfl
theorem withdrawn (h : State.Paces l s t) (k d n why) : State.Paces l s (t.withdrawn k d n why) := h.silent rfl rfl
theorem aborted (h : State.Paces l s t) (k d why) : State.Paces l s (t.aborted k d why) := h.silent rfl rfl

/-- The record of a loader gets a state with no more holder than it had. -/
theorem setAuth (h : State.Paces l s t) (k : Loader) (a : AuthState) (ha : t.auth[k].state.holder = none → a.holder = none) :
    State.Paces l s (t.setAuth k a) := by
  by_cases hk : k = l
  · subst hk
    have hset : (t.setAuth k a).auth[k] = ⟨a, t.auth[k].epoch⟩ := by rw [State.setAuth_auth, putAt_same]
    exact h.trans (.kept (by rw [hset]) fun h0 => ⟨by rw [hset]; exact ha h0, id⟩)
  · exact h.silentAt (by rw [State.setAuth_auth, putAt_other _ _ hk]) rfl

theorem setBuilder (h : State.Paces l s t) (k : Loader) (b : Builder)
    (hb : t.auth[k].state.holder = none → t.builders[k].Empty → b.Empty) : State.Paces l s (t.setBuilder k b) := by
  by_cases hk : k = l
  · subst hk
    exact h.trans (.kept rfl fun h0 => ⟨h0, fun hemp => by rw [State.setBuilder_builders, putAt_same]; exact hb h0 hemp⟩)
  · exact h.silentAt rfl (by rw [State.setBuilder_builders, putAt_other _ _ hk])

theorem clearMatch (h : State.Paces l s t) (k : Loader) : State.Paces l s (t.clearMatch k) :=
  State.Paces.setBuilder (t := t.setWindow k []) (h.silent rfl rfl) k _ fun _ hemp => hemp.candEmptied

theorem release (h : State.Paces l s t) (d) : State.Paces l s (t.release d) :=
  h.silent (State.release_auth _ _) (State.release_builders _ _)

theorem enterCalling (h : State.Paces l s t) (k w d) : State.Paces l s (t.enterCalling k w d) :=
  (h.setAuth k (.calling w) fun _ => rfl).silent rfl rfl

theorem enterFree (h : State.Paces l s t) (k) : State.Paces l s (t.enterFree k) := by
  have hf := h.setAuth k .free fun _ => rfl
  simp only [State.enterFree]
  split
  · exact hf.enterCalling _ _ _
  · exact hf

theorem offerGone (h : State.Paces l s t) (d n) : State.Paces l s (t.offerGone d n) :=
  State.Paces.release (t := t.setChair d { t.chairs[d] with lastEnded := some n }) (h.silent rfl rfl) d

theorem endOffer (k d n w) {go : State → State} (hg : State.Paces l s (go (t.offerGone d n))) :
    State.Paces l s (t.endOffer k d n w go) :=
  hg.silent rfl rfl

theorem endMatching (h : State.Paces l s t) (k d) : State.Paces l s (t.endMatching k d) := (h.clearMatch k).release d

theorem returnLoader (h : State.Paces l s t) (k) : State.Paces l s (t.returnLoader k) := by
  obtain ⟨x, hh⟩ | ⟨hh, w, ho, hc⟩ | ⟨hh, ho⟩ := t.return_cases k
  · rw [State.returnLoader_held hh]
    exact h.setAuth k _ fun h0 => nomatch hh.symm.trans h0
  · rw [State.returnLoader_requeued hh ho hc]
    exact h.enterCalling _ _ _
  · rw [State.returnLoader_freed hh ho]
    exact h.enterFree _

theorem endOffer_return (h : State.Paces l s t) (k d n w) : State.Paces l s (t.endOffer k d n w (·.returnLoader k)) :=
  endOffer k d n w ((h.offerGone d n).returnLoader k)

theorem makeOffer (h : State.Paces l s t) (k d o) : State.Paces l s (t.makeOffer k d o) := by
  have hset := h.setAuth k (.offered t.auth[k].state.holder d t.auth[k].state.offerOrigin (t.offerCounter + 1) o
    t.tables.device.offerTimeout) fun h0 => h0
  exact hset.silent rfl rfl

/-- A matching begins with no more holder than there was. -/
theorem beginMatching (h : State.Paces l s t) (k ho d o r) (hh : t.auth[k].state.holder = none → ho = none) :
    State.Paces l s (t.beginMatching k ho d o r) := by
  have hset := (h.setAuth k (.matching ho d o r t.tables.device.matchTimeout) hh).clearMatch k
  exact hset.silent rfl rfl

theorem reportStand (h : State.Paces l s t) (k d cause) : State.Paces l s (t.reportStand k d cause) := by
  obtain ⟨r, hr⟩ := t.reportStand_eq k d cause
  rw [hr]
  exact h.silent rfl rfl

/-- A holder is removed, with the epoch advanced. -/
theorem letGo (h : State.Paces l s t) (k d a) (hh : t.auth[k].state.holder ≠ none) (ha : a.holder = none) :
    State.Paces l s (t.letGo k d a) := by
  by_cases hk : k = l
  · subst hk
    have hrec : (t.letGo k d a).auth[k] = ⟨a, t.auth[k].epoch + 1⟩ := by rw [State.letGo_auth, putAt_same]
    refine h.trans (.advanced hh (by rw [hrec]) (by rw [hrec]; exact ha) ?_)
    rw [State.letGo_builders, putAt_same]
    exact Builder.emptied_empty _
  · exact h.silentAt (by rw [State.letGo_auth, putAt_other _ _ hk]) (by rw [State.letGo_builders, putAt_other _ _ hk])

theorem dropRetained (h : State.Paces l s t) (k) : State.Paces l s (t.dropRetained k) := by
  cases ha : t.auth[k].state with
  | standing x cause =>
    cases x with
    | none =>
      have hsame : t.dropRetained k = t := by simp only [State.dropRetained, ha]
      rw [hsame]
      exact h
    | some x =>
      rw [State.dropRetained_letGo ha]
      exact h.letGo _ _ _ (by rw [ha]; nofun) rfl
  | _ =>
    have hsame : t.dropRetained k = t := by simp only [State.dropRetained, ha]
    rw [hsame]
    exact h

theorem standParties (h : State.Paces l s t) (k) : State.Paces l s (t.standParties k) := by
  unfold State.standParties
  split
  · exact endOffer _ _ _ _ (State.Paces.offerGone (h.withdrawn _ _ _ _) _ _)
  · exact (h.aborted _ _ _).endMatching _ _
  · exact h.silent rfl rfl
  · exact h

/-- A stand that removes no holder. -/
theorem standEntry_keeping (h : State.Paces l s t) (k cause) (hk : t.auth[k].state.holder = none ∨ cause.retains = true) :
    State.Paces l s (t.standEntry k cause) := by
  have hholder : t.standHolder k cause = t := by
    unfold State.standHolder
    obtain hn | hr := hk
    · rw [hn]
    · rw [hr]
      cases t.auth[k].state.holder <;> rfl
  have hset := (h.standParties k).setAuth k (.standing (if cause.retains then t.auth[k].state.holder else none) cause) (by
    rw [State.standParties_auth]
    intro h0
    rw [h0]
    exact ite_self _)
  rw [State.standEntry, hholder]
  exact hset.reportStand _ _ _

/-- A stand that removes the holder advances the epoch (R8 part 1). -/
theorem standEntry_removing (h : State.Paces l s t) (k cause) (hh : t.auth[k].state.holder ≠ none) (hr : cause.retains = false) :
    State.Paces l s (t.standEntry k cause) := by
  by_cases hk : k = l
  · subst hk
    obtain ⟨x, hx⟩ := Option.ne_none_iff_exists'.mp hh
    have hholder : t.standHolder k cause = (t.advanceEpoch k).release x := by
      simp only [State.standHolder, hx, hr, Bool.false_eq_true, if_false]
    have hemptied : ((t.advanceEpoch k).release x).builders[k] = t.builders[k].emptied := by
      rw [State.release_builders, State.advanceEpoch_builders, putAt_same]
    have hrec : (t.standEntry k cause).auth[k] = ⟨.standing none cause, t.auth[k].epoch + 1⟩ := by
      rw [State.standEntry_record, putAt_same, State.standEpoch, Cause.keeps_eq, hr, hx]
      rfl
    have hbuilders : (t.standEntry k cause).builders = (((t.advanceEpoch k).release x).standParties k).builders := by
      rw [State.standEntry, hholder]
      obtain ⟨r, hrep⟩ := ((((t.advanceEpoch k).release x).standParties k).setAuth k
        (.standing (if cause.retains then t.auth[k].state.holder else none) cause)).reportStand_eq k t.auth[k].state.holder cause
      rw [hrep]
      rfl
    refine h.trans (.advanced hh (by rw [hrec]) (by rw [hrec]; rfl) ?_)
    rw [hbuilders]
    obtain hb | hb := ((t.advanceEpoch k).release x).standParties_builders k
    · rw [hb, hemptied]
      exact Builder.emptied_empty _
    · rw [hb, putAt_same, hemptied]
      exact (Builder.emptied_empty _).candEmptied
  · have htouch := (State.Touches.refl (l := k) (c := 0) t).standEntry cause
    exact h.silentAt (htouch.auth l (Ne.symm hk)) (htouch.builders l (Ne.symm hk))

/-- Entry into STANDING keeps the holder and the epoch, or removes a holder and advances it (R8). -/
theorem standEntry (h : State.Paces l s t) (k cause) : State.Paces l s (t.standEntry k cause) := by
  by_cases hh : t.auth[k].state.holder = none
  · exact h.standEntry_keeping k cause (.inl hh)
  · cases hr : cause.retains with
    | true => exact h.standEntry_keeping k cause (.inr hr)
    | false => exact h.standEntry_removing k cause hh hr

theorem stand (h : State.Paces l s t) (k cause) : State.Paces l s (t.stand k cause) := by
  unfold State.stand
  split
  · next retained recorded ha =>
    split
    · exact (h.setAuth k _ fun h0 => by rw [ha] at h0; exact h0).reportStand _ _ _
    · exact h
  · exact h.standEntry k cause

theorem standAll (h : State.Paces l s t) (xs : List Loader) (cause : Cause) :
    State.Paces l s (xs.foldl (fun s l => s.stand l cause) t) :=
  foldl_inv _ (State.Paces l s) (fun _ k hu => hu.stand k cause) xs t h

/-! ## Chairs (Chapter 2) -/

theorem absentPlace (h : State.Paces l s t) (d k) : State.Paces l s (t.absentPlace d k) := by
  unfold State.absentPlace
  repeat' split
  · exact h.dropRetained _
  · exact h
  · exact h.standEntry _ _
  · exact h
  · exact h.standEntry _ _
  · exact h.endOffer_return _ _ _ _
  · exact h
  · exact h.standEntry _ _
  · exact (h.endMatching _ _).returnLoader _
  · exact h
  · exact h

theorem becomeAbsent (h : State.Paces l s t) (d w) : State.Paces l s (t.becomeAbsent d w) := by
  have hr : State.Paces l s ((((t.setChair d t.chairs[d].gone).leaveList d).clearViews d).raise .chairAbsent none (some d) w) :=
    h.silent rfl rfl
  simp only [State.becomeAbsent]
  split
  · exact hr
  · exact hr.absentPlace _ _

theorem noticeIfPresent (h : State.Paces l s t) (d n) : State.Paces l s (t.noticeIfPresent d n) := by
  unfold State.noticeIfPresent
  repeat' split
  · exact h
  · exact h
  · exact h.notice _ _

theorem permitEnds (h : State.Paces l s t) (d k) : State.Paces l s (t.permitEnds d k) := by
  unfold State.permitEnds
  repeat' split
  · exact (h.dropRetained _).noticeIfPresent _ _
  · exact h
  · exact h.standEntry _ _
  · exact h
  · exact h.standEntry _ _
  · exact (h.withdrawn _ _ _ _).endOffer_return _ _ _ _
  · exact h
  · exact h.standEntry _ _
  · exact ((h.aborted _ _ _).endMatching _ _).returnLoader _
  · exact h
  · exact h

theorem missOffer (h : State.Paces l s t) (d) : State.Paces l s (t.missOffer d) := by
  simp only [State.missOffer]
  split
  · exact h.silent rfl rfl
  · exact h.silent rfl rfl

/-! ## The Status Unit (Chapter 6) -/

theorem farEndStep (h : State.Paces l s t) (k b) : State.Paces l s (t.farEndStep k b) := by
  simp only [State.farEndStep, State.degradeTest]
  repeat' split
  all_goals exact h.silent rfl rfl

theorem zoneStep (h : State.Paces l s t) (k b) : State.Paces l s (t.zoneStep k b) := by
  have hz (st) : State.Paces l s (t.setStatus k st) := h.silent rfl rfl
  simp only [State.zoneStep]
  repeat' split
  · exact h
  · exact ((hz _).raise _ _ _ _).stand _ _
  · exact hz _

theorem requestChanged (h : State.Paces l s t) (k) : State.Paces l s (t.requestChanged k) := by
  unfold State.requestChanged
  dsimp only
  repeat' split
  · exact h.enterCalling _ _ _
  · exact h
  · unfold State.resort
    split
    · exact h.silent rfl rfl
    · exact h
  · refine State.Paces.enterFree (State.Paces.raise ?_ _ _ _ _) _
    exact State.Paces.setAuth (t := t.dequeue k) (h.silent rfl rfl) k .free fun _ => rfl
  · exact h
  · refine endOffer _ _ _ _ (State.Paces.enterFree (State.Paces.raise ?_ _ _ _ _) _)
    exact ((h.withdrawn _ _ _ _).offerGone _ _).setAuth k .free fun _ => rfl
  · exact h

end State.Paces

end Sys2Proof.Machine
end

section
/-! The epoch over every row but a grant and the authority reset (R5). -/

namespace Sys2Proof.Machine

open Sys2Proof

namespace State.Paces
variable {s t u : State} {l k : Loader} {c : Chair}

/-! ## STATUS frames and deadlines (Chapter 6) -/

theorem faultReport (h : State.Paces l s t) (k r) : State.Paces l s (t.faultReport k r) := by
  simp only [State.faultReport]
  split <;> exact h.silent rfl rfl

theorem requestStep (h : State.Paces l s t) (k b) : State.Paces l s (t.requestStep k b) := by
  simp only [State.requestStep]
  repeat' split
  · refine State.Paces.faultReport (State.Paces.requestChanged ?_ k) _ _
    exact h.silent rfl rfl
  · refine State.Paces.requestChanged ?_ k
    exact h.silent rfl rfl
  · exact h.silent rfl rfl

theorem modeStep (h : State.Paces l s t) (k b) : State.Paces l s (t.modeStep k b) := by
  unfold State.modeStep
  repeat' split
  · exact State.Paces.enterFree (State.Paces.raise (h.setAuth k .free fun _ => rfl) _ _ _ _) _
  · exact h
  · exact h

theorem walk (h : State.Paces l s t) : State.Paces l s t.walk := by
  refine foldl_inv _ (State.Paces l s) (fun u e hu => ?_) t.callQueue t h
  unfold State.walkOne
  split
  · exact hu.makeOffer _ _ _
  · exact hu

theorem walkIfCalled (h : State.Paces l s t) : State.Paces l s t.walkIfCalled := by
  unfold State.walkIfCalled
  split
  · exact h.walk.silent rfl rfl
  · exact h

theorem forwardStep (h : State.Paces l s t) (k hd p) : State.Paces l s (t.forwardStep k hd p) := by
  refine foldl_inv _ (State.Paces l s) (fun u c hu => ?_) (t.receivers k) t h
  unfold State.forwardOne
  split
  · exact hu.silent rfl rfl
  · exact hu.silent rfl rfl

theorem statusFrame (s : State) (k hd p) : State.Paces l s (s.statusFrame k hd p) := by
  unfold State.statusFrame
  split
  · exact refl s
  · have hheard : State.Paces l s (s.heardStep k) := (refl s).silent rfl rfl
    exact State.Paces.forwardStep ((((hheard.farEndStep _ _).zoneStep _ _).requestStep _ _).modeStep _ _).walkIfCalled _ _ _

theorem enterOutcome (s : State) (k) : State.Paces l s (s.enterOutcome k) := by
  simp only [State.enterOutcome]
  split <;> exact (refl s).silent rfl rfl

theorem AuthState.stepTimer_holder (a : AuthState) : a.stepTimer.holder = a.holder := by cases a <;> rfl

theorem deadline (h : State.Paces l s t) (k) : State.Paces l s (t.deadline k) := by
  have hset := (h.trans (enterOutcome t k)).setAuth k (t.enterOutcome k).auth[k].state.stepTimer fun h0 => by
    rwa [AuthState.stepTimer_holder]
  unfold State.deadline
  split
  · exact hset.silent rfl rfl
  · exact h

theorem pendingDeadline (s : State) (f) : State.Paces l s (s.pendingDeadline f) := by
  unfold State.pendingDeadline
  split
  · refine State.Paces.deadline ?_ f.loader
    exact (refl s).silent rfl rfl
  · exact refl s

theorem linkDownTest (s : State) (k) : State.Paces l s (s.linkDownTest k) := by
  unfold State.linkDownTest
  split
  · exact State.Paces.stand (State.Paces.raise (t := s.setStatus k { s.status[k] with linkUp := false })
      ((refl s).silent rfl rfl) _ _ _ _) k .link
  · exact refl s

theorem linkUpTest (s : State) (k) : State.Paces l s (s.linkUpTest k) := by
  unfold State.linkUpTest
  split
  · exact (refl s).silent rfl rfl
  · exact refl s

theorem readyTest (s : State) (k) : State.Paces l s (s.readyTest k) := by
  unfold State.readyTest
  repeat' split
  · exact State.Paces.enterFree (((refl s).setAuth k .free fun _ => rfl).raise _ _ _ _) _
  · exact refl s
  · exact refl s

theorem offerExpiry (s : State) (k) : State.Paces l s (s.offerExpiry k) := by
  unfold State.offerExpiry
  repeat' split
  · exact State.Paces.endOffer_return (((refl s).withdrawn _ _ _ _).missOffer _) _ _ _ _
  · exact refl s
  · exact refl s

theorem matchTimeout (s : State) (k) : State.Paces l s (s.matchTimeout k) := by
  unfold State.matchTimeout
  repeat' split
  · exact ((((refl s).notice _ _).count _ _).raise _ _ _ _).endMatching _ _ |>.returnLoader _
  · exact refl s
  · exact refl s

theorem releaseTimeout (s : State) (k) : State.Paces l s (s.releaseTimeout k) := by
  unfold State.releaseTimeout
  split
  · exact (refl s).standEntry _ _
  · exact refl s

theorem presenceExpiry (s : State) (d) : State.Paces l s (s.presenceExpiry d) := by
  unfold State.presenceExpiry
  split
  · exact (refl s).becomeAbsent _ _
  · exact refl s

/-! ## Slots (Chapter 4) -/

theorem sendIdle (h : State.Paces l s t) (k f) : State.Paces l s (t.sendIdle k f) := by
  have hset := h.setBuilder k { t.builders[k] with stale := 0, lastOut := .zero, lastGear := .neutral, outSeq := t.builders[k].outSeq + 1 }
    fun _ he => ⟨he.holder, he.cand, he.lastCand, rfl⟩
  rw [State.sendIdle_eq]
  exact hset.silent rfl rfl

theorem slotDriven (h : State.Paces l s t) (k) (hd : t.auth[k].state.driven = true) : State.Paces l s (t.slotDriven k) := by
  have hh : t.auth[k].state.holder ≠ none := by
    intro h0
    rw [AuthState.driven, h0, Bool.and_eq_true] at hd
    exact nomatch hd.2
  unfold State.slotDriven
  split
  · exact (h.standEntry _ _).sendIdle _ _
  · have hset := h.setBuilder k { t.builders[k] with stale := t.builders[k].staleNext, fresh := false } fun h0 => absurd h0 hh
    dsimp only
    rw [State.sendFrame_eq]
    refine State.Paces.silent (t := (t.setBuilder k _).setBuilder k _) (hset.setBuilder k _ fun h0 => absurd h0 hh) rfl rfl

theorem slotFrame (h : State.Paces l s t) (k) : State.Paces l s (t.slotFrame k) := by
  unfold State.slotFrame
  cases ha : t.auth[k].state with
  | standing x cause =>
    cases cause with
    | disabled => exact h
    | _ => exact h.sendIdle _ _
  | held x => exact h.slotDriven k (by rw [ha]; rfl)
  | offered holder x o n p m =>
    cases holder with
    | none => exact h.sendIdle _ _
    | some y => exact h.slotDriven k (by rw [ha]; rfl)
  | matching holder x o p m =>
    cases holder with
    | none => exact h.sendIdle _ _
    | some y => exact h.slotDriven k (by rw [ha]; rfl)
  | _ => exact h.sendIdle _ _

theorem slotOf (h : State.Paces l s t) (k n) : State.Paces l s (t.slotOf k n) := by
  rw [State.slotOf_eq]
  exact (h.slotFrame k).silent rfl rfl

theorem slotAt (s : State) (p k) : State.Paces l s (s.slotAt p k) := by
  unfold State.slotAt
  dsimp only
  split
  · refine State.Paces.slotOf ?_ _ _
    exact (refl s).silent rfl rfl
  · exact (refl s).silent rfl rfl

theorem staleSlot (s : State) (x) : State.Paces l s (s.staleSlot x) := by
  unfold State.staleSlot
  dsimp only
  split
  · refine State.Paces.slotOf ?_ _ _
    exact (refl s).silent rfl rfl
  · exact refl s

/-! ## Lines (Chapter 7) -/

theorem activate (h : State.Paces l s t) (i) : State.Paces l s (t.activate i) :=
  State.Paces.standAll (t := (t.setLine i { t.lines[i] with status := .active }).raise .interlockActive none none (lineDetail i))
    (h.silent rfl rfl) _ _

theorem becomeSafe (h : State.Paces l s t) (i) : State.Paces l s (t.becomeSafe i) := by
  simp only [State.becomeSafe]
  split <;> exact h.silent rfl rfl

theorem moveLine (h : State.Paces l s t) (i) : State.Paces l s (t.moveLine i) := by
  obtain he | ⟨_, he⟩ | he := t.moveLine_cases i <;> rw [he]
  · exact h.activate i
  · exact h.becomeSafe i
  · exact h

theorem settleLine (s : State) (i) : State.Paces l s (s.settleLine i) := by
  simp only [State.settleLine]
  split
  · refine State.Paces.moveLine ?_ i
    exact (refl s).silent rfl rfl
  · exact refl s

theorem applyLine (h : State.Paces l s t) (i e) : State.Paces l s (t.applyLine i e) := by
  have hw : State.Paces l s (t.withLine i e) := h.silent rfl rfl
  cases he : e.enabled with
  | false =>
    rw [State.applyLine_disabled he]
    split
    · exact hw.silent rfl rfl
    · exact hw
  | true =>
    cases ho : t.tables.lines[i].enabled with
    | false =>
      rw [State.applyLine_enable he ho]
      simp only [State.beginLine]
      refine State.Paces.activate ?_ i
      exact hw.silent rfl rfl
    | true =>
      rw [State.applyLine_changed he ho]
      simp only [State.widenLine]
      split
      · exact hw.moveLine i
      · exact (hw.moveLine i).standAll _ _

/-! ## Tables (Chapter 10) -/

theorem applyChair (h : State.Paces l s t) (d e) : State.Paces l s (t.applyChair d e) := by
  have hw : State.Paces l s { t with tables := { t.tables with chairs := putAt t.tables.chairs d e } } := h.silent rfl rfl
  have htrim (u : State) (hu : State.Paces l s u) (set) : State.Paces l s (u.trimViews d set).callWalk := hu.silent rfl rfl
  simp only [State.applyChair]
  refine htrim _ ?_ _
  repeat' split
  · exact hw.becomeAbsent _ _
  · exact hw.becomeAbsent _ _
  · unfold State.narrowPermits
    repeat' split
    · exact hw
    · exact hw
    · exact hw.permitEnds _ _

theorem disableStanding (h : State.Paces l s t) (k x) : State.Paces l s (t.disableStanding k x) := by
  cases x with
  | none => exact (h.setAuth k (.standing none .disabled) fun _ => rfl).reportStand k none .disabled
  | some x => exact ((h.dropRetained k).setAuth k (.standing none .disabled) fun _ => rfl).reportStand k (some x) .disabled

theorem disableLoader (h : State.Paces l s t) (k) : State.Paces l s (t.disableLoader k) := by
  unfold State.disableLoader
  dsimp only
  split
  · exact (h.disableStanding k _).silent rfl rfl
  · exact (h.standEntry k .disabled).silent rfl rfl

theorem applyLoader (h : State.Paces l s t) (k e) : State.Paces l s (t.applyLoader k e) := by
  have hw : State.Paces l s (t.withLoader k e) := h.silent rfl rfl
  have hsw (old : Bool) : State.Paces l s ((t.withLoader k e).switchLoader old e k) := by
    simp only [State.switchLoader]
    repeat' split
    · exact hw.disableLoader k
    · obtain he | he := (t.withLoader k e).enableLoader_cases k <;> rw [he]
      · exact hw
      · exact hw.setAuth k _ fun _ => rfl
    · exact hw
  have hcall (u : State) (hu : State.Paces l s u) : State.Paces l s u.callWalk := hu.silent rfl rfl
  rw [State.applyLoader_eq]
  refine hcall _ ?_
  split
  · exact hsw _
  · unfold State.resort
    split
    · exact (hsw _).silent rfl rfl
    · exact hsw _

theorem applyEntry (h : State.Paces l s t) (r) : State.Paces l s (t.applyEntry r) := by
  have hc : State.Paces l s { t with writes := t.writes.clear r } := h.silent rfl rfl
  cases r with
  | chair d =>
    simp only [State.applyEntry]
    split
    · exact h
    · exact hc.applyChair _ _
  | loader k =>
    simp only [State.applyEntry]
    split
    · exact h
    · exact hc.applyLoader _ _
  | line i =>
    simp only [State.applyEntry]
    split
    · exact h
    · exact hc.applyLine _ _
  | device => simp only [State.applyEntry]; split <;> exact h.silent rfl rfl
  | mgmtStation => simp only [State.applyEntry]; split <;> exact h.silent rfl rfl
  | zone => simp only [State.applyEntry]; split <;> exact h.silent rfl rfl
  | rule => simp only [State.applyEntry]; split <;> exact h.silent rfl rfl
  | event => simp only [State.applyEntry]; split <;> exact h.silent rfl rfl

theorem tableApplied (s : State) (order b) : State.Paces l s (s.tableApplied order b) := by
  have happly (u : State) (hu : State.Paces l s u) : State.Paces l s (u.applyWrites order) := by
    have hf := foldl_inv State.applyEntry (State.Paces l s) (fun u r hu => hu.applyEntry r) (order ++ allRefs) u hu
    simp only [State.applyWrites, State.endCommissioning]
    split
    · exact hf.silent rfl rfl
    · exact hf
  have tell (u : State) (hu : State.Paces l s u) (n d) :
      State.Paces l s (if n = 0 then u else u.raise .tableApplied none none d) := by
    split
    · exact hu
    · exact hu.raise _ _ _ _
  simp only [State.tableApplied]
  split
  · exact happly _ (tell s (refl s) _ _)
  · exact tell _ (happly s (refl s)) _ _

theorem drawPhases (h : State.Paces l s t) : State.Paces l s t.drawPhases := by
  obtain ⟨-, -, hrest⟩ := t.drawPhases_drawn
  rw [hrest]
  exact h.silent rfl rfl

theorem boundary (s : State) (order b) : State.Paces l s ((s.tableApplied order b).undue .phaseDraw).drawPhases := by
  refine State.Paces.drawPhases ?_
  exact (tableApplied s order b).silent rfl rfl

end State.Paces

end Sys2Proof.Machine
end

section
/-! The epoch over chair requests, grants and the authority reset, and over a whole command (R5). -/

namespace Sys2Proof.Machine

open Sys2Proof

namespace State.Paces
variable {s t u : State} {l k : Loader} {c : Chair}

/-! ## Requests (Chapter 1) -/

theorem authorityRequest {c b tag fits} {next : State → Loader → State} (hk : ∀ m : Loader, State.Paces l s (next s m)) :
    State.Paces l s (s.authorityRequest c b tag fits next) := by
  simp only [State.authorityRequest]
  repeat' split
  · exact (refl s).refuse _ _ _ _
  · exact (refl s).refuse _ _ _ _
  · exact (refl s).refuse _ _ _ _
  · exact (refl s).refuse _ _ _ _
  · exact (refl s).refuse _ _ _ _
  · exact hk _

theorem dropTaken (h : State.Paces l s t) (d k x) : State.Paces l s (t.dropTaken d k x) := by
  refine State.Paces.dropRetained ?_ k
  exact h.silent rfl rfl

theorem offerRequest (s : State) (c b tag args) : State.Paces l s (s.offerRequest c b tag args) := by
  unfold State.offerRequest
  refine authorityRequest fun m => ?_
  repeat' split
  · exact refl s
  · exact (refl s).refuse _ _ _ _
  · exact ((refl s).done _ _ _ _ _ _).makeOffer _ _ _

theorem acceptRequest (s : State) (c b tag args) : State.Paces l s (s.acceptRequest c b tag args) := by
  unfold State.acceptRequest
  refine authorityRequest fun m => ?_
  dsimp only
  split
  · next holder chair origin n offerer timer ha =>
    split
    · have hb := ((refl s).done c tag m (s.auth[m].epoch + 1) ((offerNumberArg args).getD 0) s.tables.device.matchTimeout).beginMatching
        (l := l) m holder c origin offerer fun h0 => by
          change s.auth[m].state.holder = none at h0
          rwa [ha] at h0
      exact hb.silent rfl rfl
    · exact (refl s).silent rfl rfl
  · exact (refl s).silent rfl rfl

theorem declineRequest (s : State) (c b tag args) : State.Paces l s (s.declineRequest c b tag args) := by
  unfold State.declineRequest
  refine authorityRequest fun m => ?_
  dsimp only
  repeat' split
  · exact ((refl s).done _ _ _ _ _ _).endOffer_return _ _ _ _
  · exact (refl s).silent rfl rfl
  · exact (refl s).silent rfl rfl

theorem cancelRequest (s : State) (c b tag args) : State.Paces l s (s.cancelRequest c b tag args) := by
  unfold State.cancelRequest
  refine authorityRequest fun m => ?_
  dsimp only
  repeat' split
  · exact (((refl s).done _ _ _ _ _ _).withdrawn _ _ _ _).endOffer_return _ _ _ _
  · exact (refl s).refuse _ _ _ _
  · exact (((refl s).done _ _ _ _ _ _).endMatching _ _).returnLoader _
  · exact ((((refl s).done _ _ _ _ _ _).aborted _ _ _).endMatching _ _).returnLoader _
  · exact (refl s).refuse _ _ _ _
  · exact (refl s).refuse _ _ _ _

theorem takeSupervisor (s : State) (c tag k) : State.Paces l s (s.takeSupervisor c tag k) := by
  have hd (e) : State.Paces l s (s.done c tag k e 0 s.tables.device.matchTimeout) := (refl s).done _ _ _ _ _ _
  unfold State.takeSupervisor
  refine State.Paces.raise ?_ _ _ _ _
  dsimp only
  cases ha : s.auth[k].state with
  | calling w =>
    refine State.Paces.beginMatching ?_ k none c .direct none fun _ => rfl
    exact (hd (s.auth[k].epoch + 1)).silent rfl rfl
  | offered holder x o n p m =>
    refine endOffer _ _ _ _ ?_
    refine State.Paces.beginMatching (((hd _).withdrawn _ _ _ _).offerGone _ _) k holder c .direct none fun h0 => ?_
    rw [State.offerGone_auth] at h0
    change s.auth[k].state.holder = none at h0
    rwa [ha] at h0
  | matching holder x o p m =>
    refine State.Paces.beginMatching (((hd _).aborted _ _ _).endMatching _ _) k holder c .direct none fun h0 => ?_
    rw [State.endMatching_auth] at h0
    change s.auth[k].state.holder = none at h0
    rwa [ha] at h0
  | held holder =>
    refine State.Paces.beginMatching (hd _) k (some holder) c .direct none fun h0 => ?_
    change s.auth[k].state.holder = none at h0
    rw [ha] at h0
    exact nomatch h0
  | standing x cause =>
    cases x with
    | none => exact (hd _).beginMatching k none c .direct none fun _ => rfl
    | some x => exact ((hd _).dropTaken c k x).beginMatching k none c .direct none fun _ => rfl
  | _ => exact (hd _).beginMatching k none c .direct none fun _ => rfl

theorem takeRequest (s : State) (c b tag args) : State.Paces l s (s.takeRequest c b tag args) := by
  unfold State.takeRequest
  refine authorityRequest fun m => ?_
  repeat' split
  · exact (refl s).refuse _ _ _ _
  · exact takeSupervisor s c tag m
  · exact (refl s).refuse _ _ _ _
  · refine State.Paces.beginMatching ?_ m none c .direct none fun _ => rfl
    exact (refl s).silent rfl rfl

theorem releaseRequest (s : State) (c b tag args) : State.Paces l s (s.releaseRequest c b tag args) := by
  unfold State.releaseRequest
  refine authorityRequest fun m => ?_
  split
  · exact (refl s).refuse _ _ _ _
  · split
    · next x ha =>
      split
      · have hgo := ((refl s).done c tag m (s.auth[m].epoch + 1) 0 s.tables.device.releaseTimeout).letGo (l := l) m c
          (.releasing s.tables.device.releaseTimeout) (by
            change s.auth[m].state.holder ≠ none
            rw [ha]
            nofun) rfl
        rw [State.letGo, ← State.setAuth_release] at hgo
        exact hgo.raise _ _ _ _
      · exact ((refl s).done _ _ _ _ _ _).standEntry _ _
    · exact (refl s).refuse _ _ _ _
    · exact (refl s).refuse _ _ _ _

theorem recoverRequest (s : State) (c b tag args) : State.Paces l s (s.recoverRequest c b tag args) := by
  unfold State.recoverRequest
  refine authorityRequest fun m => ?_
  repeat' split
  · exact (refl s).refuse _ _ _ _
  · exact (refl s).refuse _ _ _ _
  · exact (((refl s).done _ _ _ _ _ _).enterFree _).raise _ _ _ _
  · exact (((refl s).done _ _ _ _ _ _).beginMatching _ _ _ _ _ fun _ => rfl).raise _ _ _ _
  · exact ((((refl s).done _ _ _ _ _ _).dropTaken _ _ _).enterFree _).raise _ _ _ _
  · exact (refl s).refuse _ _ _ _
  · exact (refl s).refuse _ _ _ _

theorem stopRequest (s : State) (c b tag args) : State.Paces l s (s.stopRequest c b tag args) := by
  have hloader (fits) : State.Paces l s (s.stopLoaderRequest c b tag fits) := by
    unfold State.stopLoaderRequest
    exact authorityRequest fun m => ((refl s).done _ _ _ _ _ _).stand m .stop
  have hzone (z fits) : State.Paces l s (s.stopZoneRequest c tag z fits) := by
    unfold State.stopZoneRequest
    repeat' split
    · exact (refl s).silent rfl rfl
    · exact (refl s).silent rfl rfl
    · exact (refl s).silent rfl rfl
    · exact State.Paces.standAll (t := s.doneNone c tag) ((refl s).silent rfl rfl) _ _
  unfold State.stopRequest
  repeat' split
  · exact hloader _
  · exact hzone _ _
  · exact hloader _
  · exact hzone _ _
  · exact hloader _
  · exact hzone _ _
  · exact hloader _
  · exact hloader _

theorem setAvailable (h : State.Paces l s t) (d a) : State.Paces l s (t.setAvailable d a) := by
  simp only [State.setAvailable]
  repeat' split
  · exact h
  · exact h.silent rfl rfl
  · exact h.silent rfl rfl
  · exact h.silent rfl rfl

theorem refreshPresence (h : State.Paces l s t) (d) : State.Paces l s (t.refreshPresence d) :=
  h.silent (State.refreshPresence_auth _ _) (State.refreshPresence_builders _ _)

theorem chairRequest (s : State) (c b code tag args) : State.Paces l s (s.chairRequest c b code tag args) := by
  have hm := s.chairRequest_made c b code tag args
  generalize s.chairRequest c b code tag args = t at hm ⊢
  cases hm with
  | present =>
    simp only [State.presentRequest, State.becomePresent]
    repeat' split
    · exact (refl s).silent rfl rfl
    · exact (refl s).silent rfl rfl
    · exact (refl s).silent rfl rfl
    · refine State.Paces.setAvailable (State.Paces.refreshPresence ?_ c) c _
      exact (refl s).silent rfl rfl
  | leave =>
    simp only [State.leaveRequest]
    repeat' split
    · exact (refl s).silent rfl rfl
    · exact (refl s).silent rfl rfl
    · refine State.Paces.becomeAbsent ?_ c _
      exact (refl s).silent rfl rfl
  | take => exact takeRequest s c b tag args
  | offer => exact offerRequest s c b tag args
  | accept => exact acceptRequest s c b tag args
  | decline => exact declineRequest s c b tag args
  | cancel => exact cancelRequest s c b tag args
  | release => exact releaseRequest s c b tag args
  | recover => exact recoverRequest s c b tag args
  | stop => exact stopRequest s c b tag args
  | viewOn =>
    simp only [State.viewOnRequest]
    repeat' split
    all_goals exact (refl s).silent rfl rfl
  | viewOff =>
    simp only [State.viewOffRequest]
    repeat' split
    all_goals exact (refl s).silent rfl rfl
  | lineAck =>
    simp only [State.lineAckRequest]
    repeat' split
    all_goals exact (refl s).silent rfl rfl
  | unknown => exact (refl s).silent rfl rfl

/-! ## The Agent and the transmitter -/

theorem serves (h : s.Serves t) : State.Paces l s t := by
  cases h <;> exact (refl s).silent rfl rfl

theorem tended {room : Nat} (h : State.Tended room s t) : State.Paces l s t := by
  induction h with
  | refl => exact refl s
  | tail _ h ih =>
    refine ih.trans ?_
    cases h with
    | served h => exact serves h
    | _ => exact (refl _).silent rfl rfl

theorem takeFrame (s : State) : State.Paces l s s.takeFrame := by
  obtain ⟨t, ht, htend⟩ := s.takeFrame_tended
  refine trans ?_ (tended htend)
  cases ht <;> exact (refl s).silent rfl rfl

end State.Paces

end Sys2Proof.Machine
end

section
/-! The epoch over a whole command (R5): what comes ahead of its row and after it keeps the epoch, the row advances it by one at most. -/

namespace Sys2Proof.Machine

open Sys2Proof

/-- The record of loader l with the epoch e advanced, and its mailboxes emptied but for the granting command (R5, R64). -/
def State.Advanced (l : Loader) (e : Byte) (t : State) : Prop :=
  t.auth[l].epoch = e + 1 ∧ t.builders[l].cand = none ∧ t.builders[l].lastCand = none ∧ t.builders[l].stale = 0
    ∧ (t.builders[l].holder = none ∨ (t.builders[l].fresh = true ∧ ∃ c, t.auth[l].state = .held c))

/-- What a row makes of the epoch of loader l. -/
def State.Epochs (l : Loader) (s t : State) : Prop :=
  t.auth[l].epoch = s.auth[l].epoch ∨ State.Advanced l s.auth[l].epoch t

theorem State.Paces.epochs {l : Loader} {s t : State} (h : State.Paces l s t) : State.Epochs l s t := by
  obtain ⟨he, -⟩ | ⟨-, he, -, hb⟩ := h
  · exact .inl he
  · exact .inr ⟨he, hb.cand, hb.lastCand, hb.stale, .inl hb.holder⟩

/-- The epoch, the mailboxes and a HELD record are as they were. -/
structure State.Rests (l : Loader) (s t : State) : Prop where
  epoch : t.auth[l].epoch = s.auth[l].epoch
  builders : t.builders = s.builders
  held : ∀ c, s.auth[l].state = .held c → t.auth[l].state = .held c

namespace State.Rests
variable {l : Loader} {s t u : State} {e : Byte}

theorem refl (s : State) : State.Rests l s s := ⟨rfl, rfl, fun _ => id⟩

theorem trans (h : State.Rests l s t) (h' : State.Rests l t u) : State.Rests l s u :=
  ⟨h'.epoch.trans h.epoch, h'.builders.trans h.builders, fun c hc => h'.held c (h.held c hc)⟩

theorem of_same (ha : t.auth = s.auth) (hb : t.builders = s.builders) : State.Rests l s t :=
  ⟨by rw [ha], hb, fun c hc => by rw [ha]; exact hc⟩

theorem withRep (s : State) (r) : State.Rests l s (s.withRep r) := of_same rfl rfl

theorem choices (s : State) (n) : State.Rests l s { s with choices := n } := of_same rfl rfl

theorem advanced (h : State.Rests l s t) (ha : State.Advanced l e s) : State.Advanced l e t := by
  obtain ⟨he, hc, hl, hst, hh⟩ := ha
  rw [State.Advanced, h.epoch, h.builders]
  refine ⟨he, hc, hl, hst, ?_⟩
  obtain hn | ⟨hf, c, hs⟩ := hh
  · exact .inl hn
  · exact .inr ⟨hf, c, h.held c hs⟩

/-- A row between two parts of a command that leave the epoch. -/
theorem around {v : State} (h : State.Rests l s t) (hr : State.Epochs l t u) (h' : State.Rests l u v) : State.Epochs l s v := by
  obtain he | ha := hr
  · exact .inl ((h'.epoch.trans he).trans h.epoch)
  · rw [h.epoch] at ha
    exact .inr (h'.advanced ha)

theorem minor (h : s.Minor t) : State.Rests l s t := by
  cases h with
  | refreshPresence c => exact .of_same (State.refreshPresence_auth _ _) (State.refreshPresence_builders _ _)
  | _ => exact .of_same rfl rfl

theorem minors (h : Relation.ReflTransGen State.Minor s t) : State.Rests l s t := by
  induction h with
  | refl => exact refl s
  | tail _ h ih => exact ih.trans (minor h)

/-- The end of an event: the walk moves CALLING records only. -/
theorem finish (h : s.RecordsAgree) : State.Rests l s s.finish where
  epoch := h.walkedOrNot.epoch l
  builders := s.finish_builders
  held c hc := by
    have hrec := h.walkedOrNot.record (l := l) rfl (by rw [hc]; rfl)
    rw [hrec]
    exact hc

theorem serves (h : s.Serves t) : State.Rests l s t := by
  cases h <;> exact of_same rfl rfl

theorem tended {room : Nat} (h : State.Tended room s t) : State.Rests l s t := by
  induction h with
  | refl => exact refl s
  | tail _ h ih =>
    refine ih.trans ?_
    cases h with
    | served h => exact serves h
    | _ => exact of_same rfl rfl

theorem takeFrame (s : State) : State.Rests l s s.takeFrame := by
  obtain ⟨t, ht, htend⟩ := s.takeFrame_tended
  refine trans ?_ (tended htend)
  cases ht <;> exact of_same rfl rfl

theorem calm (hs : s.RecordsAgree) (h : s.Calm t) : State.Rests l s t := by
  cases h with
  | aside h => cases h <;> exact of_same rfl rfl
  | take =>
    have hk : s.takeFrame.RecordsAgree := (State.Row.takeFrame.keeps).agree hs
    exact (takeFrame s).trans (finish hk)
  | portLost p =>
    have hk := ((State.Row.portLost (s := s) p).keeps).agree hs
    refine trans (of_same ?_ ?_) (finish hk)
    · rw [State.loseFrame_eq]
      rfl
    · rw [State.loseFrame_eq]
      rfl

theorem calmly (hs : s.RecordsAgree) (h : s.Calmly t) : t.RecordsAgree ∧ State.Rests l s t := by
  induction h with
  | refl => exact ⟨hs, refl s⟩
  | tail _ h ih => exact ⟨h.move.keeps.agree ih.1, ih.2.trans (calm ih.1 h)⟩

end State.Rests

theorem State.releaseOpt_auth (s : State) (c) : (s.releaseOpt c).auth = s.auth := by
  cases c with
  | none => rfl
  | some c => exact State.release_auth _ _

theorem State.releaseOpt_builders (s : State) (c) : (s.releaseOpt c).builders = s.builders := by
  cases c with
  | none => rfl
  | some c => exact State.release_builders _ _

/-- The record and the mailboxes of a grant (R63, R64). -/
theorem State.granted_auth (s : State) (k c m previous) :
    ((s.grantMoved k c m).releaseOpt previous).auth = putAt s.auth k ⟨.held c, s.auth[k].epoch + 1⟩ := by
  rw [State.releaseOpt_auth, State.grantMoved, State.engage_auth, State.setWindow_auth, State.setAuth_auth, State.setBuilder_auth,
    State.advanceEpoch_auth, putAt_same, putAt_putAt]

theorem State.granted_builders (s : State) (k c m previous) : ((s.grantMoved k c m).releaseOpt previous).builders =
    putAt s.builders k { s.builders[k].emptied with holder := some m, fresh := true, lastSeq := some m.sequence } := by
  rw [State.releaseOpt_builders, State.grantMoved, State.engage_builders, State.setWindow_builders, State.setAuth_builders,
    State.setBuilder_builders, State.advanceEpoch_builders, putAt_same, putAt_putAt]

theorem State.grantReport_auth (s : State) (k previous c offerer) : (s.grantReport k previous c offerer).auth = s.auth := by
  cases previous <;> simp only [State.grantReport, State.count_auth, State.raise_auth, State.notice_auth]

theorem State.grantReport_builders (s : State) (k previous c offerer) :
    (s.grantReport k previous c offerer).builders = s.builders := by
  cases previous <;> simp only [State.grantReport, State.count_builders, State.raise_builders, State.notice_builders]

namespace State.Epochs
variable {l : Loader} {s t : State}

/-- A grant: the epoch advances, and the granting command is the fresh content of the holder mailbox (R63, R64). -/
theorem grant (s : State) (k previous c offerer m) : State.Epochs l s (s.grant k previous c offerer m) := by
  have hmoved : State.Epochs l s ((s.grantMoved k c m).releaseOpt previous) := by
    by_cases hk : k = l
    · subst hk
      refine .inr ?_
      rw [State.Advanced, State.granted_auth, State.granted_builders, putAt_same, putAt_same]
      exact ⟨rfl, rfl, rfl, rfl, .inr ⟨rfl, c, rfl⟩⟩
    · refine .inl ?_
      rw [State.granted_auth, putAt_other _ _ hk]
  rw [State.grant_eq]
  exact State.Rests.around (.refl s) hmoved (.of_same (State.grantReport_auth _ _ _ _ _) (State.grantReport_builders _ _ _ _ _))

/-- What comes after a step that leaves the records. -/
theorem of_auth {u : State} (ha : u.auth = s.auth) (h : State.Epochs l u t) : State.Epochs l s t := by
  rw [State.Epochs, ha] at h
  exact h

theorem candidateFrame (s : State) (c k ho offerer m) : State.Epochs l s (s.candidateFrame c k ho offerer m) := by
  unfold State.candidateFrame
  dsimp only
  split
  · split
    · refine of_auth ?_ (grant _ k _ c _ _)
      rw [State.setWindow_auth, State.count_auth, State.setBuilder_auth]
    · refine .inl ?_
      rw [State.setWindow_auth, State.count_auth, State.setBuilder_auth]
  · exact .inl rfl

/-- A chair's COMMAND frame (R55). -/
theorem commandFrameFrom (s : State) (c h p) : State.Epochs l s (s.commandFrameFrom c h p) := by
  unfold State.commandFrameFrom
  split
  · exact .inl rfl
  · next k _ =>
    split
    · exact .inl rfl
    · dsimp only
      repeat' split
      · simp only [State.holderFrame]
        split <;> exact .inl rfl
      · exact .inl rfl
      · exact candidateFrame s c k _ _ _
      · exact .inl rfl
      · simp only [State.strangerFrame]
        split <;> exact .inl rfl

/-- AUTHORITY_RESET advances the epoch of every enabled loader (R32, R35). -/
theorem resetRecords (s : State) : State.Epochs l s s.resetRecords := by
  have hauth : s.resetRecords.auth[l] = s.auth[l].afterReset (s.enabled l) := tabulate_get _ _
  have hbuilder : s.resetRecords.builders[l] = s.builders[l].emptied := mapAll_get _ _ _
  simp only [State.Epochs, State.Advanced, hauth, hbuilder]
  cases s.enabled l with
  | false => exact .inl rfl
  | true => exact .inr ⟨rfl, rfl, rfl, rfl, .inl rfl⟩

theorem authorityReset (s : State) : State.Epochs l s s.authorityReset := by
  rw [State.authorityReset_eq]
  exact State.Rests.around (.refl s) (resetRecords s) (State.Rests.withRep _ _)

end State.Epochs

/-- A row advances the epoch by one at most. -/
theorem State.Row.epochs {l : Loader} {s t : State} (h : s.Row t) : State.Epochs l s t := by
  cases h with
  | nothing => exact .inl rfl
  | saveEnd read =>
    unfold State.saveEnd
    split
    · dsimp only
      repeat' split
      all_goals exact .inl rfl
    · exact .inl rfl
  | cycleStart b =>
    have hd (p : Bool) (u : State) : State.Paces l u (if p then u.drawPhases else u) := by
      cases p
      · exact .refl u
      · exact State.Paces.drawPhases (.refl u)
    have h1 : State.Paces l s (State.stepPresence { s with timer := s.timer.nextCycle }) := (State.Paces.refl s).silent rfl rfl
    exact ((h1.trans (hd _ _)).silent rfl rfl).epochs
  | applied order b n => exact State.Rests.around (.refl s) (State.Paces.tableApplied s order b).epochs (.choices _ _)
  | boundary order b => exact (State.Paces.boundary s order b).epochs
  | drawPhases => exact (State.Paces.refl s).drawPhases.epochs
  | slotAt p k => exact (State.Paces.slotAt s p k).epochs
  | staleSlot x => exact (State.Paces.staleSlot s x).epochs
  | deadline k => exact ((State.Paces.refl s).deadline k).epochs
  | pendingDeadline f => exact (State.Paces.pendingDeadline s f).epochs
  | linkDownTest k => exact (State.Paces.linkDownTest s k).epochs
  | linkUpTest k => exact (State.Paces.linkUpTest s k).epochs
  | readyTest k => exact (State.Paces.readyTest s k).epochs
  | offerExpiry k => exact (State.Paces.offerExpiry s k).epochs
  | matchTimeout k => exact (State.Paces.matchTimeout s k).epochs
  | releaseTimeout k => exact (State.Paces.releaseTimeout s k).epochs
  | presenceExpiry c => exact (State.Paces.presenceExpiry s c).epochs
  | authorityReset => exact State.Epochs.authorityReset s
  | stepMillis => exact .inl rfl
  | sampleAhead i v =>
    unfold State.sampleAhead State.sampleLine
    split <;> exact .inl rfl
  | sampleLine i v w =>
    unfold State.sampleLine
    split <;> exact .inl rfl
  | settleLine i => exact (State.Paces.settleLine s i).epochs
  | portComesUp p =>
    simp only [State.portComesUp]
    split <;> exact .inl rfl
  | portLost p =>
    rw [State.loseFrame_eq]
    exact .inl rfl
  | commandFrameFrom c h p => exact State.Epochs.commandFrameFrom s c h p
  | statusFrame k h p => exact (State.Paces.statusFrame s k h p).epochs
  | chairRequest c b code tag args => exact (State.Paces.chairRequest s c b code tag args).epochs
  | mgmtArrival r => exact .inl (State.Rests.tended (State.mgmtArrival_tended (le_refl 4) r)).epoch
  | takeFrame => exact (State.Paces.takeFrame s).epochs
  | transmissionEnd => exact .inl rfl

/-- What a command's event finds, where nothing of an earlier instant waits or the event itself waits. -/
theorem arrivesAt_rests {i : Instr} {s a : State} {l : Loader} (hs : s.RecordsAgree)
    (hq : s.Quiet ∨ ∃ d ∈ s.due, i.consequence = some d) (h : ArrivesAt i s a) : a.RecordsAgree ∧ State.Rests l s a := by
  obtain rfl | h := h
  · exact ⟨hs, .refl _⟩
  · cases hc : i.consequence with
    | some d =>
      rw [hc] at h
      rw [h.2]
      exact State.Rests.calmly hs s.takes_calmly
    | none =>
      rw [hc] at h
      obtain hq | ⟨d, -, hd⟩ := hq
      · obtain ⟨n, rfl | rfl⟩ := h
        · rw [hq.arriveAt]
          exact ⟨hs, .refl _⟩
        · rw [hq.conclude]
          exact ⟨hs, .refl _⟩
      · exact nomatch hc.symm.trans hd

/-- A command that runs on an agreeing state at which it arrives with the epoch kept. -/
theorem RunsTo.epochs {i : Instr} {s t : State} {l : Loader} (hs : s.RecordsAgree)
    (hq : s.Quiet ∨ ∃ d ∈ s.due, i.consequence = some d) (h : RunsTo i s t) : State.Epochs l s t := by
  obtain ⟨a, u, v, ha, hau, hev, hvt⟩ := h
  obtain ⟨hagree, hsa⟩ : a.RecordsAgree ∧ State.Rests l s a := arrivesAt_rests hs hq ha
  obtain ⟨huagree, hau⟩ := State.Rests.calmly (l := l) hagree hau
  obtain rfl | ⟨w, ⟨x, hminor, hrow⟩, rfl⟩ := hev
  · exact .inl (((hsa.trans hau).trans (State.Rests.calmly huagree hvt).2).epoch)
  · have hw : w.RecordsAgree := by
      refine hrow.keeps.agree ?_
      clear hrow
      induction hminor with
      | refl => exact huagree
      | tail _ hm ih => exact hm.keeps.agree ih
    have hend := (State.Rests.finish (l := l) hw).trans (State.Rests.calmly (hw.finish) hvt).2
    exact State.Rests.around ((hsa.trans hau).trans (State.Rests.minors hminor)) hrow.epochs hend

end Sys2Proof.Machine

namespace Sys2Proof

open Machine

/-- Settles O60: what comes ahead of a command's row and after it keeps the epoch, the row advances it by one at most. -/
theorem epochAdvancesByOne : Obligations.EpochAdvancesByOne := by
  intro s t i l hs hq hpower hload hexec
  obtain ⟨b, hi, -⟩ | ⟨read, hi, -⟩ | hruns := exec_runs hexec
  · exact absurd hi (hpower b)
  · exact absurd hi (hload read)
  · exact hruns.epochs hs hq

end Sys2Proof
end

section
/-! A STATUS frame in the Status Unit's record (R104–R112): what each of its steps makes of it and reports. -/

namespace Sys2Proof.Machine

open Sys2Proof

/-! ## The Status Unit's record after each step -/

/-- The record after the far-end count n is entered (R105–R107). -/
def LoaderStatus.counted (st : LoaderStatus) (threshold n : Nat) : LoaderStatus :=
  let far := pushWindow statusWindow n st.farEnd
  { st with heard := true, farEnd := far
            degraded := if st.degraded then threshold / 2 < far.sum else threshold ≤ far.sum }

/-- The record after the request r is entered (R110, R111). -/
def LoaderStatus.requested (st : LoaderStatus) (d : DeviceEntry) (r : Request) : LoaderStatus :=
  let filter := pushWindow d.requestLength r st.filter
  { st with filter := filter, accepted := if d.requestCount ≤ filter.count r then r else st.accepted }

/-- What the first two steps report (R105–R107). -/
def State.countedReport (s : State) (l : Loader) (n : Nat) : Report :=
  let counted := (s.rep.count s (.loader l statusGood) 1).count s (.loader l farEndErrors) n
  let sum := (pushWindow statusWindow n s.status[l].farEnd).sum
  if s.status[l].degraded = false ∧ s.tables.device.degrade ≤ sum then counted.raise s ⟨.linkDegraded, some l, none, wordOf sum⟩
  else if s.status[l].degraded = true ∧ sum ≤ s.tables.device.degrade / 2 then
    counted.raise s ⟨.degradeCleared, some l, none, wordOf sum⟩
  else counted

section
variable (s : State) (l : Loader)

/-- A record of the Status Unit as it is. -/
theorem State.setStatus_self : s.setStatus l s.status[l] = s := by
  rw [State.setStatus, putAt_self]

theorem State.setStatus_setStatus (a b : LoaderStatus) : (s.setStatus l a).setStatus l b = s.setStatus l b := by
  simp only [State.setStatus, putAt_putAt]

theorem State.setStatus_get (a : LoaderStatus) : (s.setStatus l a).status[l] = a := putAt_same _ _ _

/-- DEGRADED follows the far-end sum (R107). -/
theorem State.degradeTest_eq (st : LoaderStatus) (hs : s.status[l] = st) :
    s.degradeTest l =
      (s.setStatus l { st with
        degraded := if st.degraded then s.tables.device.degrade / 2 < st.farEnd.sum else s.tables.device.degrade ≤ st.farEnd.sum }).withRep
        (if st.degraded = false ∧ s.tables.device.degrade ≤ st.farEnd.sum then
          s.rep.raise s ⟨.linkDegraded, some l, none, wordOf st.farEnd.sum⟩
        else if st.degraded = true ∧ st.farEnd.sum ≤ s.tables.device.degrade / 2 then
          s.rep.raise s ⟨.degradeCleared, some l, none, wordOf st.farEnd.sum⟩
        else s.rep) := by
  have raised (x : LoaderStatus) (e w) : (s.setStatus l x).raise e (some l) none w =
      (s.setStatus l x).withRep (s.rep.raise s ⟨e, some l, none, w⟩) :=
    (State.sameReporting_of_records (t := s.setStatus l x) rfl rfl rfl).raise_eq _ _ _ _
  have kept (b : Bool) (hb : b = st.degraded) : s = (s.setStatus l { st with degraded := b }).withRep s.rep := by
    rw [hb]
    exact (hs ▸ s.setStatus_self l).symm
  simp only [State.degradeTest, hs, LoaderStatus.farEndSum]
  cases hd : st.degraded with
  | false =>
    by_cases hsum : s.tables.device.degrade ≤ st.farEnd.sum
    · simp only [hsum, decide_true, Bool.not_false, Bool.and_self, if_true, and_self, Bool.false_eq_true, if_false]
      exact raised _ _ _
    · simp only [hsum, decide_false, Bool.not_false, Bool.and_false, Bool.false_eq_true, if_false, and_false, Bool.false_and, false_and]
      exact kept _ hd.symm
  | true =>
    by_cases hsum : st.farEnd.sum ≤ s.tables.device.degrade / 2
    · simp only [hsum, Nat.not_lt.mpr hsum, decide_true, decide_false, Bool.not_true, Bool.false_and, Bool.and_self, if_true, and_self,
        Bool.false_eq_true, if_false, reduceCtorEq, false_and]
      exact raised _ _ _
    · simp only [hsum, Nat.lt_of_not_le hsum, decide_true, decide_false, Bool.not_true, Bool.false_and, Bool.and_false, if_true,
        Bool.false_eq_true, if_false, reduceCtorEq, false_and, and_false]
      exact kept _ hd.symm

/-- Steps 1 and 2 of a status frame. -/
theorem State.farEndStep_eq (b : Byte) : (s.heardStep l).farEndStep l b =
    (s.setStatus l (s.status[l].counted s.tables.device.degrade (farEndOfByte b))).withRep (s.countedReport l (farEndOfByte b)) := by
  generalize hn : farEndOfByte b = n
  have hs (v : LoaderStatus) : s.SameReporting (s.setStatus l v) := State.sameReporting_of_records rfl rfl rfl
  let x : LoaderStatus := { s.status[l] with heard := true, farEnd := pushWindow statusWindow n s.status[l].farEnd }
  let counted := (s.rep.count s (.loader l statusGood) 1).count s (.loader l farEndErrors) n
  have hentered : (s.heardStep l).farEndStep l b = ((s.setStatus l x).withRep counted).degradeTest l := by
    have hheard : s.heardStep l = (s.setStatus l { s.status[l] with heard := true }).withRep (s.rep.count s (.loader l statusGood) 1) :=
      (hs _).count_eq _ _
    simp only [State.farEndStep, hn, hheard, State.withRep_status, State.setStatus_get, State.withRep_setStatus,
      State.setStatus_setStatus, State.withRep_count]
    rfl
  have hsame : s.SameReporting ((s.setStatus l x).withRep counted) := State.sameReporting_of_records rfl rfl rfl
  rw [hentered, State.degradeTest_eq _ l x (putAt_same _ _ _), Report.raise_same hsame, Report.raise_same hsame,
    State.withRep_setStatus, State.setStatus_setStatus]
  rfl

/-- Step 3 of a status frame, in the Status Unit. -/
theorem State.zoneStep_stored (b : Byte) :
    (s.zoneStep l b).rest = (s.setStatus l { s.status[l] with zone := zoneOfByte b }).rest := by
  simp only [State.zoneStep]
  repeat' split
  · next h =>
    rw [h, State.setStatus_self]
  · rw [State.stand_rest, State.raise_rest]
  · rfl

theorem State.requestChanged_rest : (s.requestChanged l).rest = s.rest := by
  unfold State.requestChanged
  dsimp only
  repeat' split
  · exact State.enterCalling_rest _ _ _ _
  · rfl
  · exact State.resort_rest _ _
  · simp
  · rfl
  · exact (State.endOffer_rest _ _ _ _ _ _ fun u => by simp).trans rfl
  · rfl

theorem State.faultReport_rest (r : Request) : (s.faultReport l r).rest = s.rest := by
  simp only [State.faultReport]
  split <;> rfl

/-- The code r now fills Kr entries of the filter, and is not yet the accepted request (R111). -/
def State.accepts (s : State) (l : Loader) (r : Request) : Bool :=
  s.tables.device.requestCount ≤ (pushWindow s.tables.device.requestLength r s.status[l].filter).count r && r ≠ s.status[l].accepted

/-- Step 4 of a status frame where the accepted request changes. -/
theorem State.requestStep_changed {r : Request} (h : s.accepts l r = true) (b : Byte) (hr : Request.ofCode b = r) :
    s.requestStep l b = if r = .fault then
      ((s.setStatus l (s.status[l].requested s.tables.device r)).requestChanged l).faultReport l s.status[l].accepted
      else (s.setStatus l (s.status[l].requested s.tables.device r)).requestChanged l := by
  subst hr
  generalize hr : Request.ofCode b = r at h
  have hk : s.tables.device.requestCount ≤ (pushWindow s.tables.device.requestLength r s.status[l].filter).count r :=
    of_decide_eq_true (Bool.and_eq_true_iff.mp h).1
  let filtered : LoaderStatus := { s.status[l] with filter := pushWindow s.tables.device.requestLength r s.status[l].filter }
  have hacc : (s.setStatus l filtered).setStatus l { (s.setStatus l filtered).status[l] with accepted := r } =
      s.setStatus l (s.status[l].requested s.tables.device r) := by
    rw [State.setStatus_setStatus, State.setStatus_get, LoaderStatus.requested, if_pos hk]
  rw [← hacc, State.requestStep, hr]
  exact if_pos h

/-- Step 4 of a status frame where it does not. -/
theorem State.requestStep_same {r : Request} (h : s.accepts l r = false) (b : Byte) (hr : Request.ofCode b = r) :
    s.requestStep l b = s.setStatus l (s.status[l].requested s.tables.device r) := by
  subst hr
  generalize hr : Request.ofCode b = r at h
  have hst : s.status[l].requested s.tables.device r =
      { s.status[l] with filter := pushWindow s.tables.device.requestLength r s.status[l].filter } := by
    simp only [State.accepts, Bool.and_eq_false_iff, decide_eq_false_iff_not, not_not] at h
    rw [LoaderStatus.requested]
    obtain hk | he := h
    · rw [if_neg hk]
    · rw [← he, ite_self, he]
  rw [hst, State.requestStep, hr]
  exact if_neg (by rw [← Bool.not_eq_true] at h; exact h)

/-- Step 4 of a status frame, in the Status Unit. -/
theorem State.requestStep_stored (b : Byte) :
    (s.requestStep l b).rest = (s.setStatus l (s.status[l].requested s.tables.device (Request.ofCode b))).rest := by
  cases h : s.accepts l (Request.ofCode b) with
  | false => rw [s.requestStep_same l h b rfl]
  | true =>
    rw [s.requestStep_changed l h b rfl]
    split
    · rw [State.faultReport_rest, State.requestChanged_rest]
    · rw [State.requestChanged_rest]

theorem State.modeStep_stored (b : Byte) : (s.modeStep l b).rest = s.rest := by
  unfold State.modeStep
  repeat' split
  · simp
  · rfl
  · rfl

/-- Step 6 of a status frame: copies alone. -/
theorem State.forwardStep_stored (h : Header) (p : StatusPayload) :
    (s.forwardStep l h p).rest = { s with forwards := (s.forwardStep l h p).forwards }.rest := by
  refine foldl_inv _ (fun u : State => u.rest = { s with forwards := u.forwards }.rest) (fun u c hu => ?_) (s.receivers l) s rfl
  unfold State.forwardOne
  split
  · simp only [State.rest, Rest.mk.injEq] at hu ⊢
    simp only [hu, and_self]
  · exact hu

/-- The record of a loader after a status frame (R105–R111). -/
def LoaderStatus.entered (st : LoaderStatus) (d : DeviceEntry) (p : StatusPayload) : LoaderStatus :=
  { st.counted d.degrade (farEndOfByte p.farEnd) with zone := zoneOfByte p.zone }.requested d (Request.ofCode p.request)

/-- Steps 1 to 5 of a status frame, the walk they call for included. -/
def State.framed (s : State) (l : Loader) (p : StatusPayload) : State :=
  (((((s.heardStep l).farEndStep l p.farEnd).zoneStep l p.zone).requestStep l p.request).modeStep l p.mode).walkIfCalled

/-- A record of the Status Unit over a state whose rest is known. -/
theorem State.setStatus_over {u : State} {a b : LoaderStatus} (h : u.rest = (s.setStatus l a).rest) :
    (u.setStatus l b).rest = (s.setStatus l b).rest := by
  simp only [State.rest, State.setStatus, Rest.mk.injEq] at h ⊢
  simp only [h, putAt_putAt, and_self]

/-- Steps 1 to 5 of a status frame, in the Status Unit. -/
theorem State.framed_rest (p : StatusPayload) :
    (s.framed l p).rest = (s.setStatus l (s.status[l].entered s.tables.device p)).rest := by
  have hget {u : State} {a : LoaderStatus} (h : u.rest = (s.setStatus l a).rest) : u.status[l] = a ∧ u.tables = s.tables := by
    refine ⟨?_, congrArg Rest.tables h⟩
    have hstatus : u.status = putAt s.status l a := congrArg Rest.status h
    rw [hstatus, putAt_same]
  have hfar : ((s.heardStep l).farEndStep l p.farEnd).rest =
      (s.setStatus l (s.status[l].counted s.tables.device.degrade (farEndOfByte p.farEnd))).rest := by
    rw [State.farEndStep_eq]
    rfl
  have hzone := (State.zoneStep_stored _ l p.zone).trans (s.setStatus_over l hfar)
  rw [(hget hfar).1] at hzone
  have hreq := (State.requestStep_stored _ l p.request).trans (s.setStatus_over l hzone)
  rw [(hget hzone).1, (hget hzone).2] at hreq
  rw [State.framed, State.walkIfCalled_rest, State.modeStep_stored, hreq]
  rfl

theorem State.framed_walkCalled (p : StatusPayload) : (s.framed l p).walkCalled = false := by
  unfold State.framed State.walkIfCalled
  split
  · rfl
  · next h => exact Bool.eq_false_iff.mpr h

theorem State.forwardStep_walkCalled (h : Header) (p : StatusPayload) : (s.forwardStep l h p).walkCalled = s.walkCalled := by
  refine foldl_inv _ (fun u : State => u.walkCalled = s.walkCalled) (fun u c hu => ?_) (s.receivers l) s rfl
  unfold State.forwardOne
  split
  · exact hu
  · exact hu

end

/-- A whole status frame, in what requests and stands never write. -/
theorem State.forwarded_rest (s : State) (l : Loader) (h : Header) (p : StatusPayload) {t : State}
    (ht : t = ((s.framed l p).forwardStep l h p).finish) :
    t.rest = { s.setStatus l (s.status[l].entered s.tables.device p) with forwards := t.forwards }.rest := by
  have hrest : t.rest = ((s.framed l p).forwardStep l h p).rest := by rw [ht, State.finish_rest]
  have hforwards : t.forwards = ((s.framed l p).forwardStep l h p).forwards := congrArg Rest.forwards hrest
  have hframed := s.framed_rest l p
  rw [hrest, State.forwardStep_stored, hforwards]
  generalize ((s.framed l p).forwardStep l h p).forwards = f
  simp only [State.rest, Rest.mk.injEq] at hframed ⊢
  simp only [hframed, and_self]

theorem pushWindow_eq {α : Type} (n : Nat) (x : α) (xs : List α) : pushWindow n x xs = (xs ++ [x]).drop (xs.length + 1 - n) := by
  rw [pushWindow, newest, List.length_append, List.length_singleton]

section
variable {s : State} {l : Loader} {q : LevelPort} {h : Header} {p : StatusPayload}

/-- An admitted STATUS frame of an enabled loader. -/
theorem State.AdmitsStatus.exec_status (ha : s.AdmitsStatus q.toPort (statusFrameOf h p) l) (hen : s.enabled l = true) :
    exec (.status q h p) s = .next ((s.framed l p).forwardStep l h p).finish := by
  have hexec : exec (.status q h p) s = .next (s.statusFrame l h p).finish :=
    congrArg Host.Outcome.next (ha.fromLoader fun s l => s.statusFrame l h p)
  rw [hexec, State.statusFrame, hen]
  rfl

/-- A STATUS frame of a disabled loader changes nothing (R104). -/
theorem State.AdmitsStatus.exec_disabled (ha : s.AdmitsStatus q.toPort (statusFrameOf h p) l) (hen : s.enabled l = false) :
    exec (.status q h p) s = .next s := by
  have hexec : exec (.status q h p) s = .next (s.statusFrame l h p).finish :=
    congrArg Host.Outcome.next (ha.fromLoader fun s l => s.statusFrame l h p)
  have hsame : s.statusFrame l h p = s := by
    rw [State.statusFrame, hen]
    rfl
  rw [hexec, hsame]
  exact congrArg _ (State.finish_quiet ha.1.1 rfl rfl rfl rfl rfl)

end

end Sys2Proof.Machine

namespace Sys2Proof

open Machine

/-- Settles O29: each step writes its part of the loader's record; what follows in the same frame leaves it. -/
theorem statusFrameEntersTheReports : Obligations.StatusFrameEntersTheReports := by
  intro s q h p l ha st far r filter threshold
  refine ⟨ha.exec_disabled, fun hen => ⟨_, ha.exec_status hen, ?_⟩⟩
  generalize ht : ((s.framed l p).forwardStep l h p).finish = t
  have hrest := s.forwarded_rest l h p ht.symm
  have hstatus : t.status = putAt s.status l (s.status[l].entered s.tables.device p) := congrArg Rest.status hrest
  have hwalk : t.walkCalled = s.walkCalled := by
    have hoff : ((s.framed l p).forwardStep l h p).walkCalled = false := by
      rw [State.forwardStep_walkCalled, State.framed_walkCalled]
    have hs : s.walkCalled = false := ha.1.1.2.2.1
    rw [← ht, State.finish_idle hoff, State.setBeacons_walkCalled, hoff, hs]
  have hfar : pushWindow statusWindow (farEndOfByte p.farEnd) st.farEnd = far := pushWindow_eq _ _ _
  have hfilter : pushWindow s.tables.device.requestLength r st.filter = filter := pushWindow_eq _ _ _
  refine ⟨?_, ?_, State.onlyAuthority_of_rest ?_ hwalk⟩
  · rw [hstatus]
    clear_value far filter
    subst hfar hfilter
    rfl
  · rw [State.farEndStep_eq, State.withRep_rep, State.countedReport, hfar]
    rfl
  · rw [hrest, hstatus]
    rfl

end Sys2Proof
end

section
/-! The copies of a STATUS frame (R122, R123, R142, R157). -/

namespace Sys2Proof.Machine

open Sys2Proof

section
variable {s t u : State} {l : Loader} {h : Header} {p : StatusPayload}

/-- The trailer of a record (R142). -/
theorem State.trailer_eq (s : State) (l : Loader) : s.trailer l =
    [s.auth[l].state.code, byteOfIndex s.auth[l].state.holder,
      byteOfIndex (match s.auth[l].state.candidate with | some c => some c | none => s.auth[l].state.offeredChair),
      s.auth[l].epoch, s.status[l].linkByte, s.status[l].accepted.code,
      (match s.auth[l].state.cause with | some cause => cause.code | none => 0), s.timer.number.setWidth 8] := rfl

theorem LoaderStatus.linkByte_eq (st : LoaderStatus) :
    st.linkByte = (if st.linkUp then 1 else 0) ||| (if st.degraded then 2 else 0) := by
  rw [LoaderStatus.linkByte]
  cases st.linkUp <;> cases st.degraded <;> rfl

/-- The copies of a list of chairs enter the Forward Queue while there is room; the others are reported. -/
theorem State.forwards_eq (tr : List Byte) (xs : List Chair) : ∀ u : State, ∃ r, xs.foldl (State.forwardOne l h p tr) u =
    { u with rep := r, forwards := u.forwards ++ (xs.map (u.copyFrame h p tr)).take (forwardCapacity - u.forwards.length) } := by
  induction xs with
  | nil =>
    intro u
    exact ⟨u.rep, by simp⟩
  | cons c xs ih =>
    intro u
    rw [List.foldl_cons]
    by_cases hroom : u.forwards.length < forwardCapacity
    · obtain ⟨r, hr⟩ := ih { u with forwards := u.forwards ++ [u.copyFrame h p tr c] }
      obtain ⟨k, hk⟩ : ∃ k, forwardCapacity - u.forwards.length = k + 1 := ⟨forwardCapacity - u.forwards.length - 1, by omega⟩
      have hk' : forwardCapacity - (u.forwards ++ [u.copyFrame h p tr c]).length = k := by
        rw [List.length_append, List.length_singleton]
        omega
      refine ⟨r, ?_⟩
      rw [State.forwardOne, if_pos hroom, hr, hk', hk, List.map_cons, List.take_succ_cons, List.append_assoc]
      rfl
    · obtain ⟨r, hr⟩ := ih ((u.count (.device fwdLost)).raise .forwardLost (some l) (some c))
      have hk : forwardCapacity - u.forwards.length = 0 := by omega
      refine ⟨r, ?_⟩
      have hk' : forwardCapacity - ((u.count (.device fwdLost)).raise .forwardLost (some l) (some c)).forwards.length = 0 := hk
      rw [State.forwardOne, if_neg hroom, hr, hk', hk, List.take_zero, List.take_zero]
      rfl

/-- Two states with the same records, views and cycle have the same receivers and trailers. -/
theorem State.receivers_congr (ha : t.auth = u.auth) (hc : t.chairs = u.chairs) (hv : t.views = u.views) (ht : t.timer = u.timer)
    (l : Loader) : t.receivers l = u.receivers l := by
  simp only [State.receivers, ha, hc, hv, ht]

theorem State.trailer_congr (ha : t.auth = u.auth) (hs : t.status = u.status) (ht : t.timer = u.timer) (l : Loader) :
    t.trailer l = u.trailer l := by
  rw [State.trailer_eq, State.trailer_eq, ha, hs, ht]

/-- No chair is sent a copy twice: no chair is both the holder and the candidate of a loader (R3, R122). -/
theorem State.RecordsAgree.receivers_nodup (hr : t.RecordsAgree) (l : Loader) : (t.receivers l).Nodup := by
  have hparties : (t.auth[l].state.holder.toList ++ t.auth[l].state.candidate.toList).Nodup := by
    cases hh : t.auth[l].state.holder with
    | none =>
      cases t.auth[l].state.candidate <;> simp
    | some x =>
      cases hc : t.auth[l].state.candidate with
      | none => simp
      | some y =>
        have hne : x ≠ y := by
          rintro rfl
          have hx := (hr.holder_placed hh).1
          have hy := (hr.placed (AuthState.candidate_mem hc)).1
          exact nomatch hx.symm.trans hy
        simp [hne]
  rw [State.receivers]
  refine List.Nodup.append hparties ((allChairs_nodup).filter _) ?_
  intro x hx hf
  have := (List.mem_filter.mp hf).2
  simp_all

/-- A chair outside the parties of a loader. -/
theorem AuthState.outside_iff (a : AuthState) (c : Chair) :
    (!(a.holder.toList ++ a.candidate.toList).contains c) = (decide (a.holder ≠ some c) && decide (a.candidate ≠ some c)) := by
  have hmem (x : Option Chair) : c ∈ x.toList ↔ x = some c := by simp [Option.mem_toList]
  rw [← Bool.decide_and, Bool.eq_iff_iff]
  simp only [Bool.not_eq_true', List.contains_eq_mem, decide_eq_false_iff_not, decide_eq_true_eq, List.mem_append, hmem, not_or, ne_eq]

/-- One copy made, in the terms of R123: its frame is that of the chair's station and of the trailer tr. -/
theorem State.forwardOne_eq {v : State} (tr : List Byte) (htab : v.tables = s.tables) (c : Chair) :
    State.forwardOne l h p tr v c = if v.forwards.length < 64 then { v with forwards := v.forwards ++ [s.copyFrame h p tr c] }
      else (v.count (.device fwdLost)).raise .forwardLost (some l) (some c) := by
  have hcopy : v.copyFrame h p tr c = s.copyFrame h p tr c := by rw [State.copyFrame, State.copyFrame, htab]
  rw [State.forwardOne, hcopy]
  rfl

/-- Two ways to make the same copies. -/
theorem foldl_copies {f g : State → Chair → State} (hfg : ∀ v c, v.tables = s.tables → f v c = g v c ∧ (f v c).tables = s.tables)
    (xs : List Chair) : ∀ v : State, v.tables = s.tables → xs.foldl f v = xs.foldl g v := by
  induction xs with
  | nil => exact fun _ _ => rfl
  | cons c xs ih =>
    intro v hv
    obtain ⟨he, ht⟩ := hfg v c hv
    rw [List.foldl_cons, List.foldl_cons, ← he]
    exact ih _ ht

/-- The end of a status frame with its copies made: what the copies leave of the state before them. -/
structure State.Copied (u t : State) (l : Loader) (h : Header) (p : StatusPayload) : Prop where
  auth : t.auth = u.auth
  chairs : t.chairs = u.chairs
  views : t.views = u.views
  timer : t.timer = u.timer
  status : t.status = u.status
  tables : t.tables = u.tables
  freeList : t.freeList = u.freeList
  windows : t.windows = u.windows
  rest : { t with forwards := u.forwards }.rest = u.rest
  forwards : t.forwards = u.forwards ++ ((u.receivers l).map (u.copyFrame h p (u.trailer l))).take (forwardCapacity - u.forwards.length)

theorem State.forwardStep_copied (hw : u.walkCalled = false) : u.Copied (u.forwardStep l h p).finish l h p := by
  obtain ⟨r, hr⟩ := State.forwards_eq (l := l) (h := h) (p := p) (u.trailer l) (u.receivers l) u
  have hoff : (u.forwardStep l h p).walkCalled = false := (u.forwardStep_walkCalled l h p).trans hw
  rw [State.finish_idle hoff, State.forwardStep, hr]
  exact ⟨rfl, rfl, rfl, rfl, rfl, rfl, rfl, rfl, rfl, rfl⟩

end

end Sys2Proof.Machine

namespace Sys2Proof

open Machine

/-- Settles O31: the copies are made after the walk, from the records the event ends with. -/
theorem statusFrameIsForwarded : Obligations.StatusFrameIsForwarded := by
  intro s q h p l ha hen
  refine ⟨_, ha.exec_status hen, ?_⟩
  have hrest := s.framed_rest l p
  have hwalk := s.framed_walkCalled l p
  have hagree : s.RecordsAgree → (((s.framed l p).forwardStep l h p).finish).RecordsAgree := by
    intro hs
    have hframe : s.statusFrame l h p = (s.framed l p).forwardStep l h p := by
      rw [State.statusFrame, hen]
      rfl
    rw [← hframe]
    exact (State.finish_keeps _).agree ((State.Row.statusFrame l h p).keeps.agree hs)
  generalize hu : s.framed l p = u at hrest hwalk hagree ⊢
  have hcopied := State.forwardStep_copied (l := l) (h := h) (p := p) hwalk
  generalize ht : (u.forwardStep l h p).finish = t at hcopied hagree ⊢
  obtain ⟨hauth, hchairs, hviews, htimer, hstatus, htables, -, -, -, hforwards⟩ := hcopied
  have hrec : t.receivers l = u.receivers l := State.receivers_congr hauth hchairs hviews htimer l
  have htrail : t.trailer l = u.trailer l := State.trailer_congr hauth hstatus htimer l
  have htab : u.tables = s.tables := congrArg Rest.tables hrest
  have hfor : u.forwards = s.forwards := congrArg Rest.forwards hrest
  have htim : t.timer = s.timer := htimer.trans (congrArg Rest.timer hrest)
  refine ⟨?_, ?_, fun hs => (hagree hs).receivers_nodup l, ?_, ?_⟩
  · rw [hforwards, hfor, hrec, htables, htrail]
    rfl
  · simp only [State.receivers, AuthState.outside_iff, ViewEntry.shows, inSet, htim, Bool.and_assoc]
  · rw [State.trailer_eq, LoaderStatus.linkByte_eq, htim]
    have hnumber : s.timer.number.setWidth 8 = byteOf s.timer.number.toNat := rfl
    rw [hnumber]
    generalize t.auth[l] = a
    obtain ⟨a, epoch⟩ := a
    cases a <;> rfl
  · intro steps u' copy
    have hu' : u' = u := hu
    refine ⟨hu' ▸ hfor, hu' ▸ hrec.symm, ?_⟩
    rw [hu', ← ht, State.forwardStep]
    refine congrArg State.finish (foldl_copies (s := s) (fun v c hv => ⟨?_, ?_⟩) _ u htab)
    · rw [State.forwardOne_eq _ hv, ← htrail]
      rfl
    · rw [State.forwardOne_eq _ hv]
      split <;> exact hv

end Sys2Proof
end

section
/-! The Call Queue keeps its order as a call joins it (R46–R48). -/

namespace Sys2Proof.Machine

open Sys2Proof

/-- Entry a is ahead of entry b: by class, then by age, then by loader number (R46). -/
theorem CallEntry.before_iff (now : Word32) (a b : CallEntry) : a.before now b = true ↔
    a.cls < b.cls ∨ a.cls = b.cls ∧ (callAge now b.stamp < callAge now a.stamp
      ∨ callAge now a.stamp = callAge now b.stamp ∧ a.loader < b.loader) := by
  simp only [CallEntry.before, Bool.or_eq_true, Bool.and_eq_true, decide_eq_true_eq, Fin.lt_def]

theorem CallEntry.before_trans {now : Word32} {a b c : CallEntry} (hab : a.before now b = true) (hbc : b.before now c = true) :
    a.before now c = true := by
  rw [CallEntry.before_iff, Fin.lt_def] at *
  omega

/-- Of two entries of different loaders one is ahead. -/
theorem CallEntry.before_total {now : Word32} {a b : CallEntry} (hne : a.loader ≠ b.loader) (hab : ¬ a.before now b = true) :
    b.before now a = true := by
  have hv : a.loader.val ≠ b.loader.val := fun h => hne (Fin.ext h)
  rw [CallEntry.before_iff, Fin.lt_def] at *
  omega

theorem insertCall_erase (now : Word32) {e : CallEntry} {q : List CallEntry} (he : e ∉ q) : (insertCall now e q).erase e = q := by
  induction q with
  | nil => simp [insertCall]
  | cons f q ih =>
    have hf : e ≠ f := fun h => he (h ▸ List.mem_cons_self)
    have hq : e ∉ q := fun h => he (List.mem_cons_of_mem _ h)
    rw [insertCall]
    split
    · rw [List.erase_cons_head]
    · rw [List.erase_cons_tail (by simpa using Ne.symm hf), ih hq]

theorem insertCall_pairwise (now : Word32) {e : CallEntry} {q : List CallEntry} (he : ∀ f ∈ q, f.loader ≠ e.loader)
    (hq : q.Pairwise fun a b => a.before now b = true) : (insertCall now e q).Pairwise fun a b => a.before now b = true := by
  induction q with
  | nil => exact List.pairwise_singleton _ _
  | cons f q ih =>
    obtain ⟨hf, htail⟩ := List.pairwise_cons.mp hq
    rw [insertCall]
    split
    · next hef =>
      refine List.pairwise_cons.mpr ⟨fun g hg => ?_, hq⟩
      obtain rfl | hg := List.mem_cons.mp hg
      · exact hef
      · exact CallEntry.before_trans hef (hf g hg)
    · next hef =>
      have hfe : f.before now e = true := CallEntry.before_total (he f List.mem_cons_self).symm hef
      refine List.pairwise_cons.mpr ⟨fun g hg => ?_, ih (fun g hg => he g (List.mem_cons_of_mem _ hg)) htail⟩
      obtain rfl | hg := mem_insertCall.mp hg
      · exact hfe
      · exact hf g hg

/-- A call joins the queue in its place, the others keeping their order (R46–R48). -/
theorem State.enqueue_joins (s : State) (l : Loader) (stamp : Word32) :
    let others := s.callQueue.filter (·.loader ≠ l)
    let queue := (s.enqueue l stamp).callQueue
    (⟨l, s.callClass l, stamp⟩ : CallEntry) ∈ queue ∧ queue.erase ⟨l, s.callClass l, stamp⟩ = others
      ∧ (others.Pairwise (fun a b => a.before s.timer.number b = true) →
        queue.Pairwise fun a b => a.before s.timer.number b = true) := by
  intro others queue
  have hother : ∀ f ∈ others, f.loader ≠ l := fun f hf => of_decide_eq_true (List.mem_filter.mp hf).2
  exact ⟨mem_insertCall.mpr (.inl rfl), insertCall_erase _ fun he => hother _ he rfl, insertCall_pairwise _ hother⟩

end Sys2Proof.Machine
end

section
/-! What steps 3 to 5 of a STATUS frame make of the records, and report (R11, R26, R47–R51, R109, R111, R112, R114). -/

namespace Sys2Proof.Machine

open Sys2Proof

section
variable {s t u : State} {l : Loader} {b : Byte} {a : AuthState}

/-! ## Step 3 (R108, R109) -/

/-- The loader enters a zone under an active line. -/
abbrev State.Blocked (s : State) (l : Loader) (b : Byte) : Prop :=
  zoneOfByte b ≠ s.status[l].zone ∧ s.zoneInterlocked (zoneOfByte b) = true

theorem State.standReport_same (hs : s.SameReporting t) (ha : t.auth = s.auth) (l cause r) :
    t.standReport l cause r = s.standReport l cause r := by
  simp only [State.standReport, ha, hs.standTold, Report.sends, Report.notice_same hs, Report.raise_same hs]

theorem State.zoneStep_stays (h : ¬ s.Blocked l b) : s.zoneStep l b = s.setStatus l { s.status[l] with zone := zoneOfByte b } := by
  by_cases hz : zoneOfByte b = s.status[l].zone
  · have hsame : s.zoneStep l b = s := if_pos hz
    rw [hsame, hz, State.setStatus_self]
  · have hfree : ¬ (s.setStatus l { s.status[l] with zone := zoneOfByte b }).zoneInterlocked (zoneOfByte b) = true := fun hi => h ⟨hz, hi⟩
    exact (if_neg hz).trans (if_neg hfree)

theorem State.zoneStep_enters (h : s.Blocked l b) : s.zoneStep l b =
    ((s.setStatus l { s.status[l] with zone := zoneOfByte b }).stand l .interlock).withRep
      (s.standReport l .interlock (s.rep.raise s ⟨.zoneEntryBlocked, some l, none, (byteOfZone (zoneOfByte b)).setWidth 16⟩)) := by
  let x := s.setStatus l { s.status[l] with zone := zoneOfByte b }
  have hx : s.SameReporting x := State.sameReporting_of_records rfl rfl rfl
  have hraise : x.raise .zoneEntryBlocked (some l) none ((byteOfZone (zoneOfByte b)).setWidth 16) =
      x.withRep (s.rep.raise s ⟨.zoneEntryBlocked, some l, none, (byteOfZone (zoneOfByte b)).setWidth 16⟩) := hx.raise_eq _ _ _ _
  have hin : x.zoneInterlocked (zoneOfByte b) = true := h.2
  have hstep : s.zoneStep l b = (x.raise .zoneEntryBlocked (some l) none ((byteOfZone (zoneOfByte b)).setWidth 16)).stand l .interlock :=
    (if_neg h.1).trans (if_pos hin)
  rw [hstep, hraise, State.withRep_stand, State.standReport_same hx rfl]

/-! ## Step 4 (R111, R112) -/

/-- A state whose record a change of the accepted request may move (R111). -/
def AuthState.callable : AuthState → Bool
  | .free => true
  | .calling _ => true
  | .offered none _ (.call _) _ _ _ => true
  | _ => false

theorem State.requestChanged_calls (ha : s.auth[l].state = .free) (hc : s.status[l].accepted.isCall = true) :
    s.requestChanged l = s.enterCalling l s.timer.number callNew := by
  simp only [State.requestChanged, ha, hc, if_true]

theorem State.requestChanged_idle (ha : s.auth[l].state = .free) (hc : s.status[l].accepted.isCall = false) :
    s.requestChanged l = s := by
  simp only [State.requestChanged, ha, hc, Bool.false_eq_true, if_false]

theorem State.requestChanged_resorts {w : Word32} (ha : s.auth[l].state = .calling w) (hc : s.status[l].accepted.isCall = true) :
    s.requestChanged l = s.enqueue l w := by
  simp only [State.requestChanged, ha, hc, if_true, State.resort]

/-- A record as it is. -/
theorem State.setAuth_self (ha : s.auth[l].state = a) : s.setAuth l a = s := by
  have h : putAt s.auth l ⟨a, s.auth[l].epoch⟩ = s.auth := by
    subst ha
    exact putAt_self _ _
  exact congrArg (fun auth => { s with auth := auth }) h

/-- A loader that has left the queue or its offer with no call accepted enters FREE, with CALL_WITHDRAWN (R49, R50). -/
theorem State.callWithdrawn_eq (hu : s.SameReporting u) (r : Report) (hc : u.status[l].accepted.isCall = false) :
    ((((u.setAuth l .free).withRep r).raise .callWithdrawn (some l)).enterFree l) =
      (u.setAuth l .free).withRep (r.raise s ⟨.callWithdrawn, some l, none, 0⟩) := by
  have hs : s.SameReporting ((u.setAuth l .free).withRep r) := hu.trans (State.sameReporting_of_records rfl rfl rfl)
  have hraise : ((u.setAuth l .free).withRep r).raise .callWithdrawn (some l) =
      (u.setAuth l .free).withRep (r.raise s ⟨.callWithdrawn, some l, none, 0⟩) := hs.raise_eq _ _ _ _
  rw [hraise]
  generalize r.raise s ⟨.callWithdrawn, some l, none, 0⟩ = r'
  rw [State.enterFree_free (s := (u.setAuth l .free).withRep r') (by
    rw [State.withRep_status, State.setAuth_status, hc]
    exact Bool.false_ne_true)]
  exact State.setAuth_self (by rw [State.withRep_auth, State.setAuth_auth, putAt_same])

theorem State.requestChanged_withdraws {w : Word32} (ha : s.auth[l].state = .calling w) (hc : s.status[l].accepted.isCall = false) :
    s.requestChanged l = ((s.dequeue l).setAuth l .free).withRep (s.rep.raise s ⟨.callWithdrawn, some l, none, 0⟩) := by
  have hs : s.SameReporting (s.dequeue l) := State.sameReporting_of_records rfl rfl rfl
  simp only [State.requestChanged, ha, hc, Bool.false_eq_true, if_false]
  exact State.callWithdrawn_eq hs s.rep hc

/-- What the end of the call of an offered loader reports (R50). -/
def State.callEndedReport (s : State) (l : Loader) (c : Chair) (n : Word16) : Report :=
  ((s.rep.sends s c .withdrawn l s.auth[l].epoch 0x25 n).raise s ⟨.callWithdrawn, some l, none, 0⟩).raise s
    ⟨.offerEnded, some l, some c, 7⟩

theorem State.requestChanged_ends {c : Chair} {w : Word32} {n o m} (ha : s.auth[l].state = .offered none c (.call w) n o m)
    (hc : s.status[l].accepted.isCall = false) :
    s.requestChanged l = (((s.offerGone c n).setAuth l .free).callWalk).withRep (s.callEndedReport l c n) := by
  have hgone : s.SameReporting (s.offerGone c n) := s.offerGone_same c n
  have hw : s.withdrawn l c n .callEnded = s.withRep (s.rep.sends s c .withdrawn l s.auth[l].epoch 0x25 n) := rfl
  have hstatus : (s.offerGone c n).status = s.status := congrArg Rest.status (s.offerGone_rest c n)
  have hcall : (s.offerGone c n).status[l].accepted.isCall = false := by rw [hstatus, hc]
  simp only [State.requestChanged, ha, hc, Bool.false_eq_true, if_false]
  rw [hw, State.endOffer_eq, State.withRep_offerGone, State.withRep_setAuth, State.callWithdrawn_eq hgone _ hcall]
  have hs : s.SameReporting ((s.offerGone c n).setAuth l .free) := hgone.trans (State.sameReporting_of_records rfl rfl rfl)
  rw [State.withRep_raise, State.callEndedReport, Report.raise_same hs]
  rfl

theorem State.requestChanged_stays {c : Chair} {w : Word32} {n o m} (ha : s.auth[l].state = .offered none c (.call w) n o m)
    (hc : s.status[l].accepted.isCall = true) : s.requestChanged l = s := by
  simp only [State.requestChanged, ha, hc, if_true]

theorem State.requestChanged_other (h : s.auth[l].state.callable = false) : s.requestChanged l = s := by
  unfold State.requestChanged
  dsimp only
  cases ha : s.auth[l].state with
  | free => exact nomatch (congrArg AuthState.callable ha).symm.trans h
  | calling w => exact nomatch (congrArg AuthState.callable ha).symm.trans h
  | offered ho c o n f m =>
    cases ho with
    | some x => rfl
    | none =>
      cases o with
      | direct => rfl
      | call w => exact nomatch (congrArg AuthState.callable ha).symm.trans h
  | _ => rfl

/-- What a change of the accepted request to r reports (R47–R51). -/
def State.changedReport (s : State) (l : Loader) (r : Request) : Report :=
  match s.auth[l].state with
  | .free => if r.isCall then s.rep.raise s ⟨.callQueued, some l, none, 1⟩ else s.rep
  | .calling _ => if r.isCall then s.rep else s.rep.raise s ⟨.callWithdrawn, some l, none, 0⟩
  | .offered none c (.call _) number _ _ => if r.isCall then s.rep else s.callEndedReport l c number
  | _ => s.rep

theorem State.changedReport_other (h : s.auth[l].state.callable = false) (r : Request) : s.changedReport l r = s.rep := by
  unfold State.changedReport
  cases ha : s.auth[l].state with
  | free => exact nomatch (congrArg AuthState.callable ha).symm.trans h
  | calling w => exact nomatch (congrArg AuthState.callable ha).symm.trans h
  | offered ho c o n f m =>
    cases ho with
    | some x => rfl
    | none =>
      cases o with
      | direct => rfl
      | call w => exact nomatch (congrArg AuthState.callable ha).symm.trans h
  | _ => rfl

/-- The states a change of the accepted request may move. -/
theorem AuthState.callable_cases (a : AuthState) : a.callable = false ∨ a = .free ∨ (∃ w, a = .calling w)
    ∨ ∃ c w n o m, a = .offered none c (.call w) n o m := by
  cases a with
  | free => exact .inr (.inl rfl)
  | calling w => exact .inr (.inr (.inl ⟨w, rfl⟩))
  | offered ho c o n f m =>
    cases ho with
    | some x => exact .inl rfl
    | none =>
      cases o with
      | direct => exact .inl rfl
      | call w => exact .inr (.inr (.inr ⟨c, w, n, f, m, rfl⟩))
  | _ => exact .inl rfl

theorem State.enterCalling_rep (s : State) (l w d) : (s.enterCalling l w d).rep = s.rep.raise s ⟨.callQueued, some l, none, d⟩ :=
  congrArg State.rep (s.withRep_enterCalling s.rep l w d)

theorem State.requestChanged_rep (s : State) (l : Loader) : (s.requestChanged l).rep = s.changedReport l s.status[l].accepted := by
  obtain ha | ha | ⟨w, ha⟩ | ⟨c, w, n, o, m, ha⟩ := s.auth[l].state.callable_cases
  · rw [State.requestChanged_other ha, State.changedReport_other ha]
  · cases hc : s.status[l].accepted.isCall with
    | true =>
      rw [State.requestChanged_calls ha hc, State.enterCalling_rep]
      simp only [State.changedReport, ha, hc, if_true]
      rfl
    | false =>
      rw [State.requestChanged_idle ha hc]
      simp only [State.changedReport, ha, hc, Bool.false_eq_true, if_false]
  · cases hc : s.status[l].accepted.isCall with
    | true =>
      rw [State.requestChanged_resorts ha hc]
      simp only [State.changedReport, ha, hc, if_true]
      rfl
    | false =>
      rw [State.requestChanged_withdraws ha hc]
      simp only [State.changedReport, ha, hc, Bool.false_eq_true, if_false, State.withRep_rep]
  · cases hc : s.status[l].accepted.isCall with
    | true =>
      rw [State.requestChanged_stays ha hc]
      simp only [State.changedReport, ha, hc, if_true]
    | false =>
      rw [State.requestChanged_ends ha hc]
      simp only [State.changedReport, ha, hc, Bool.false_eq_true, if_false, State.withRep_rep]

theorem State.changedReport_same (hs : s.SameReporting t) (ha : t.auth = s.auth) (hr : t.rep = s.rep) (l r) :
    t.changedReport l r = s.changedReport l r := by
  simp only [State.changedReport, State.callEndedReport, ha, hr, Report.sends, Report.notice_same hs, Report.raise_same hs]

/-- A change of the accepted request leaves what reporting reads, the holder and the epoch. -/
theorem State.requestChanged_same (s : State) (l : Loader) : s.SameReporting (s.requestChanged l)
    ∧ (s.requestChanged l).auth[l].state.holder = s.auth[l].state.holder ∧ (s.requestChanged l).auth[l].epoch = s.auth[l].epoch := by
  have hself : s.SameReporting s := State.sameReporting_of_records rfl rfl rfl
  obtain ha | ha | ⟨w, ha⟩ | ⟨c, w, n, o, m, ha⟩ := s.auth[l].state.callable_cases
  · rw [State.requestChanged_other ha]
    exact ⟨hself, rfl, rfl⟩
  · cases hc : s.status[l].accepted.isCall with
    | true =>
      rw [State.requestChanged_calls ha hc]
      refine ⟨State.sameReporting_of_records rfl rfl rfl, ?_, ?_⟩
      · rw [State.enterCalling_auth, putAt_same, ha]
        rfl
      · rw [State.enterCalling_auth, putAt_same]
    | false =>
      rw [State.requestChanged_idle ha hc]
      exact ⟨hself, rfl, rfl⟩
  · cases hc : s.status[l].accepted.isCall with
    | true =>
      rw [State.requestChanged_resorts ha hc]
      exact ⟨State.sameReporting_of_records rfl rfl rfl, rfl, rfl⟩
    | false =>
      rw [State.requestChanged_withdraws ha hc]
      refine ⟨State.sameReporting_of_records rfl rfl rfl, ?_, ?_⟩
      · rw [State.withRep_auth, State.setAuth_auth, putAt_same, ha]
        rfl
      · rw [State.withRep_auth, State.setAuth_auth, putAt_same]
        rfl
  · cases hc : s.status[l].accepted.isCall with
    | true =>
      rw [State.requestChanged_stays ha hc]
      exact ⟨hself, rfl, rfl⟩
    | false =>
      rw [State.requestChanged_ends ha hc]
      refine ⟨(s.offerGone_same c n).trans (State.sameReporting_of_records rfl rfl rfl), ?_, ?_⟩
      · rw [State.withRep_auth, State.callWalk_auth, State.setAuth_auth, putAt_same, ha]
        rfl
      · rw [State.withRep_auth, State.callWalk_auth, State.setAuth_auth, putAt_same, State.offerGone_auth]

/-- What FAULT is told about (R112). -/
def State.faultTold (s : State) (l : Loader) (replaced : Request) (r : Report) : Report :=
  (match s.auth[l].state.holder with
    | none => r
    | some x => r.notice s x
        { name := .fault, loader := some l, chair := some x, epoch := s.auth[l].epoch, detail := replaced.code.setWidth 16 }).raise s
    ⟨.loaderFault, some l, s.auth[l].state.holder, replaced.code.setWidth 16⟩

theorem State.faultReport_rep (hs : s.SameReporting t) (hh : t.auth[l].state.holder = s.auth[l].state.holder)
    (he : t.auth[l].epoch = s.auth[l].epoch) (old : Request) : (t.faultReport l old).rep = s.faultTold l old t.rep := by
  simp only [State.faultReport, State.faultTold, hh, he]
  cases s.auth[l].state.holder with
  | none => exact congrArg State.rep (hs.raise_eq _ _ _ _)
  | some x =>
    dsimp only
    rw [hs.notice_eq]
    exact congrArg State.rep (hs.raise_rep _ _ _ _ _)

/-- What step 4 reports. -/
theorem State.requestStep_rep (s : State) (l : Loader) (b : Byte) : (s.requestStep l b).rep =
    if s.accepts l (Request.ofCode b) = true then
      if Request.ofCode b = .fault then s.faultTold l s.status[l].accepted (s.changedReport l (Request.ofCode b))
      else s.changedReport l (Request.ofCode b)
    else s.rep := by
  generalize hr : Request.ofCode b = r
  cases h : s.accepts l r with
  | false =>
    rw [s.requestStep_same l h b hr]
    rfl
  | true =>
    let x := s.setStatus l (s.status[l].requested s.tables.device r)
    have hx : s.SameReporting x := State.sameReporting_of_records rfl rfl rfl
    have hk : s.tables.device.requestCount ≤ (pushWindow s.tables.device.requestLength r s.status[l].filter).count r :=
      of_decide_eq_true (Bool.and_eq_true_iff.mp h).1
    have hacc : x.status[l].accepted = r := by
      rw [State.setStatus_get, LoaderStatus.requested, if_pos hk]
    obtain ⟨hsame, hh, he⟩ := x.requestChanged_same l
    have hrep : (x.requestChanged l).rep = s.changedReport l r := by
      rw [State.requestChanged_rep, hacc, State.changedReport_same hx rfl rfl]
    rw [s.requestStep_changed l h b hr, if_pos rfl]
    split
    · rw [State.faultReport_rep (hx.trans hsame) hh he, hrep]
    · exact hrep

/-! ## Step 5 (R26, R114) -/

theorem State.modeStep_other (h : ∀ m, s.auth[l].state ≠ .releasing m) (b : Byte) : s.modeStep l b = s := by
  unfold State.modeStep
  split
  · next m ha => exact absurd ha (h m)
  · rfl

theorem State.modeStep_stays {m} (ha : s.auth[l].state = .releasing m) (hb : b ≠ modeAuto) : s.modeStep l b = s := by
  simp only [State.modeStep, ha, hb, if_false]

theorem State.modeStep_frees {m} (ha : s.auth[l].state = .releasing m) : s.modeStep l modeAuto =
    ((s.setAuth l .free).enterFree l).withRep (s.freedReport l (s.rep.raise s ⟨.releaseDone, some l, none, 0⟩)) := by
  have hs : s.SameReporting (s.setAuth l .free) := State.sameReporting_of_records rfl rfl rfl
  have hstep : s.modeStep l modeAuto = ((s.setAuth l .free).raise .releaseDone (some l)).enterFree l := by
    simp only [State.modeStep, ha, if_true]
  have hraise : (s.setAuth l .free).raise .releaseDone (some l) =
      (s.setAuth l .free).withRep (s.rep.raise s ⟨.releaseDone, some l, none, 0⟩) := hs.raise_eq _ _ _ _
  rw [hstep, hraise, State.withRep_enterFree]
  simp only [State.freedReport, Report.raise_same hs, State.setAuth_status]

end

end Sys2Proof.Machine
end

section
/-! The record of a loader after steps 3 to 5 of a STATUS frame, and after the walk they call for (R109, R111, R114). -/

namespace Sys2Proof.Machine

open Sys2Proof

section
variable {s t u v w x : State} {l : Loader} {b : Byte}

/-- The accepted request after a code is entered (R111). -/
def State.acceptedAfter (s : State) (l : Loader) (b : Byte) : Request :=
  (s.status[l].requested s.tables.device (Request.ofCode b)).accepted

theorem State.accepts_iff (s : State) (l : Loader) (b : Byte) :
    s.accepts l (Request.ofCode b) = true ↔ s.acceptedAfter l b ≠ s.status[l].accepted := by
  rw [State.acceptedAfter]
  generalize Request.ofCode b = r
  simp only [State.accepts, LoaderStatus.requested, Bool.and_eq_true, decide_eq_true_eq]
  by_cases hk : s.tables.device.requestCount ≤ (pushWindow s.tables.device.requestLength r s.status[l].filter).count r
  · rw [if_pos hk]
    exact ⟨And.right, fun h => ⟨hk, h⟩⟩
  · rw [if_neg hk]
    exact ⟨fun h => absurd h.1 hk, fun h => absurd rfl h⟩

/-- The record's state after a change of the accepted request (R47–R51, R111). -/
def State.requestedState (s : State) (l : Loader) (acc : Request) : AuthState :=
  match s.auth[l].state with
  | .free => if acc.isCall then .calling s.timer.number else .free
  | .calling w => if acc.isCall then .calling w else .free
  | .offered none c (.call w) n o m => if acc.isCall then .offered none c (.call w) n o m else .free
  | a => a

theorem State.requestedState_other (h : s.auth[l].state.callable = false) (acc : Request) :
    s.requestedState l acc = s.auth[l].state := by
  unfold State.requestedState
  cases ha : s.auth[l].state with
  | free => exact nomatch (congrArg AuthState.callable ha).symm.trans h
  | calling w => exact nomatch (congrArg AuthState.callable ha).symm.trans h
  | offered ho c o n f m =>
    cases ho with
    | some x => rfl
    | none =>
      cases o with
      | direct => rfl
      | call w => exact nomatch (congrArg AuthState.callable ha).symm.trans h
  | _ => rfl

theorem State.requestChanged_record (s : State) (l : Loader) :
    (s.requestChanged l).auth = putAt s.auth l ⟨s.requestedState l s.status[l].accepted, s.auth[l].epoch⟩ := by
  have hself {a : AuthState} (h : s.auth[l].state = a) : s.auth = putAt s.auth l ⟨a, s.auth[l].epoch⟩ := by
    subst h
    exact (putAt_self _ _).symm
  obtain ha | ha | ⟨w, ha⟩ | ⟨c, w, n, o, m, ha⟩ := s.auth[l].state.callable_cases
  · rw [State.requestChanged_other ha, State.requestedState_other ha]
    exact hself rfl
  · cases hc : s.status[l].accepted.isCall with
    | true =>
      rw [State.requestChanged_calls ha hc]
      simp only [State.requestedState, ha, hc, if_true]
      exact State.enterCalling_auth _ _ _ _
    | false =>
      rw [State.requestChanged_idle ha hc]
      simp only [State.requestedState, ha, hc, Bool.false_eq_true, if_false]
      exact hself ha
  · cases hc : s.status[l].accepted.isCall with
    | true =>
      rw [State.requestChanged_resorts ha hc]
      simp only [State.requestedState, ha, hc, if_true]
      exact hself ha
    | false =>
      rw [State.requestChanged_withdraws ha hc]
      simp only [State.requestedState, ha, hc, Bool.false_eq_true, if_false]
      rfl
  · cases hc : s.status[l].accepted.isCall with
    | true =>
      rw [State.requestChanged_stays ha hc]
      simp only [State.requestedState, ha, hc, if_true]
      exact hself ha
    | false =>
      rw [State.requestChanged_ends ha hc]
      simp only [State.requestedState, ha, hc, Bool.false_eq_true, if_false]
      rw [State.withRep_auth, State.callWalk_auth, State.setAuth_auth, State.offerGone_auth]

theorem State.faultReport_records (s : State) (l : Loader) (r : Request) :
    (s.faultReport l r).auth = s.auth ∧ (s.faultReport l r).chairs = s.chairs ∧ (s.faultReport l r).freeList = s.freeList := by
  simp only [State.faultReport]
  split
  · exact ⟨rfl, rfl, rfl⟩
  · exact ⟨rfl, rfl, rfl⟩

/-- Step 4 where the accepted request stays. -/
theorem State.requestStep_kept (h : s.acceptedAfter l b = s.status[l].accepted) : s.requestStep l b =
    s.setStatus l (s.status[l].requested s.tables.device (Request.ofCode b)) :=
  s.requestStep_same l (Bool.eq_false_iff.mpr fun ha => (s.accepts_iff l b).mp ha h) b rfl

/-- Step 4 where the accepted request changes, in the records. -/
theorem State.requestStep_moved (h : s.acceptedAfter l b ≠ s.status[l].accepted) :
    let z := s.setStatus l (s.status[l].requested s.tables.device (Request.ofCode b))
    (s.requestStep l b).auth = (z.requestChanged l).auth ∧ (s.requestStep l b).chairs = (z.requestChanged l).chairs
      ∧ (s.requestStep l b).freeList = (z.requestChanged l).freeList := by
  intro z
  rw [s.requestStep_changed l ((s.accepts_iff l b).mpr h) b rfl]
  split
  · exact State.faultReport_records _ _ _
  · exact ⟨rfl, rfl, rfl⟩

/-- Step 4 of a status frame, in the records. -/
theorem State.requestStep_record (s : State) (l : Loader) (b : Byte) : (s.requestStep l b).auth = putAt s.auth l
    ⟨if s.acceptedAfter l b = s.status[l].accepted then s.auth[l].state else s.requestedState l (s.acceptedAfter l b),
      s.auth[l].epoch⟩ := by
  by_cases h : s.acceptedAfter l b = s.status[l].accepted
  · rw [State.requestStep_kept h, if_pos h]
    exact (putAt_self _ _).symm
  · rw [(State.requestStep_moved h).1, if_neg h, State.requestChanged_record]
    have hacc : (s.setStatus l (s.status[l].requested s.tables.device (Request.ofCode b))).status[l].accepted = s.acceptedAfter l b := by
      rw [State.setStatus_get, State.acceptedAfter]
    rw [hacc]
    rfl

/-- Step 5 of a status frame, in the records. -/
def State.reportedState (s : State) (l : Loader) (b : Byte) : AuthState :=
  match s.auth[l].state with
  | .releasing m => if b = modeAuto then s.freedState l else .releasing m
  | a => a

theorem State.modeStep_record (s : State) (l : Loader) (b : Byte) :
    (s.modeStep l b).auth = putAt s.auth l ⟨s.reportedState l b, s.auth[l].epoch⟩ := by
  by_cases hr : ∃ m, s.auth[l].state = .releasing m
  · obtain ⟨m, hr⟩ := hr
    by_cases hb : b = modeAuto
    · subst hb
      rw [State.modeStep_frees hr, State.withRep_auth, State.enterFree_record, State.setAuth_auth, putAt_same, putAt_putAt]
      simp only [State.reportedState, hr, if_true]
      rfl
    · rw [State.modeStep_stays hr hb]
      simp only [State.reportedState, hr, hb, if_false]
      rw [← hr]
      exact (putAt_self _ _).symm
  · have hne : ∀ m, s.auth[l].state ≠ .releasing m := fun m h => hr ⟨m, h⟩
    have hstate : s.reportedState l b = s.auth[l].state := by
      unfold State.reportedState
      split
      · next m h => exact absurd h (hne m)
      · rfl
    rw [State.modeStep_other hne, hstate]
    exact (putAt_self _ _).symm

/-! ## The steps together -/

/-- Steps 1 to 5 of a status frame (R104). -/
def State.stepped (s : State) (l : Loader) (p : StatusPayload) : State :=
  ((((s.heardStep l).farEndStep l p.farEnd).zoneStep l p.zone).requestStep l p.request).modeStep l p.mode

theorem State.framed_stepped (s : State) (l : Loader) (p : StatusPayload) : s.framed l p = (s.stepped l p).walkIfCalled := rfl

section steps
variable {p : StatusPayload}

/-- The accepted request after a status frame. -/
def State.acceptedBy (s : State) (l : Loader) (p : StatusPayload) : Request := (s.status[l].entered s.tables.device p).accepted

/-- The record's state after a status frame that meets no active line (R111, R114). -/
def State.steppedState (s : State) (l : Loader) (p : StatusPayload) : AuthState :=
  match if s.acceptedBy l p = s.status[l].accepted then s.auth[l].state else s.requestedState l (s.acceptedBy l p) with
  | .releasing m =>
    if p.mode = modeAuto then (if (s.acceptedBy l p).isCall then .calling s.timer.number else .free) else .releasing m
  | a => a

/-- The Status Unit's record after steps 1 to 3. -/
def State.zonedStatus (s : State) (l : Loader) (p : StatusPayload) : LoaderStatus :=
  { s.status[l].counted s.tables.device.degrade (farEndOfByte p.farEnd) with zone := zoneOfByte p.zone }

theorem State.zoned_stays (h : ¬ s.Blocked l p.zone) : ((s.heardStep l).farEndStep l p.farEnd).zoneStep l p.zone =
    (s.setStatus l (s.zonedStatus l p)).withRep (s.countedReport l (farEndOfByte p.farEnd)) := by
  rw [State.farEndStep_eq]
  let u := (s.setStatus l (s.status[l].counted s.tables.device.degrade (farEndOfByte p.farEnd))).withRep
    (s.countedReport l (farEndOfByte p.farEnd))
  have hu : u.status[l] = s.status[l].counted s.tables.device.degrade (farEndOfByte p.farEnd) := putAt_same _ _ _
  have hz : u.status[l].zone = s.status[l].zone := by rw [hu]; rfl
  have hfree : ¬ u.Blocked l p.zone := by
    rw [State.Blocked, hz]
    exact h
  rw [State.zoneStep_stays hfree, hu, State.withRep_setStatus, State.setStatus_setStatus]
  rfl

theorem State.zoned_stands (h : s.Blocked l p.zone) : ∃ r, ((s.heardStep l).farEndStep l p.farEnd).zoneStep l p.zone =
    ((s.setStatus l (s.zonedStatus l p)).stand l .interlock).withRep r := by
  rw [State.farEndStep_eq]
  let u := (s.setStatus l (s.status[l].counted s.tables.device.degrade (farEndOfByte p.farEnd))).withRep
    (s.countedReport l (farEndOfByte p.farEnd))
  have hu : u.status[l] = s.status[l].counted s.tables.device.degrade (farEndOfByte p.farEnd) := putAt_same _ _ _
  have hz : u.status[l].zone = s.status[l].zone := by rw [hu]; rfl
  have hin : u.Blocked l p.zone := by
    rw [State.Blocked, hz]
    exact h
  rw [State.zoneStep_enters hin, hu, State.withRep_setStatus, State.setStatus_setStatus, State.withRep_stand]
  exact ⟨_, rfl⟩

theorem State.stepped_stood (h : s.Blocked l p.zone) : (s.stepped l p).auth = putAt s.auth l (s.stoodRecord l .interlock) := by
  obtain ⟨r, hz⟩ := State.zoned_stands h
  rw [State.stepped, hz]
  generalize hx : ((s.setStatus l (s.zonedStatus l p)).stand l .interlock).withRep r = x
  have hauth : x.auth = putAt s.auth l (s.stoodRecord l .interlock) := by
    rw [← hx, State.withRep_auth, State.stand_record]
    rfl
  have hrec : x.auth[l] = s.stoodRecord l .interlock := by rw [hauth, putAt_same]
  have hstands : x.auth[l].state.isStanding = true := by rw [hrec]; exact s.stoodRecord_standing l _
  obtain ⟨retained, cause, hstate⟩ : ∃ retained cause, x.auth[l].state = .standing retained cause := by
    cases hs : x.auth[l].state with
    | standing retained cause => exact ⟨retained, cause, rfl⟩
    | _ => rw [hs] at hstands; exact nomatch hstands
  have hreq : (x.requestStep l p.request).auth = x.auth := by
    rw [State.requestStep_record, State.requestedState_other (by rw [hstate]; rfl), ite_self]
    exact putAt_self _ _
  have hmode : ∀ m, (x.requestStep l p.request).auth[l].state ≠ .releasing m := by
    rw [hreq, hstate]
    nofun
  rw [State.modeStep_other hmode, hreq, hauth]

theorem State.stepped_record (h : ¬ s.Blocked l p.zone) :
    (s.stepped l p).auth = putAt s.auth l ⟨s.steppedState l p, s.auth[l].epoch⟩ := by
  rw [State.stepped, State.zoned_stays h]
  generalize hx : (s.setStatus l (s.zonedStatus l p)).withRep (s.countedReport l (farEndOfByte p.farEnd)) = x
  have hauth : x.auth = s.auth := by rw [← hx]; rfl
  have htimer : x.timer = s.timer := by rw [← hx]; rfl
  have hstatus : x.status[l] = s.zonedStatus l p := by rw [← hx]; exact putAt_same _ _ _
  have hacc : x.acceptedAfter l p.request = s.acceptedBy l p := by
    rw [State.acceptedAfter, hstatus, ← hx]
    rfl
  have hold : x.status[l].accepted = s.status[l].accepted := by rw [hstatus]; rfl
  have hmoved : x.requestedState l (s.acceptedBy l p) = s.requestedState l (s.acceptedBy l p) := by
    rw [State.requestedState, State.requestedState, hauth, htimer]
  have hrequest := x.requestStep_record l p.request
  rw [hacc, hold, hmoved, hauth] at hrequest
  have hstored := x.requestStep_stored l p.request
  have hycall : (x.requestStep l p.request).status[l].accepted = s.acceptedBy l p := by
    have hystatus : (x.requestStep l p.request).status = putAt x.status l _ := congrArg Rest.status hstored
    rw [hystatus, putAt_same]
    exact hacc
  have hytimer : (x.requestStep l p.request).timer = s.timer := (congrArg Rest.timer hstored).trans htimer
  generalize x.requestStep l p.request = y at *
  have hy : y.auth[l] = ⟨if s.acceptedBy l p = s.status[l].accepted then s.auth[l].state else s.requestedState l (s.acceptedBy l p),
      s.auth[l].epoch⟩ := by rw [hrequest, putAt_same]
  rw [State.modeStep_record, hrequest, putAt_putAt, putAt_same]
  simp only [State.reportedState, State.steppedState, State.freedState, hycall, hytimer, hy]

end steps

end

end Sys2Proof.Machine
end

section
/-! STATUS frames and the records (O30). -/

namespace Sys2Proof.Machine

open Sys2Proof

section
variable {s t u v w : State} {l : Loader} {h : Header} {p : StatusPayload}

/-- The records of a status frame agree before its walk. -/
theorem State.RecordsAgree.stepped (hs : s.RecordsAgree) (hen : s.enabled l = true) (p : StatusPayload) : (s.stepped l p).RecordsAgree := by
  have h2 := (hs.heardStep l).farEndStep l p.farEnd
  have hen' : (((s.heardStep l).farEndStep l p.farEnd).zoneStep l p.zone).enabled l = true := by simpa [State.enabled] using hen
  exact ((h2.zoneStep l _).requestStep hen' _).modeStep l _

/-- Two states that end a walk alike. -/
theorem State.Walked.congr (h : u.Walked v) (ha : t.auth = v.auth) (hc : t.chairs = v.chairs) (hf : t.freeList = v.freeList)
    (hw : t.windows = v.windows) (hr : t.rest = v.rest) : u.Walked t where
  auth k := by rw [ha]; exact h.auth k
  chairs x := by rw [ha, hc, hf]; exact h.chairs x
  freeList := by rw [hf]; exact h.freeList
  windows := hw.trans h.windows
  rest := hr.trans h.rest

/-- The copies come after the walk, and leave what it left. -/
theorem State.Walked.copied (hw : w.Walked w.finish) (hc : w.cycleStarting = false) (ht : w.walkIfCalled.Copied t l h p) :
    w.Walked { t with forwards := w.forwards } := by
  have hf : w.finish = w.walkIfCalled.setBeacons := State.finish_over hc
  have hrest : w.walkIfCalled.forwards = w.forwards := congrArg Rest.forwards w.walkIfCalled_rest
  rw [hf] at hw
  exact hw.congr ht.auth ht.chairs ht.freeList ht.windows (by rw [← hrest]; exact ht.rest)

/-! ## The record's state, by cases -/

/-- The record of a loader that a status frame leaves. -/
theorem State.steppedState_kept (hm : ∀ m, s.auth[l].state ≠ .releasing m)
    (hk : s.acceptedBy l p = s.status[l].accepted ∨ s.requestedState l (s.acceptedBy l p) = s.auth[l].state) :
    s.steppedState l p = s.auth[l].state := by
  have hq : (if s.acceptedBy l p = s.status[l].accepted then s.auth[l].state else s.requestedState l (s.acceptedBy l p)) =
      s.auth[l].state := by
    split
    · rfl
    · next h => exact hk.resolve_left h
  rw [State.steppedState, hq]
  split
  · next m h => exact absurd h (hm m)
  · rfl

/-- A change of the accepted request, for a loader that is not let go. -/
theorem State.steppedState_moved {a : AuthState} (hne : s.acceptedBy l p ≠ s.status[l].accepted)
    (ha : s.requestedState l (s.acceptedBy l p) = a) (hm : ∀ m, a ≠ .releasing m) : s.steppedState l p = a := by
  rw [State.steppedState, if_neg hne, ha]
  split
  · next m => exact absurd rfl (hm m)
  · rfl

theorem State.steppedState_released {m} (ha : s.auth[l].state = .releasing m) : s.steppedState l p =
    if p.mode = modeAuto then (if (s.acceptedBy l p).isCall then .calling s.timer.number else .free) else .releasing m := by
  have hother : s.requestedState l (s.acceptedBy l p) = s.auth[l].state := State.requestedState_other (by rw [ha]; rfl) _
  rw [State.steppedState, hother, ite_self, ha]

/-- A status frame of an enabled loader, its walk made, as the copies after it leave the records. -/
theorem State.AdmitsStatus.stepped_walked {q : LevelPort} (ha : s.AdmitsStatus q.toPort (statusFrameOf h p) l) (hs : s.RecordsAgree)
    (hen : s.enabled l = true) (ht : t = ((s.framed l p).forwardStep l h p).finish) :
    (s.stepped l p).Walked { t with forwards := (s.stepped l p).forwards }
      ∧ (s.stepped l p).tables = s.tables ∧ t.status[l] = s.status[l].entered s.tables.device p := by
  have hrest : (s.stepped l p).rest = (s.setStatus l (s.status[l].entered s.tables.device p)).rest := by
    rw [← s.framed_rest l p, State.framed_stepped, State.walkIfCalled_rest]
  have hc : (s.stepped l p).cycleStarting = false :=
    (State.cycleStarting_congr (s := s) (congrArg Rest.due hrest)).trans ha.1.idle.2.2
  have hcopied : (s.stepped l p).walkIfCalled.Copied t l h p := by
    rw [ht]
    exact State.forwardStep_copied (s.framed_walkCalled l p)
  have htab : (s.stepped l p).tables = s.tables := congrArg Rest.tables hrest
  have hwalked := (hs.stepped hen p).walked hc
  have hover := State.Walked.copied hwalked hc hcopied
  refine ⟨hover, htab, ?_⟩
  have hstatus : t.status = putAt s.status l (s.status[l].entered s.tables.device p) :=
    congrArg Rest.status (s.forwarded_rest l h p ht)
  rw [hstatus, putAt_same]

/-- The chair of an offer whose call has ended (R50). -/
theorem State.stepped_chairs {c : Chair} {w' n o m} (hb : ¬ s.Blocked l p.zone) (ha : s.auth[l].state = .offered none c (.call w') n o m)
    (hne : s.acceptedBy l p ≠ s.status[l].accepted) (hcall : (s.acceptedBy l p).isCall = false) :
    ∃ z : State, z.timer = s.timer ∧ z.freeList = s.freeList ∧ z.chairs = s.chairs ∧
      (s.stepped l p).chairs = (z.offerGone c n).chairs ∧ (s.stepped l p).freeList = (z.offerGone c n).freeList := by
  rw [State.stepped, State.zoned_stays hb]
  generalize hx : (s.setStatus l (s.zonedStatus l p)).withRep (s.countedReport l (farEndOfByte p.farEnd)) = x
  have hxa : x.auth = s.auth := by rw [← hx]; rfl
  have hstatus : x.status[l] = s.zonedStatus l p := by rw [← hx]; exact putAt_same _ _ _
  have hacc : x.acceptedAfter l p.request = s.acceptedBy l p := by
    rw [State.acceptedAfter, hstatus, ← hx]
    rfl
  have hold : x.status[l].accepted = s.status[l].accepted := by rw [hstatus]; rfl
  obtain ⟨hauth, hchairs, hfree⟩ := State.requestStep_moved (s := x) (l := l) (b := p.request) (by rw [hacc, hold]; exact hne)
  have hends := State.requestChanged_ends (s := x.setStatus l (x.status[l].requested x.tables.device (Request.ofCode p.request))) (l := l)
    (by rw [State.setStatus_auth, hxa]; exact ha) (by rw [State.setStatus_get, ← State.acceptedAfter, hacc]; exact hcall)
  rw [hends] at hauth hchairs hfree
  rw [State.withRep_chairs, State.callWalk_chairs, State.setAuth_chairs] at hchairs
  rw [State.withRep_freeList, State.callWalk_freeList, State.setAuth_freeList] at hfree
  have hmode : ∀ k, (x.requestStep l p.request).auth[l].state ≠ .releasing k := by
    rw [hauth, State.withRep_auth, State.callWalk_auth, State.setAuth_auth, putAt_same]
    nofun
  rw [State.modeStep_other hmode]
  refine ⟨x.setStatus l (x.status[l].requested x.tables.device (Request.ofCode p.request)), ?_, ?_, ?_, hchairs, hfree⟩
  all_goals rw [← hx]; rfl

end

end Sys2Proof.Machine

namespace Sys2Proof

open Machine

/-- Settles O30: each step's act on the record by its state, told before the walk and after it. -/
theorem statusFrameMovesTheLoader : Obligations.StatusFrameMovesTheLoader := by
  intro s q h p l
  refine ⟨fun stamp => ?_, ?_, ?_, ?_, fun ha hs hen => ⟨_, ha.exec_status hen, ?_⟩⟩
  · obtain ⟨hmem, herase, hpair⟩ := s.enqueue_joins l stamp
    refine ⟨hmem, herase, fun hothers => ?_⟩
    simp only [CallEntry.before_iff] at hpair
    exact hpair hothers
  · intro zone
    split
    · next hb =>
      rw [State.zoneStep_enters (b := p.zone) hb]
      rfl
    · next hb =>
      rw [State.zoneStep_stays (b := p.zone) hb]
      rfl
  · intro r old filter changed holder detail told
    have hacc : s.accepts l r = true ↔ s.tables.device.requestCount ≤ filter.count r ∧ r ≠ old := by
      rw [State.accepts, pushWindow_eq, Bool.and_eq_true, decide_eq_true_eq, decide_eq_true_eq]
    have hchanged : s.changedReport l r = changed := rfl
    have htold : s.faultTold l old (s.changedReport l r) = told.raise s ⟨.loaderFault, some l, holder, detail⟩ := rfl
    rw [State.requestStep_rep]
    by_cases h : s.tables.device.requestCount ≤ filter.count r ∧ r ≠ old
    · rw [if_pos (hacc.mpr h), if_pos h, htold, hchanged]
    · rw [if_neg fun ha => h (hacc.mp ha), if_neg h]
  · cases ha : s.auth[l].state with
    | releasing m =>
      dsimp only
      split
      · next hm =>
        rw [hm]
        exact congrArg State.rep (State.modeStep_frees ha)
      · next hm => rw [State.modeStep_stays ha hm]
    | _ => exact congrArg State.rep (State.modeStep_other (by rw [ha]; nofun) p.mode)
  · generalize ht : ((s.framed l p).forwardStep l h p).finish = t
    obtain ⟨hw, htab, hstatus⟩ := State.AdmitsStatus.stepped_walked ha hs hen ht.symm
    have hzone : t.status[l].zone = zoneOfByte p.zone := by rw [hstatus]; rfl
    have hacc : t.status[l].accepted = s.acceptedBy l p := by rw [hstatus]; rfl
    refine ⟨fun m hm => hw.kept ?_ htab, ?_⟩
    · by_cases hb : s.Blocked l p.zone
      · rw [State.stepped_stood hb, putAt_other _ _ hm.symm]
      · rw [State.stepped_record hb, putAt_other _ _ hm.symm]
    · simp only [hzone, hacc]
      split
      · next hb => exact hw.stood (by rw [State.stepped_stood hb, putAt_same])
      · next hb =>
        have hrec : (s.stepped l p).auth[l] = ⟨s.steppedState l p, s.auth[l].epoch⟩ := by
          rw [State.stepped_record hb, putAt_same]
        have hsame (h : s.steppedState l p = s.auth[l].state) : (s.stepped l p).auth[l] = s.auth[l] := by rw [hrec, h]
        have hleft (h : s.steppedState l p = s.auth[l].state) (hc : s.auth[l].state.isCalling = false) : t.auth[l] = s.auth[l] :=
          hw.record (hsame h) hc
        cases hstate : s.auth[l].state with
        | free =>
          dsimp only
          split
          · next hc =>
            have hmoved : s.requestedState l (s.acceptedBy l p) = .calling s.timer.number := by
              simp only [State.requestedState, hstate, hc.1, if_true]
            exact hw.callingAt htab (by rw [hrec, State.steppedState_moved hc.2.symm hmoved nofun])
          · next hc =>
            refine hleft (State.steppedState_kept (by rw [hstate]; nofun) ?_) (by rw [hstate]; rfl)
            by_cases he : s.acceptedBy l p = s.status[l].accepted
            · exact .inl he
            · have hno : (s.acceptedBy l p).isCall ≠ true := fun hi => hc ⟨hi, Ne.symm he⟩
              exact .inr (by simp only [State.requestedState, hstate, hno, Bool.false_eq_true, if_false])
        | calling w =>
          dsimp only
          split
          · next hc =>
            refine hw.kept (hsame (State.steppedState_kept (by rw [hstate]; nofun) ?_)) htab
            refine hc.symm.imp Eq.symm fun hi => ?_
            simp only [State.requestedState, hstate, hi, if_true]
          · next hc =>
            obtain ⟨hno, hne⟩ := not_or.mp hc
            have hmoved : s.requestedState l (s.acceptedBy l p) = .free := by
              simp only [State.requestedState, hstate, hno, Bool.false_eq_true, if_false]
            exact hw.record (by rw [hrec, State.steppedState_moved (Ne.symm hne) hmoved nofun]) rfl
        | offered ho c o n f m =>
          have hrel : ∀ k, s.auth[l].state ≠ .releasing k := by rw [hstate]; nofun
          have hidle : s.auth[l].state.isCalling = false := by rw [hstate]; rfl
          cases ho with
          | some y => exact hleft (State.steppedState_kept hrel (.inr (State.requestedState_other (by rw [hstate]; rfl) _))) hidle
          | none =>
            cases o with
            | direct => exact hleft (State.steppedState_kept hrel (.inr (State.requestedState_other (by rw [hstate]; rfl) _))) hidle
            | call w =>
              dsimp only
              split
              · next hc =>
                refine hleft (State.steppedState_kept hrel ?_) hidle
                refine hc.symm.imp Eq.symm fun hi => ?_
                simp only [State.requestedState, hstate, hi, if_true]
              · next hc =>
                obtain ⟨hno, hne⟩ := not_or.mp hc
                have hmoved : s.requestedState l (s.acceptedBy l p) = .free := by
                  simp only [State.requestedState, hstate, hno, Bool.false_eq_true, if_false]
                obtain ⟨z, hzt, hzf, hzc, hchairs, hlist⟩ :=
                  State.stepped_chairs hb hstate (Ne.symm hne) (Bool.eq_false_iff.mpr hno)
                obtain ⟨-, hpresent, hlisted⟩ := hs.offered_placed hstate
                have hput : (z.setChair c { z.chairs[c] with lastEnded := some n }).chairs[c] = { s.chairs[c] with lastEnded := some n } := by
                  rw [State.setChair_chairs, putAt_same, hzc]
                refine ⟨hw.record (by rw [hrec, State.steppedState_moved (Ne.symm hne) hmoved nofun]) rfl, ?_, ?_⟩
                · have hrejoined := State.rejoined_of_release (v := z.setChair c { z.chairs[c] with lastEnded := some n }) hzt hzf
                    (by rw [hput]; exact hpresent) hlisted rfl hchairs hlist hw
                  exact hrejoined
                · refine ((hw.chair_counts c).1).trans ?_
                  rw [hchairs, State.offerGone, (State.release_counts _ c c).1, hput]
        | releasing m =>
          dsimp only
          have hfinal := State.steppedState_released (p := p) hstate
          split
          · next hm =>
            rw [hm] at hfinal
            have hcases := hfinal.trans (if_pos rfl)
            rw [State.freed]
            split
            · next hi =>
              rw [if_pos hi] at hcases
              exact hw.callingAt htab (by rw [hrec, hcases])
            · next hi =>
              rw [if_neg hi] at hcases
              exact decide_eq_true (hw.free (by rw [hrec, hcases]))
          · next hm => exact hleft ((hfinal.trans (if_neg hm)).trans hstate.symm) (by rw [hstate]; rfl)
        | _ => exact hleft (State.steppedState_kept (by rw [hstate]; nofun)
            (.inr (State.requestedState_other (by rw [hstate]; rfl) _))) (by rw [hstate]; rfl)

end Sys2Proof
end

section
/-! A candidate's COMMAND frame: the judgement, the window and the grant (R56, R58–R64). -/

namespace Sys2Proof.Machine

open Sys2Proof

section
variable {s t u v : State} {c : Chair} {l : Loader} {h : Header} {p : CommandPayload} {holder offerer : Option Chair} {m : Command}

/-! ## The judgement (R58–R60) -/

/-- The verdict on a candidate's command, in the terms of R58–R60. -/
theorem State.judge_eq (hh : s.auth[l].state.holder = holder) (m : Command) : s.judge l m =
    (decide ((s.tables.loaders[l].throttle.clamp (govern (s.governor l) m.axes.throttle)
        - (if holder.isSome then s.builders[l].lastOut else ⟨0, 0, 0, 0⟩).throttle).natAbs ≤ s.tables.loaders[l].throttle.tol)
      && decide ((s.tables.loaders[l].steer.clamp m.axes.steer
        - (if holder.isSome then s.builders[l].lastOut else ⟨0, 0, 0, 0⟩).steer).natAbs ≤ s.tables.loaders[l].steer.tol)
      && decide ((s.tables.loaders[l].boom.clamp m.axes.boom
        - (if holder.isSome then s.builders[l].lastOut else ⟨0, 0, 0, 0⟩).boom).natAbs ≤ s.tables.loaders[l].boom.tol)
      && decide ((s.tables.loaders[l].bucket.clamp m.axes.bucket
        - (if holder.isSome then s.builders[l].lastOut else ⟨0, 0, 0, 0⟩).bucket).natAbs ≤ s.tables.loaders[l].bucket.tol)
      && decide (m.gear = if holder.isSome then s.builders[l].lastGear else .neutral) && m.held) := by
  subst hh
  cases hh : s.auth[l].state.holder <;> simp only [State.judge, State.reference, hh] <;> rfl

theorem State.judge_congr (ha : t.auth = s.auth) (hs : t.status = s.status) (ht : t.tables = s.tables)
    (ho : t.builders[l].lastOut = s.builders[l].lastOut) (hg : t.builders[l].lastGear = s.builders[l].lastGear) (m : Command) :
    t.judge l m = s.judge l m := by
  have href : t.reference l = s.reference l := by
    rw [State.reference, State.reference, ha, ho, hg]
  have hgov : t.governor l = s.governor l := by
    rw [State.governor, State.governor, hs, ht]
  rw [State.judge, State.judge, href, hgov, ht]

/-! ## The frame (R55, R56) -/

/-- A candidate's frame with the next epoch, before its window is judged full (R56, R61). -/
def State.judged (s : State) (l : Loader) (c : Chair) (m : Command) : State :=
  ((s.setBuilder l { s.builders[l] with cand := some m, lastCand := some m.sequence }).count (.chair c framesAccepted)).setWindow l
    (pushWindow s.tables.device.matchLength (s.judge l m) s.windows[l])

theorem State.judged_rep (hs : s.SameReporting u) : (u.judged l c m).rep = u.rep.count s (.chair c framesAccepted) 1 := by
  have hb : s.SameReporting (u.setBuilder l { u.builders[l] with cand := some m, lastCand := some m.sequence }) :=
    hs.trans (State.sameReporting_of_records rfl rfl rfl)
  rw [State.judged, State.setWindow_rep, hb.count_eq]
  rfl

/-- An entry into the window leaves the records, the chairs and the list (R61). -/
theorem State.judged_lists (s : State) (l : Loader) (c : Chair) (m : Command) : (s.judged l c m).auth = s.auth
    ∧ (s.judged l c m).chairs = s.chairs ∧ (s.judged l c m).freeList = s.freeList ∧ s.SameReporting (s.judged l c m) :=
  ⟨rfl, rfl, rfl, State.sameReporting_of_records rfl rfl rfl⟩

theorem State.candidateFrame_old (hn : newerThanLast m.sequence s.builders[l].lastCand = false) (holder offerer) :
    s.candidateFrame c l holder offerer m = s.count (.chair c oldSeq) := by
  simp only [State.candidateFrame, hn, Bool.false_eq_true, if_false]

theorem State.candidateFrame_newer (hn : newerThanLast m.sequence s.builders[l].lastCand = true) (holder offerer) :
    s.candidateFrame c l holder offerer m =
      if s.tables.device.matchCount ≤ matchesIn (pushWindow s.tables.device.matchLength (s.judge l m) s.windows[l]) then
        (s.judged l c m).grant l holder c offerer m
      else s.judged l c m := by
  have hj : ((s.setBuilder l { s.builders[l] with cand := some m, lastCand := some m.sequence }).count
      (.chair c framesAccepted)).judge l m = s.judge l m := by
    refine State.judge_congr ?_ ?_ ?_ ?_ ?_ m
    · rw [State.count_auth, State.setBuilder_auth]
    · rw [State.count_status, State.setBuilder_status]
    · rw [State.count_tables, State.setBuilder_tables]
    · rw [State.count_builders, State.setBuilder_builders, putAt_same]
    · rw [State.count_builders, State.setBuilder_builders, putAt_same]
  simp only [State.candidateFrame, hn, if_true, hj, State.judged, State.setWindow_tables, State.count_tables, State.setBuilder_tables,
    State.count_windows, State.setBuilder_windows]

/-- A COMMAND frame of the chair that is the candidate of the loader, and not its holder (R55). -/
theorem State.commandFrameFrom_candidate (hl : indexOfByte 16 h.loader = some l) (hen : s.enabled l = true)
    (hh : s.auth[l].state.holder ≠ some c) (hc : s.auth[l].state.candidate = some c) :
    s.commandFrameFrom c h p = if h.epoch = s.auth[l].epoch + 1 then
      s.candidateFrame c l s.auth[l].state.holder s.auth[l].state.offerer (readCommand p h.sequence)
      else s.count (.loader l staleEpoch) := by
  simp only [State.commandFrameFrom, hl, hen, Bool.not_true, Bool.false_eq_true, if_false, hh, hc, if_true]

/-! ## The grant (R63, R64) -/

theorem State.releaseOpt_windows (s : State) (c) : (s.releaseOpt c).windows = s.windows := by
  cases c with
  | none => rfl
  | some c => exact State.release_windows _ _

theorem State.granted_rep (s : State) (k c m previous) : ((s.grantMoved k c m).releaseOpt previous).rep = s.rep := by
  cases previous with
  | none => rfl
  | some x => exact (State.release_rep _ x).trans rfl

theorem State.granted_windows (s : State) (k c m previous) :
    ((s.grantMoved k c m).releaseOpt previous).windows = putAt s.windows k [] := by
  rw [State.releaseOpt_windows]
  rfl

theorem State.grantReport_lists (s : State) (k previous c offerer) : (s.grantReport k previous c offerer).windows = s.windows
    ∧ (s.grantReport k previous c offerer).chairs = s.chairs ∧ (s.grantReport k previous c offerer).freeList = s.freeList := by
  cases previous <;> simp only [State.grantReport, State.count_windows, State.raise_windows, State.notice_windows, State.count_chairs,
    State.raise_chairs, State.notice_chairs, State.count_freeList, State.raise_freeList, State.notice_freeList, and_self]

/-- The reports of a grant (R63, R64). -/
def State.grantTold (s : State) (l : Loader) (previous : Option Chair) (c : Chair) (offerer : Option Chair) (epoch : Byte)
    (r : Report) : Report :=
  let granted := r.sends s c .grant l epoch 0
  let lost := match previous with
    | none => granted
    | some x => granted.notice s x { name := .lost, loader := some l, chair := some c, epoch := epoch,
                                     byte6 := if offerer.isSome then 0x27 else 0x28 }
  (lost.raise s ⟨.granted, some l, some c, (byteOfIndex previous).setWidth 16⟩).count s (.loader l grants) 1

theorem State.grantReport_rep (hs : s.SameReporting t) (l previous c offerer) :
    (t.grantReport l previous c offerer).rep = s.grantTold l previous c offerer t.auth[l].epoch t.rep := by
  have hlast (r : Report) : (((t.withRep r).raise .granted (some l) (some c) ((byteOfIndex previous).setWidth 16)).count
      (.loader l grants)).rep = (r.raise s ⟨.granted, some l, some c, (byteOfIndex previous).setWidth 16⟩).count s (.loader l grants) 1 := by
    rw [hs.raise_rep, hs.count_rep, State.withRep_rep]
  simp only [State.grantReport, State.grantTold]
  cases previous with
  | none =>
    dsimp only
    rw [hs.notice_eq]
    exact hlast _
  | some x =>
    dsimp only
    rw [hs.notice_eq]
    have hlost (r : Report) (n : Notice) : (t.withRep r).notice x n = t.withRep (r.notice s x n) := hs.notice_rep r x n
    refine (congrArg (fun v : State => ((v.raise .granted (some l) (some c) ((byteOfIndex (some x)).setWidth 16)).count
      (.loader l grants)).rep) (hlost _ _)).trans ((hlast _).trans ?_)
    cases offerer <;> rfl

/-- A grant leaves what reporting reads: the new holder was present. -/
theorem State.granted_same (hp : s.chairs[c].status ≠ .absent) (l m previous) :
    s.SameReporting ((s.grantMoved l c m).releaseOpt previous) := by
  have hmoved : s.SameReporting (s.grantMoved l c m) :=
    State.sameReporting_of_chair s (x := { s.chairs[c] with status := .holding, engaged := some l }) rfl rfl rfl
      ⟨nofun, fun h => absurd h hp⟩
  cases previous with
  | none => exact hmoved
  | some x => exact hmoved.trans (State.release_same _ x)

/-- A previous holder leaves its place in a grant (R63). -/
theorem State.grant_rejoined {x : Chair} (hxc : x ≠ c) (hf : s.freeList = u.freeList) (ht : s.timer = u.timer) (hc : c ∉ s.freeList)
    (hp : s.chairs[x].status ≠ .absent) (hx : x ∉ s.freeList) (hw : (s.grant l (some x) c offerer m).Walked t) : u.Rejoined t x := by
  have hlist : (s.grantMoved l c m).freeList = s.freeList := by
    change s.freeList.filter (· ≠ c) = s.freeList
    exact List.filter_eq_self.mpr fun d hd => decide_eq_true fun he => hc (he ▸ hd)
  have hchair : (s.grantMoved l c m).chairs[x] = s.chairs[x] := putAt_other _ _ hxc.symm
  obtain ⟨-, hchairs, hfree⟩ := ((s.grantMoved l c m).releaseOpt (some x)).grantReport_lists l (some x) c offerer
  rw [State.grant_eq] at hw
  exact State.rejoined_of_release (v := s.grantMoved l c m) ht (hlist.trans hf) (by rw [hchair]; exact hp) (hf ▸ hx) rfl hchairs hfree hw

end

end Sys2Proof.Machine

namespace Sys2Proof

open Machine

/-- Settles O28: the candidate's frame is judged against the last output; the window's K-th match grants the loader. -/
theorem candidateFramesMatchAndGrant : Obligations.CandidateFramesMatchAndGrant := by
  intro s h p c l holder origin offerer timer ha hr hl hen hstate u b m e g y nearby verdict w
  obtain ⟨hcst, hcp, hcl⟩ := hr.matching_placed hstate
  have hholder : s.auth[l].state.holder = holder := by rw [hstate]; rfl
  have hne (x : Chair) (hx : holder = some x) : x ≠ c := by
    rintro rfl
    exact nomatch ((hr.holder_placed (hholder.trans hx)).1).symm.trans hcst
  have hq : s.Quiet := ha.1.1
  have hauth : u.auth = s.auth := s.refreshPresence_auth c
  have hbuild : u.builders = s.builders := s.refreshPresence_builders c
  have htab : u.tables = s.tables := s.refreshPresence_tables c
  have hwin : u.windows = s.windows := s.refreshPresence_windows c
  have hu : s.SameReporting u := s.refreshPresence_same c
  have hrep : u.rep = s.rep := s.refreshPresence_rep c
  have hgov : ((s.governor l : Nat) : Int) = g := by
    simp only [State.governor, g]
    cases s.status[l].zone <;> rfl
  have hverdict : u.judge l m = verdict := by
    rw [State.judge_congr (s := s) hauth (s.refreshPresence_status c) htab (by rw [hbuild]) (by rw [hbuild]), State.judge_eq hholder, govern, hgov]
  have hw : pushWindow u.tables.device.matchLength (u.judge l m) u.windows[l] = w := by
    rw [hverdict, htab, hwin]
    exact pushWindow_eq _ _ _
  have hexec : exec (.command h p) s = .next (u.commandFrameFrom c h p).finish := ha.exec_command
  have hframe : u.commandFrameFrom c h p = if h.epoch = s.auth[l].epoch + 1 then u.candidateFrame c l holder offerer m
      else u.count (.loader l staleEpoch) := by
    rw [State.commandFrameFrom_candidate hl (by rw [State.enabled, htab]; exact hen)
      (by rw [hauth, hholder]; exact fun hx => hne c hx rfl) (by rw [hauth, hstate]; rfl), hauth, hstate]
    rfl
  have counted (id : CounterId) : (u.count id).finish = u.count id := hq.finish_reloaded rfl rfl rfl rfl rfl
  have hlast : u.builders[l].lastCand = b.lastCand := by rw [hbuild]
  split
  · next he => rw [hexec, hframe, if_neg he, counted]
  · next he =>
    rw [if_pos (not_not.mp he)] at hframe
    split
    · next hn => rw [hexec, hframe, State.candidateFrame_old (by rw [hlast]; exact hn), counted]
    · next hn =>
      have hnew : newerThanLast m.sequence u.builders[l].lastCand = true := by
        rw [hlast]
        exact Bool.not_eq_false _ ▸ hn
      rw [State.candidateFrame_newer hnew, hw, htab, matchesIn] at hframe
      have hjudged : u.judged l c m = { (u.count (.chair c framesAccepted)) with
          windows := putAt s.windows l w
          builders := putAt s.builders l { b with cand := some m, lastCand := some h.sequence } } := by
        rw [State.judged, hw, ← hwin, ← hbuild]
        have hb : u.builders[l] = b := by rw [hbuild]
        rw [hb]
        rfl
      split
      · next hk =>
        rw [hexec, hframe, if_neg (Nat.not_le.mpr hk), hjudged]
        exact congrArg _ (hq.finish_reloaded rfl rfl rfl rfl rfl)
      · next hk =>
        rw [if_pos (Nat.not_lt.mp hk)] at hframe
        have hgrant : (u.commandFrameFrom c h p).RecordsAgree :=
          (State.Row.commandFrameFrom c h p).keeps.agree (hr.refreshPresence c)
        rw [hframe] at hexec hgrant
        have hjauth : (u.judged l c m).auth = s.auth := (State.judged_lists u l c m).1.trans hauth
        have hjwin : (u.judged l c m).windows = putAt s.windows l w := by rw [hjudged]
        have hjbuild : (u.judged l c m).builders = putAt s.builders l { b with cand := some m, lastCand := some h.sequence } := by
          rw [hjudged]
        have hjsame : s.SameReporting (u.judged l c m) := hu.trans (State.judged_lists u l c m).2.2.2
        have hjrep : (u.judged l c m).rep = s.rep.count s (.chair c framesAccepted) 1 := by
          rw [State.judged_rep hu, hrep]
        have hjchairs (x : Chair) : (u.judged l c m).chairs[x].status = s.chairs[x].status := by
          rw [(State.judged_lists u l c m).2.1]
          exact s.refreshPresence_chairStatus c x
        have hjfree : (u.judged l c m).freeList = s.freeList :=
          (State.judged_lists u l c m).2.2.1.trans (s.refreshPresence_freeList c)
        have htouch : State.Touches l c u ((u.judged l c m).grant l holder c offerer m) :=
          State.Touches.grant (((State.Touches.refl u).setBuilder _ |>.count _ _).setWindow _) holder c offerer m
        generalize u.judged l c m = v at *
        obtain ⟨hwalked, hkept, honly, -⟩ := ha.touched hgrant htouch
        have hgauth : (v.grant l holder c offerer m).auth = putAt s.auth l ⟨.held c, s.auth[l].epoch + 1⟩ := by
          rw [State.grant_eq, State.grantReport_auth, State.granted_auth, hjauth]
        have hheld : (v.grant l holder c offerer m).auth[l] = ⟨.held c, s.auth[l].epoch + 1⟩ := by rw [hgauth, putAt_same]
        have hplaced : (v.grant l holder c offerer m).chairs[c].status = .holding ∧ c ∉ (v.grant l holder c offerer m).freeList
            ∧ (v.grant l holder c offerer m).chairs[c].engaged = some l := by
          have hholds : (v.grant l holder c offerer m).auth[l].state.holder = some c := by rw [hheld]; rfl
          obtain ⟨hst, -, -, hlist, heng⟩ := hgrant.placed (AuthState.holding_mem hholds)
          exact ⟨hst, hlist, heng⟩
        have hchair := hwalked.chair (x := c) rfl hplaced.2.1
        refine ⟨_, hexec, hwalked.record hheld rfl, ?_, ?_, ?_, ?_, ⟨_, ?_, rfl⟩, fun x hx => ?_, hkept, honly⟩
        · rw [hwalked.windows, State.grant_eq, (State.grantReport_lists _ _ _ _ _).1, State.granted_windows, hjwin, putAt_putAt]
        · rw [State.finish_builders, State.grant_eq, State.grantReport_builders, State.granted_builders, hjbuild, putAt_same, putAt_putAt]
          rfl
        · rw [hchair]
          exact hplaced.1
        · rw [hchair]
          exact hplaced.2.2
        · have hgsame := hjsame.trans (State.granted_same (s := v) (c := c) (by rw [hjchairs]; exact hcp) l m holder)
          rw [State.grant_eq, State.grantReport_rep hgsame, State.granted_auth, putAt_same, hjauth, State.granted_rep, hjrep]
          rfl
        · subst hx
          obtain ⟨-, hxp, hxl⟩ := hr.holder_placed hholder
          exact State.grant_rejoined (hne x rfl) hjfree hjsame.timer (by rw [hjfree]; exact hcl) (by rw [hjchairs]; exact hxp)
            (by rw [hjfree]; exact hxl) hwalked

end Sys2Proof
end

section
/-! The Chair Arbiter's walk (R52–R54): what it offers, in order, and what it leaves. -/

namespace Sys2Proof.Machine

open Sys2Proof

section
variable {s u v : State} {l : Loader} {e : CallEntry} {q : List CallEntry}

theorem State.makeOffer_offerCounter (s : State) (l : Loader) (c : Chair) (o : Option Chair) :
    (s.makeOffer l c o).offerCounter = s.offerCounter + 1 := rfl

theorem State.makeOffer_tables (s : State) (l : Loader) (c : Chair) (o : Option Chair) :
    (s.makeOffer l c o).tables = s.tables := congrArg Rest.tables (s.makeOffer_rest l c o)

/-! ## The entries that are served -/

/-- The entries of a queue that the walk over it serves, in their order (R53). -/
def State.walkServed : State → List CallEntry → List CallEntry
  | _, [] => []
  | u, e :: q =>
    match u.freeList.find? (u.eligible e.loader) with
    | some _ => e :: State.walkServed (u.walkOne e) q
    | none => State.walkServed u q

theorem State.walkServed_offered {c : Chair} (h : u.freeList.find? (u.eligible e.loader) = some c) (q : List CallEntry) :
    u.walkServed (e :: q) = e :: (u.makeOffer e.loader c none).walkServed q := by
  simp only [State.walkServed, State.walkOne, h]

theorem State.walkServed_passed (h : u.freeList.find? (u.eligible e.loader) = none) (q : List CallEntry) :
    u.walkServed (e :: q) = u.walkServed q := by
  simp only [State.walkServed, h]

theorem State.walkOne_offered {c : Chair} (h : u.freeList.find? (u.eligible e.loader) = some c) :
    u.walkOne e = u.makeOffer e.loader c none := by
  simp only [State.walkOne, h]

theorem State.walkOne_passed (h : u.freeList.find? (u.eligible e.loader) = none) : u.walkOne e = u := by
  simp only [State.walkOne, h]

theorem State.walkServed_sublist : ∀ (q : List CallEntry) (u : State), (u.walkServed q).Sublist q
  | [], _ => .slnil
  | e :: q, u => by
    cases h : u.freeList.find? (u.eligible e.loader) with
    | some c =>
      rw [State.walkServed_offered h]
      exact (State.walkServed_sublist q _).cons_cons e
    | none =>
      rw [State.walkServed_passed h]
      exact (State.walkServed_sublist q u).cons e

/-- What the walk over a queue of callers makes of the lists, the numbers and the records. -/
structure State.WalkedOver (u w : State) (q : List CallEntry) : Prop where
  tables : w.tables = u.tables
  others : ∀ k : Loader, (∀ e ∈ u.walkServed q, e.loader ≠ k) → w.auth[k] = u.auth[k]
  callQueue : w.callQueue = u.callQueue.filter fun e => decide (e.loader ∉ (u.walkServed q).map (·.loader))
  freeList : w.freeList.Sublist u.freeList
  counter : w.offerCounter = u.offerCounter + wordOf (u.walkServed q).length
  passed : ∀ e ∈ q, e ∉ u.walkServed q → ∀ y ∈ w.freeList, u.eligible e.loader y = false
  offered : ∀ e ∈ u.walkServed q, ∃ y ∈ u.freeList, u.eligible e.loader y = true ∧ w.auth[e.loader] =
    ⟨.offered none y (.call e.stamp) (w.auth[e.loader].state.number.getD 0) none u.tables.device.offerTimeout, u.auth[e.loader].epoch⟩
  numbers : (u.walkServed q).map (fun e => w.auth[e.loader].state.number) =
    (List.range (u.walkServed q).length).map fun n => some (u.offerCounter + wordOf (n + 1))

theorem wordOf_succ (a : Word16) (n : Nat) : a + 1 + wordOf n = a + wordOf (n + 1) := by
  simp only [wordOf]
  bv_omega

/-- An entry that is passed over changes nothing (R53). -/
theorem State.WalkedOver.pass {w : State} (h : u.WalkedOver w q) (hn : u.freeList.find? (u.eligible e.loader) = none) :
    u.WalkedOver w (e :: q) := by
  obtain ⟨ht, ho, hc, hf, hk, hp, hs, hnum⟩ := h
  rw [← State.walkServed_passed hn] at ho hc hk hs hnum
  refine ⟨ht, ho, hc, hf, hk, fun f hfq hnot y hy => ?_, hs, hnum⟩
  obtain rfl | hfq := List.mem_cons.mp hfq
  · exact Bool.eq_false_iff.mpr (List.find?_eq_none.mp hn y (hf.subset hy))
  · rw [State.walkServed_passed hn] at hnot
    exact hp f hfq hnot y hy

/-- An entry that is served takes the first such chair of the list (R53, R54). -/
theorem State.WalkedOver.serve {w : State} {c : Chair} (h : (u.makeOffer e.loader c none).WalkedOver w q)
    (hn : u.freeList.find? (u.eligible e.loader) = some c) (hcall : u.auth[e.loader].state = .calling e.stamp)
    (hq : ∀ f ∈ q, f.loader ≠ e.loader) : u.WalkedOver w (e :: q) := by
  have hserved := State.walkServed_offered hn q
  have hother : ∀ k : Loader, e.loader ≠ k → (u.makeOffer e.loader c none).auth[k] = u.auth[k] := fun k hk => by
    rw [State.makeOffer_auth, putAt_other _ _ hk]
  have hself : (u.makeOffer e.loader c none).auth[e.loader] =
      ⟨.offered none c (.call e.stamp) (u.offerCounter + 1) none u.tables.device.offerTimeout, u.auth[e.loader].epoch⟩ := by
    rw [State.makeOffer_auth, putAt_same, hcall]
    rfl
  have htab := u.makeOffer_tables e.loader c none
  have helig : ∀ l y, (u.makeOffer e.loader c none).eligible l y = u.eligible l y := fun l y => by
    rw [State.eligible, State.permits, htab]
    rfl
  have hsub := State.walkServed_sublist q (u.makeOffer e.loader c none)
  generalize hS : (u.makeOffer e.loader c none).walkServed q = S at *
  obtain ⟨ht, ho, hc, hf, hk, hp, hs, hnum⟩ := h
  rw [hS] at ho hc hk hp hs hnum
  have hhead : w.auth[e.loader] =
      ⟨.offered none c (.call e.stamp) (u.offerCounter + 1) none u.tables.device.offerTimeout, u.auth[e.loader].epoch⟩ := by
    rw [ho e.loader fun f hfS => hq f (hsub.subset hfS), hself]
  refine ⟨ht.trans htab, fun k hk' => ?_, ?_, hf.trans List.filter_sublist, ?_, fun f hfq hnot y hy => ?_, fun f hfS => ?_, ?_⟩
  all_goals rw [hserved] at *
  · rw [ho k fun f hfS => hk' f (List.mem_cons_of_mem _ hfS), hother k (hk' e List.mem_cons_self)]
  · rw [hc, State.makeOffer_callQueue, List.filter_filter]
    refine List.filter_congr fun f _ => ?_
    simp only [List.map_cons, List.mem_cons, not_or, Bool.decide_and, ne_eq]
    exact Bool.and_comm _ _
  · rw [hk, State.makeOffer_offerCounter, List.length_cons, wordOf_succ]
  · obtain ⟨hne, hnS⟩ : f ≠ e ∧ f ∉ S := by simpa only [List.mem_cons, not_or] using hnot
    rw [← helig]
    exact hp f ((List.mem_cons.mp hfq).resolve_left hne) hnS y hy
  · obtain rfl | hfS := List.mem_cons.mp hfS
    · refine ⟨c, List.mem_of_find?_eq_some hn, List.find?_some hn, ?_⟩
      rw [hhead]
      rfl
    · obtain ⟨y, hy, hel, ha⟩ := hs f hfS
      refine ⟨y, (List.mem_filter.mp hy).1, (helig _ _).symm.trans hel, ?_⟩
      rw [ha, htab, hother _ (Ne.symm (hq f (hsub.subset hfS)))]
      rfl
  · rw [List.map_cons, List.length_cons, List.range_succ_eq_map, List.map_cons, List.map_map, hhead, hnum, State.makeOffer_offerCounter]
    refine List.cons_eq_cons.mpr ⟨rfl, List.map_congr_left fun n _ => ?_⟩
    rw [wordOf_succ]
    rfl

/-- The walk over a queue of callers, each once (R53, R54). -/
theorem State.walkedOver : ∀ (q : List CallEntry) (u : State), (∀ e ∈ q, u.auth[e.loader].state = .calling e.stamp) →
    (q.map (·.loader)).Nodup → u.WalkedOver (q.foldl State.walkOne u) q
  | [], u, _, _ =>
    { tables := rfl
      others := fun _ _ => rfl
      callQueue := by simp [State.walkServed]
      freeList := .refl _
      counter := by simp [State.walkServed, wordOf]
      passed := nofun
      offered := nofun
      numbers := rfl }
  | e :: q, u, hc, hn => by
    obtain ⟨hne, hn⟩ := List.nodup_cons.mp hn
    have hq : ∀ f ∈ q, f.loader ≠ e.loader := fun f hf he => hne (List.mem_map.mpr ⟨f, hf, he⟩)
    rw [List.foldl_cons]
    cases hfind : u.freeList.find? (u.eligible e.loader) with
    | none =>
      rw [State.walkOne_passed hfind]
      exact (State.walkedOver q u (fun f hf => hc f (List.mem_cons_of_mem _ hf)) hn).pass hfind
    | some c =>
      rw [State.walkOne_offered hfind]
      refine State.WalkedOver.serve (State.walkedOver q _ (fun f hf => ?_) hn) hfind (hc e List.mem_cons_self) hq
      rw [State.makeOffer_auth, putAt_other _ _ (Ne.symm (hq f hf))]
      exact hc f (List.mem_cons_of_mem _ hf)

/-! ## The walk at the end of an event (R52) -/

theorem filter_mem_of_sublist {α : Type} [DecidableEq α] {xs q : List α} (h : xs.Sublist q) (hn : q.Nodup) :
    q.filter (· ∈ xs) = xs := by
  induction h with
  | slnil => rfl
  | cons a h ih =>
    obtain ⟨ha, hn⟩ := List.nodup_cons.mp hn
    rw [List.filter_cons_of_neg (by simpa using fun hx => ha (h.subset hx)), ih hn]
  | cons_cons a h ih =>
    obtain ⟨ha, hn⟩ := List.nodup_cons.mp hn
    rw [List.filter_cons_of_pos (by simp)]
    refine congrArg (a :: ·) (Eq.trans (List.filter_congr fun f hf => ?_) (ih hn))
    have hne : f ≠ a := fun he => ha (he ▸ hf)
    simp only [List.mem_cons, hne, false_or]

/-- The entries served are those that have left the queue. -/
theorem State.served_eq (h : s.CallQueueRight) : s.callQueue.filter (fun e => e ∉ s.walk.callQueue) = s.walkServed s.callQueue := by
  obtain ⟨hcalls, -, hnodup⟩ := h
  have hover := State.walkedOver s.callQueue s (fun e he => (hcalls e he).1) hnodup
  have hsub := State.walkServed_sublist s.callQueue s
  refine Eq.trans (List.filter_congr fun e he => ?_) (filter_mem_of_sublist hsub hnodup.of_map)
  have hwalk : s.walk.callQueue = _ := hover.callQueue
  rw [hwalk, decide_eq_decide]
  simp only [List.mem_filter, he, true_and, decide_eq_true_eq, not_not, List.mem_map]
  refine ⟨fun ⟨f, hf, heq⟩ => ?_, fun hs => ⟨e, hs, rfl⟩⟩
  rwa [← List.inj_on_of_nodup_map hnodup (hsub.subset hf) he heq]

/-- The walk leaves the mark that called for it. -/
theorem State.walk_called (s : State) (b : Bool) : { s with walkCalled := b }.walk = { s.walk with walkCalled := b } := by
  have hone (u : State) (e : CallEntry) : { u with walkCalled := b }.walkOne e = { u.walkOne e with walkCalled := b } := by
    cases hfind : u.freeList.find? (u.eligible e.loader) with
    | none => rw [State.walkOne_passed hfind, State.walkOne_passed (u := { u with walkCalled := b }) hfind]
    | some c => 
      rw [State.walkOne_offered hfind, State.walkOne_offered (u := { u with walkCalled := b }) hfind]
      rfl
  have fold : ∀ (q : List CallEntry) (u : State),
      q.foldl State.walkOne { u with walkCalled := b } = { q.foldl State.walkOne u with walkCalled := b } := by
    intro q
    induction q with
    | nil => exact fun _ => rfl
    | cons e q ih =>
      intro u
      rw [List.foldl_cons, hone, ih, List.foldl_cons]
  exact fold s.callQueue s

theorem State.finish_called (s : State) (called : Bool) : { s with walkCalled := called }.finish =
    if s.cycleStarting then { s with walkCalled := called, beacons := tabulate s.beaconOn }
    else { (if called then s.walk else s) with
      walkCalled := false, beacons := tabulate (if called then s.walk else s).beaconOn } := by
  have hstart : { s with walkCalled := called }.cycleStarting = s.cycleStarting := rfl
  rw [State.finish, hstart]
  cases s.cycleStarting with
  | true => rfl
  | false =>
    cases called with
    | false => rfl
    | true =>
      have hwalk : { s with walkCalled := true }.walkIfCalled = { s.walk with walkCalled := false } :=
        congrArg (fun u : State => { u with walkCalled := false }) (s.walk_called true)
      simp only [Bool.false_eq_true, if_false, if_true]
      rw [hwalk]
      rfl

end

end Sys2Proof.Machine
end

section
/-! OFFER (R14, R15), and the walk as R53 states it. -/

namespace Sys2Proof.Machine

open Sys2Proof

section
variable {s : State} {h : Header} {tag : Word16} {target : Byte} {c x : Chair} {l : Loader}

/-- R15's check of the loader's state. -/
def State.offerFirst (s : State) (c : Chair) (l : Loader) : Option Reason :=
  match s.auth[l].state with
  | .held y => if y = c ∨ s.tables.chairs[c].supervisor then none else some .notHolder
  | .free => if s.tables.chairs[c].supervisor then none else some .notPermitted
  | .calling _ => if s.tables.chairs[c].supervisor then none else some .notPermitted
  | .offered _ _ _ _ _ _ => some .busy
  | .matching _ _ _ _ _ => some .busy
  | _ => some .wrongState

/-- The checks of R15 as R15 lists them. -/
theorem State.offerChecks_eq (s : State) (c : Chair) (l : Loader) (x : Chair) : s.offerChecks c l x =
    if (s.offerFirst c l).isSome then s.offerFirst c l
    else if s.chairs[x].status = .absent ∨ s.tables.chairs[x].enabled = false then some .targetAbsent
    else if s.chairs[x].status ≠ .idle then some .targetBusy
    else if s.permits x l then none else some .notPermitted := by
  have hstate : s.offerChecks c l x = match s.offerFirst c l with
      | some why => some why
      | none => if s.chairs[x].status = .absent || !s.tables.chairs[x].enabled then some .targetAbsent
        else if s.chairs[x].status ≠ .idle then some .targetBusy
        else if !s.permits x l then some Reason.notPermitted else none := by
    cases ha : s.auth[l].state with
    | held y =>
      have hor : (y = c || s.tables.chairs[c].supervisor) = decide (y = c ∨ s.tables.chairs[c].supervisor = true) := by
        rw [Bool.decide_or, Bool.decide_eq_true]
      simp only [State.offerChecks, State.offerFirst, ha, hor, decide_eq_true_eq] <;> rfl
    | _ => simp only [State.offerChecks, State.offerFirst, ha] <;> rfl
  rw [hstate]
  cases s.offerFirst c l with
  | some why => rfl
  | none =>
    simp only [Bool.or_eq_true, decide_eq_true_eq, Bool.not_eq_true', Option.isSome_none, Bool.false_eq_true, if_false]
    cases s.permits x l <;> rfl

theorem State.offerChecks_none (h : s.offerChecks c l x = none) : s.offerFirst c l = none ∧ s.chairs[x].status ≠ .absent := by
  rw [State.offerChecks_eq] at h
  cases hf : s.offerFirst c l with
  | some why => rw [hf] at h; exact nomatch h
  | none =>
    refine ⟨rfl, fun hx => ?_⟩
    rw [hf, if_neg (by exact Bool.false_ne_true), if_pos (.inl hx)] at h
    exact nomatch h

/-- An offer that passes leaves who drives as it was (R135). -/
theorem State.offerFirst_driven (hf : s.offerFirst c l = none) {o n f m} :
    (AuthState.offered s.auth[l].state.holder x o n f m).driven = s.auth[l].state.driven := by
  unfold State.offerFirst at hf
  cases ha : s.auth[l].state with
  | held y => rfl
  | free => rfl
  | calling w => rfl
  | _ => rw [ha] at hf; exact nomatch hf

theorem State.Admits.exec_offer {extra} (ha : s.Admits (requestFrame h 0x11 tag (target :: extra)) c) :
    exec (.offer h tag target extra) s =
      .next ((s.refreshPresence c).offerRequest c h.loader tag (target :: extra)).finish :=
  congrArg _ (ha.chairCommand _)

theorem State.makeOffer_rep (hx : s.chairs[x].status ≠ .absent) (o : Option Chair) :
    (s.makeOffer l x o).rep = s.offerReport l x (s.offerCounter + 1) s.rep :=
  congrArg State.rep (s.withRep_makeOffer s.rep l x o hx)

theorem State.Asks.offer_checks (ha : s.Asks (requestFrame h 0x11 tag [target]) c l) (ht : indexOfByte 8 target = some x) :
    (s.refreshPresence c).offerRequest c h.loader tag [target] = match s.offerChecks c l x with
      | some why => (s.refreshPresence c).refuse c tag (some l) why
      | none => ((s.refreshPresence c).done c tag l s.auth[l].epoch (s.offerCounter + 1) s.tables.device.offerTimeout).makeOffer l x
          (some c) := by
  have hcounter : (s.refreshPresence c).offerCounter = s.offerCounter := by
    rw [State.refreshPresence, if_neg ha.2.1]
    rfl
  have hchecks : (s.refreshPresence c).offerChecks c l x = s.offerChecks c l x := by
    have hfirst : (s.refreshPresence c).offerFirst c l = s.offerFirst c l := by
      rw [State.offerFirst, State.offerFirst, State.refreshPresence_auth, State.refreshPresence_tables]
    rw [State.offerChecks_eq, State.offerChecks_eq, hfirst, State.permits, State.permits, State.refreshPresence_tables,
      State.refreshPresence_chairStatus]
  simp only [State.offerRequest, ht, Option.isSome_some]
  refine (ha.authorityRequest tag _).trans ?_
  simp only [hchecks, hcounter, State.refreshPresence_auth, State.refreshPresence_tables] <;> rfl

/-- What an offer writes besides its reports (R14). -/
theorem State.makeOffer_withRep (u : State) (l : Loader) (x : Chair) (o : Option Chair) (r : Report) :
    (u.makeOffer l x o).withRep r = { u with
      offerCounter := u.offerCounter + 1
      auth := putAt u.auth l ⟨.offered u.auth[l].state.holder x u.auth[l].state.offerOrigin (u.offerCounter + 1) o
        u.tables.device.offerTimeout, u.auth[l].epoch⟩
      chairs := putAt u.chairs x { u.chairs[x] with status := .offered, engaged := some l }
      freeList := u.freeList.filter (· ≠ x)
      callQueue := u.callQueue.filter (·.loader ≠ l)
      rep := r } := by
  have hraise (v : State) (e k d w) : (v.raise e k d w).withRep r = v.withRep r := rfl
  have hnotice (v : State) (d n) : (v.notice d n).withRep r = v.withRep r := rfl
  unfold State.makeOffer
  dsimp only
  rw [hraise, hnotice]
  rfl

/-- An offer of a loader by a chair that may make it (R14, R15). -/
theorem State.Asks.offer_made (ha : s.Asks (requestFrame h 0x11 tag [target]) c l) (hx : s.chairs[x].status ≠ .absent) :
    ((s.refreshPresence c).done c tag l s.auth[l].epoch (s.offerCounter + 1) s.tables.device.offerTimeout).makeOffer l x (some c) =
      { s with
        offerCounter := s.offerCounter + 1
        auth := putAt s.auth l ⟨.offered s.auth[l].state.holder x s.auth[l].state.offerOrigin (s.offerCounter + 1) (some c)
          s.tables.device.offerTimeout, s.auth[l].epoch⟩
        chairs := putAt (s.refreshPresence c).chairs x { (s.refreshPresence c).chairs[x] with status := .offered, engaged := some l }
        freeList := s.freeList.filter (· ≠ x)
        callQueue := s.callQueue.filter (·.loader ≠ l)
        rep := s.offerReport l x (s.offerCounter + 1)
          (s.doneReport c tag (some l) s.auth[l].epoch (s.offerCounter + 1) s.tables.device.offerTimeout) } := by
  have hv : s.refreshPresence c =
      { s with chairs := putAt s.chairs c { s.chairs[c] with presence := s.tables.device.presenceTimeout } } := if_neg ha.2.1
  have hux : (s.refreshPresence c).chairs[x].status ≠ .absent := by rw [State.refreshPresence_chairStatus]; exact hx
  have hreport := ((State.Alike.refreshPresence s c).sameFor l).offerReport x (s.offerCounter + 1)
    (s.doneReport c tag (some l) s.auth[l].epoch (s.offerCounter + 1) s.tables.device.offerTimeout)
  have hcounter : (s.refreshPresence c).offerCounter = s.offerCounter := by rw [hv]
  rw [State.reloaded_done, State.withRep_makeOffer _ _ _ _ _ hux, hcounter, hreport]
  generalize s.offerReport l x (s.offerCounter + 1)
    (s.doneReport c tag (some l) s.auth[l].epoch (s.offerCounter + 1) s.tables.device.offerTimeout) = r
  rw [State.makeOffer_withRep, hv]

end

/-- The walk as R53 states it: each entry in turn, to the first listed chair that may take it. -/
theorem State.walk_foldl (s : State) : s.walk = s.callQueue.foldl (fun v e =>
    match v.freeList.find? (fun y => s.tables.chairs[y].takesCalls && s.tables.chairs[y].permitted.getLsbD e.loader.val) with
    | some y => v.makeOffer e.loader y none
    | none => v) s := by
  have fold : ∀ (q : List CallEntry) (v : State), v.tables = s.tables → q.foldl State.walkOne v = q.foldl (fun v e =>
      match v.freeList.find? (fun y => s.tables.chairs[y].takesCalls && s.tables.chairs[y].permitted.getLsbD e.loader.val) with
      | some y => v.makeOffer e.loader y none
      | none => v) v := by
    intro q
    induction q with
    | nil => exact fun _ _ => rfl
    | cons e q ih =>
      intro v hv
      have hone : v.walkOne e = match v.freeList.find?
          (fun y => s.tables.chairs[y].takesCalls && s.tables.chairs[y].permitted.getLsbD e.loader.val) with
          | some y => v.makeOffer e.loader y none
          | none => v := by
        rw [← hv]
        rfl
      rw [List.foldl_cons, List.foldl_cons, ← hone]
      exact ih _ ((congrArg Rest.tables (v.walkOne_rest e)).trans hv)
  exact fold s.callQueue s rfl

end Sys2Proof.Machine

namespace Sys2Proof

open Machine

/-- Settles O35: an offer by a chair ends with its record; the walk serves the queue in order, by induction on the queue. -/
theorem offerPutsTheLoaderOnOffer : Obligations.OfferPutsTheLoaderOnOffer := by
  intro s h tag target c x l
  refine ⟨fun called => ?_, fun hx o => State.makeOffer_rep hx o, fun ha ht => ?_⟩
  · intro v w takes served
    refine ⟨s.finish_called called, s.walk_foldl, fun hq hf hcalled => ?_⟩
    subst hcalled
    have hover := State.walkedOver s.callQueue s (fun e he => (hq.1 e he).1) hq.2.2
    have hserved : served = s.walkServed s.callQueue := State.served_eq hq
    have hqueue : w.callQueue = s.callQueue.filter fun e => decide (e.loader ∉ (s.walkServed s.callQueue).map (·.loader)) :=
      hover.callQueue
    rw [hserved]
    refine ⟨fun e he y hy => ?_, hqueue ▸ List.filter_sublist, hover.freeList, hover.offered, hover.numbers, hover.counter⟩
    rw [hqueue, List.mem_filter, decide_eq_true_eq] at he
    exact hover.passed e he.1 (fun hs => he.2 (List.mem_map_of_mem hs)) y hy
  · intro u a supervisor number first reason
    have hreason : reason = s.offerChecks c l x := (s.offerChecks_eq c l x).symm
    have hquiet : s.Quiet := ha.1.1.1
    have hexec : exec (.offer h tag target []) s = .next (u.offerRequest c h.loader tag [target]).finish := ha.1.exec_offer
    rw [ha.offer_checks ht] at hexec
    cases hk : s.offerChecks c l x with
    | some why =>
      rw [hk] at hexec hreason
      rw [hreason]
      exact hexec.trans (congrArg _ (hquiet.finish_refused c tag (some l) why))
    | none =>
      rw [hk] at hexec hreason
      rw [hreason]
      obtain ⟨hfirst, hpresent⟩ := State.offerChecks_none hk
      have hmade := ha.offer_made hpresent
      have hb : s.BeaconsShow := hquiet.2.2
      dsimp only at hexec
      generalize State.makeOffer _ l x (some c) = w at hexec hmade
      have hfinish : w.finish = w := by
        rw [hmade]
        exact hb.finish_driven rfl rfl (driven_putAt (State.offerFirst_driven hfirst)) rfl rfl
      rw [hfinish, hmade] at hexec
      exact ⟨_, hexec, rfl, rfl, rfl, rfl, rfl, rfl, rfl⟩

end Sys2Proof
end

section
/-! The Interlock Unit (R127 to R133): a line moved by its settled level, and the loaders that this stands. -/

namespace Sys2Proof.Machine

open Sys2Proof

/-! ## A line's move -/

/-- The line latches when it reaches its safe level (R129). -/
def LineEntry.latches (e : LineEntry) (x : LineState) : Bool := e.latching && !x.startMark

/-- The line's state moved by its settled level (R127). -/
def LineEntry.moves (e : LineEntry) (x : LineState) : LineState :=
  { x with
    status := if e.asserts x.settled then .active
      else if x.status = .active then (if e.latches x then .latched else .clear) else x.status
    startMark := if !e.asserts x.settled && x.status = .active && !e.latches x then false else x.startMark }

/-- The move makes the line ACTIVE. -/
def LineEntry.activates (e : LineEntry) (x : LineState) : Bool := e.asserts x.settled && x.status ≠ .active

/-- The loaders that an activation of the line stands. -/
def State.lineLoaders (s : State) (i : Line) : List Loader := allLoaders.filter (s.lineReaches i)

/-- The line's own event. -/
def State.lineTold (s : State) (i : Line) (name : EventName) : Report := s.rep.raise s ⟨name, none, none, lineDetail i⟩

/-- The loaders that the line's move stands. -/
def State.moveStands (s : State) (i : Line) : List Loader :=
  if s.tables.lines[i].activates s.lines[i] then s.lineLoaders i else []

/-- What the line's move reports (R127 to R129). -/
def State.moveReport (s : State) (i : Line) : Report :=
  if s.tables.lines[i].asserts s.lines[i].settled then
    if s.lines[i].status = .active then s.rep
    else s.standsReport (s.lineLoaders i) .interlock (s.lineTold i .interlockActive)
  else if s.lines[i].status = .active then
    s.lineTold i (if s.tables.lines[i].latches s.lines[i] then .interlockLatched else .interlockCleared)
  else s.rep

section
variable {s t u : State} {i : Line} {l k : Loader} {cause : Cause} {e : LineEntry} {x : LineState}

theorem State.lineLoaders_nodup (s : State) (i : Line) : (s.lineLoaders i).Nodup := allLoaders_nodup.filter _

theorem State.mem_lineLoaders : l ∈ s.lineLoaders i ↔ s.lineReaches i l = true := by
  simp only [State.lineLoaders, List.mem_filter, mem_allLoaders, true_and]

theorem State.SameFor.setLine (s : State) (i : Line) (x : LineState) (k : Loader) : State.SameFor k s (s.setLine i x) :=
  ⟨⟨rfl, rfl, fun _ => Iff.rfl⟩, rfl, rfl⟩

theorem State.setLine_raise (s : State) (i : Line) (x : LineState) (name : EventName) :
    (s.setLine i x).raise name none none (lineDetail i) = (s.setLine i x).withRep (s.lineTold i name) :=
  (State.SameFor.setLine s i x 0).1.raise_eq _ _ _ _

/-- R128: the line is ACTIVE, and the cause reaches its loaders after the line's event. -/
theorem State.activate_eq (s : State) (i : Line) : s.activate i =
    ((s.setLine i { s.lines[i] with status := .active }).stands (s.lineLoaders i) .interlock).withRep
      (s.standsReport (s.lineLoaders i) .interlock (s.lineTold i .interlockActive)) := by
  have hreach : State.activate s i = State.stands ((s.setLine i { s.lines[i] with status := .active }).raise .interlockActive
      none none (lineDetail i)) (s.lineLoaders i) .interlock := rfl
  rw [hreach, State.setLine_raise, State.withRep_stands _ _ (s.lineLoaders_nodup i)]
  exact congrArg _ (State.standsReport_congr (fun k _ => State.SameFor.setLine s i _ k) _ _)

/-- R127: the line moves by its settled level, and where it becomes ACTIVE stands its loaders. -/
theorem State.moveLine_eq (s : State) (i : Line) : s.moveLine i =
    ((s.setLine i (s.tables.lines[i].moves s.lines[i])).stands (s.moveStands i) .interlock).withRep (s.moveReport i) := by
  by_cases ha : s.tables.lines[i].asserts s.lines[i].settled = true
  · by_cases hs : s.lines[i].status = .active
    · have hm : s.tables.lines[i].moves s.lines[i] = s.lines[i] := by
        simp [-Fin.getElem_fin, LineEntry.moves, ha, ← hs]
      have hx : s.moveStands i = [] := if_neg (by simp [-Fin.getElem_fin, LineEntry.activates, hs])
      rw [State.moveLine, if_pos ha, if_pos hs, hm, hx, State.moveReport, if_pos ha, if_pos hs, State.setLine, putAt_self]
      rfl
    · have hm : s.tables.lines[i].moves s.lines[i] = { s.lines[i] with status := .active } := by
        simp [-Fin.getElem_fin, LineEntry.moves, ha]
      have hx : s.moveStands i = s.lineLoaders i := if_pos (by simp [-Fin.getElem_fin, LineEntry.activates, ha, hs])
      rw [State.moveLine, if_pos ha, if_neg hs, hm, hx, State.moveReport, if_pos ha, if_neg hs, State.activate_eq]
  · by_cases hs : s.lines[i].status = .active
    · have hx : s.moveStands i = [] := if_neg (by simp [-Fin.getElem_fin, LineEntry.activates, hs])
      rw [State.moveLine, if_neg ha, if_pos hs, hx, State.moveReport, if_neg ha, if_pos hs]
      cases hl : s.tables.lines[i].latches s.lines[i] with
      | true =>
        have hm : s.tables.lines[i].moves s.lines[i] = { s.lines[i] with status := .latched } := by
          simp [-Fin.getElem_fin, LineEntry.moves, ha, hs, hl]
        have hb : s.becomeSafe i = (s.setLine i { s.lines[i] with status := .latched }).raise .interlockLatched none none
            (lineDetail i) := if_pos ((Bool.and_comm _ _).trans hl)
        rw [hm, hb, State.setLine_raise]
        rfl
      | false =>
        have hm : s.tables.lines[i].moves s.lines[i] = { s.lines[i] with status := .clear, startMark := false } := by
          simp [-Fin.getElem_fin, LineEntry.moves, ha, hs, hl]
        have hb : s.becomeSafe i = (s.setLine i { s.lines[i] with status := .clear, startMark := false }).raise
            .interlockCleared none none (lineDetail i) :=
          if_neg (Bool.eq_false_iff.mp ((Bool.and_comm _ _).trans hl))
        rw [hm, hb, State.setLine_raise]
        rfl
    · have hm : s.tables.lines[i].moves s.lines[i] = s.lines[i] := by
        simp [-Fin.getElem_fin, LineEntry.moves, ha, hs]
      have hx : s.moveStands i = [] := if_neg (by simp [-Fin.getElem_fin, LineEntry.activates, ha])
      rw [State.moveLine, if_neg ha, if_neg hs, hm, hx, State.moveReport, if_neg ha, if_neg hs, State.setLine, putAt_self]
      rfl

end
end Sys2Proof.Machine
end

section
/-! LINE_SETTLE and the applied LINES entry (R126, R133), over the line's move. -/

namespace Sys2Proof.Machine

open Sys2Proof

section
variable {s t u : State} {i : Line} {l k : Loader} {cause : Cause} {e : LineEntry} {x : LineState} {xs : List Loader}

/-! ## The records of several stood loaders -/

/-- A cause that reaches a loader once more changes nothing. -/
theorem State.stoodRecord_again (h : u.auth[l] = s.stoodRecord l cause) : u.stoodRecord l cause = u.auth[l] := by
  obtain ⟨retained, recorded, ha, hg⟩ : ∃ retained recorded, u.auth[l].state = .standing retained recorded
      ∧ (if recorded.givesWay cause then cause else recorded) = recorded := by
    rw [h]
    unfold State.stoodRecord
    split
    · refine ⟨_, _, rfl, ?_⟩
      split
      · exact ite_self _
      · rfl
    · exact ⟨_, _, rfl, ite_self _⟩
  have hrec : u.auth[l] = ⟨.standing retained recorded, u.auth[l].epoch⟩ := by rw [← ha]
  rw [State.stoodRecord, ha]
  dsimp only
  rw [hg, ← hrec]

theorem State.stands_get (s : State) (hn : xs.Nodup) (cause : Cause) (k : Loader) :
    (s.stands xs cause).auth[k] = if k ∈ xs then s.stoodRecord k cause else s.auth[k] := by
  split
  · next hk => exact s.stands_record hn cause hk
  · next hk => exact (State.SameFor.stands s hk cause).auth

/-! ## The line's move -/

theorem State.moveStands_nodup (s : State) (i : Line) : (s.moveStands i).Nodup := by
  unfold State.moveStands
  split
  · exact s.lineLoaders_nodup i
  · exact List.nodup_nil

theorem State.mem_moveStands :
    l ∈ s.moveStands i ↔ s.tables.lines[i].activates s.lines[i] = true ∧ s.lineReaches i l = true := by
  unfold State.moveStands
  split
  · next h => simp only [h, State.mem_lineLoaders, true_and]
  · next h => simp only [h, List.not_mem_nil, false_and, Bool.false_eq_true]

theorem State.moveLine_rest (s : State) (i : Line) :
    (s.moveLine i).rest = { s.rest with lines := putAt s.lines i (s.tables.lines[i].moves s.lines[i]) } := by
  rw [State.moveLine_eq]
  exact State.stands_rest _ _ _

theorem State.moveLine_record (s : State) (i : Line) (l : Loader) :
    (s.moveLine i).auth[l] = if l ∈ s.moveStands i then s.stoodRecord l .interlock else s.auth[l] := by
  rw [State.moveLine_eq]
  exact State.stands_get _ (s.moveStands_nodup i) _ l

/-! ## An applied entry -/

/-- The loaders that a changed zone set brings under the line, where it counts. -/
def State.widenStands (s : State) (old : LineEntry) (i : Line) : List Loader :=
  if s.lines[i].status = .clear then [] else allLoaders.filter (s.broughtUnder old i)

theorem State.widenLine_eq (s : State) (old : LineEntry) (i : Line) :
    s.widenLine old i = s.stands (s.widenStands old i) .interlock := by
  unfold State.widenLine State.widenStands
  split <;> rfl

theorem State.mem_widenStands {old : LineEntry} :
    l ∈ s.widenStands old i ↔ s.lines[i].status ≠ .clear ∧ s.broughtUnder old i l = true := by
  unfold State.widenStands
  split
  · next h => simp only [h, List.not_mem_nil, ne_eq, not_true_eq_false, false_and]
  · next h => simp only [h, List.mem_filter, mem_allLoaders, true_and, ne_eq, not_false_eq_true]

theorem State.widenStands_nodup (s : State) (old : LineEntry) (i : Line) : (s.widenStands old i).Nodup := by
  unfold State.widenStands
  split
  · exact List.nodup_nil
  · exact allLoaders_nodup.filter _

theorem State.widenLine_rest (s : State) (old : LineEntry) (i : Line) : (s.widenLine old i).rest = s.rest := by
  rw [State.widenLine_eq]
  exact s.stands_rest _ _

theorem State.stoodRecord_congr (h : t.auth[l] = s.auth[l]) : t.stoodRecord l cause = s.stoodRecord l cause := by
  unfold State.stoodRecord
  rw [h]

/-- A line moved and then widened stands each loader that either reaches, once. -/
theorem State.changedLine_record (s : State) (old : LineEntry) (i : Line) (l : Loader) :
    ((s.moveLine i).widenLine old i).auth[l] =
      if l ∈ s.moveStands i ∨ l ∈ (s.moveLine i).widenStands old i then s.stoodRecord l .interlock else s.auth[l] := by
  have hm := s.moveLine_record i l
  rw [State.widenLine_eq, State.stands_get _ (State.widenStands_nodup _ _ _)]
  by_cases hmove : l ∈ s.moveStands i
  · rw [if_pos hmove] at hm
    rw [if_pos (Or.inl hmove), State.stoodRecord_again hm, ite_self, hm]
  · rw [if_neg hmove] at hm
    rw [State.stoodRecord_congr hm, hm]
    exact if_congr (or_iff_right hmove).symm rfl rfl

/-- The line's own part where an applied entry enables it. -/
def LineEntry.begun (e : LineEntry) (x : LineState) (millis : Word16) : LineState :=
  ⟨x.raw, millis, e.assertedLevel, .active, true⟩

theorem State.beginLine_rest (s : State) (i : Line) : (s.beginLine i).rest =
    { s.rest with lines := putAt s.lines i (s.tables.lines[i].begun s.lines[i] s.timer.millis) } := by
  unfold State.beginLine
  rw [State.activate_eq]
  refine (State.stands_rest _ _ _).trans ?_
  simp only [State.setLine, State.rest, putAt_same, putAt_putAt]
  rfl

theorem State.beginLine_record (s : State) (i : Line) (l : Loader) :
    (s.beginLine i).auth[l] = if s.lineReaches i l = true then s.stoodRecord l .interlock else s.auth[l] := by
  unfold State.beginLine
  rw [State.activate_eq]
  exact (State.stands_get _ (State.lineLoaders_nodup _ _) _ l).trans (if_congr State.mem_lineLoaders rfl rfl)

/-- The line's own part after an entry has been applied to it (R133). -/
def LineEntry.applied (old e : LineEntry) (x : LineState) (millis : Word16) : LineState :=
  if !e.enabled then (if old.enabled then { x with status := .clear, startMark := false } else x)
  else if !old.enabled then e.begun x millis
  else e.moves x

theorem State.applyLine_rest (s : State) (i : Line) (e : LineEntry) : (s.applyLine i e).rest =
    { (s.withLine i e).rest with lines := putAt s.lines i (s.tables.lines[i].applied e s.lines[i] s.timer.millis) } := by
  unfold LineEntry.applied
  cases he : e.enabled with
  | false =>
    rw [State.applyLine_disabled he]
    cases ho : s.tables.lines[i].enabled with
    | true => rfl
    | false =>
      simp only [Bool.not_false, Bool.false_eq_true, if_true, if_false, putAt_self]
      rfl
  | true =>
    cases ho : s.tables.lines[i].enabled with
    | false =>
      rw [State.applyLine_enable he ho, State.beginLine_rest, State.withLine_entry]
      rfl
    | true =>
      rw [State.applyLine_changed he ho, State.widenLine_rest, State.moveLine_rest, State.withLine_entry]
      rfl

theorem State.applyLine_lines (s : State) (i : Line) (e : LineEntry) :
    (s.applyLine i e).lines = putAt s.lines i (s.tables.lines[i].applied e s.lines[i] s.timer.millis) :=
  congrArg Rest.lines (s.applyLine_rest i e)

/-- The applied entry stands the loader: the line becomes ACTIVE, or its zone set comes to cover it. -/
def State.entryStands (s : State) (i : Line) (e : LineEntry) (l : Loader) : Prop :=
  e.enabled = true ∧ ((s.tables.lines[i].enabled = false ∨ (e.asserts s.lines[i].settled = true ∧ s.lines[i].status ≠ .active))
      ∧ (s.withLine i e).lineReaches i l = true
    ∨ s.tables.lines[i].enabled = true ∧ (s.applyLine i e).lines[i].status ≠ .clear
      ∧ (s.withLine i e).broughtUnder s.tables.lines[i] i l = true)

theorem State.changedLine_stands (he : e.enabled = true) (ho : s.tables.lines[i].enabled = true) :
    (l ∈ (s.withLine i e).moveStands i ∨ l ∈ ((s.withLine i e).moveLine i).widenStands s.tables.lines[i] i) ↔
      s.entryStands i e l := by
  have hlines : (s.applyLine i e).lines = ((s.withLine i e).moveLine i).lines := by
    rw [State.applyLine_changed he ho]
    exact congrArg Rest.lines (State.widenLine_rest _ _ _)
  have hrest := (s.withLine i e).moveLine_rest i
  have hbrought : ((s.withLine i e).moveLine i).broughtUnder s.tables.lines[i] i l =
      (s.withLine i e).broughtUnder s.tables.lines[i] i l := by
    have htables : ((s.withLine i e).moveLine i).tables = (s.withLine i e).tables := congrArg Rest.tables hrest
    have hstatus : ((s.withLine i e).moveLine i).status = (s.withLine i e).status := congrArg Rest.status hrest
    rw [State.broughtUnder, State.enabled, htables, hstatus]
    rfl
  rw [State.mem_moveStands, State.mem_widenStands, State.withLine_entry, hbrought, ← hlines]
  simp only [LineEntry.activates, Bool.and_eq_true, decide_eq_true_eq]
  constructor
  · rintro (⟨ha, hl⟩ | ⟨hst, hl⟩)
    · exact ⟨he, .inl ⟨.inr ha, hl⟩⟩
    · exact ⟨he, .inr ⟨ho, hst, hl⟩⟩
  · rintro ⟨-, ⟨hold | ha, hl⟩ | ⟨-, hst, hl⟩⟩
    · exact absurd (ho.symm.trans hold) (by decide)
    · exact .inl ⟨ha, hl⟩
    · exact .inr ⟨hst, hl⟩

/-- An applied entry stands the loaders that the line comes to cover, and leaves every other record. -/
theorem State.applyLine_record (s : State) (i : Line) (e : LineEntry) (l : Loader) :
    (s.entryStands i e l ∧ (s.applyLine i e).auth[l] = s.stoodRecord l .interlock)
      ∨ (¬ s.entryStands i e l ∧ (s.applyLine i e).auth[l] = s.auth[l]) := by
  cases he : e.enabled with
  | false =>
    refine .inr ⟨fun hst => absurd (he.symm.trans hst.1) (by decide), ?_⟩
    rw [State.applyLine_disabled he]
    split <;> rfl
  | true =>
    cases ho : s.tables.lines[i].enabled with
    | false =>
      have hrec := (s.withLine i e).beginLine_record i l
      rw [State.applyLine_enable he ho]
      by_cases hl : (s.withLine i e).lineReaches i l = true
      · exact .inl ⟨⟨he, .inl ⟨.inl ho, hl⟩⟩, hrec.trans (if_pos hl)⟩
      · refine .inr ⟨?_, hrec.trans (if_neg hl)⟩
        rintro ⟨-, ⟨-, hr⟩ | ⟨hold, -⟩⟩
        · exact hl hr
        · exact absurd (ho.symm.trans hold) (by decide)
    | true =>
      have hrec := (s.withLine i e).changedLine_record s.tables.lines[i] i l
      have hiff := State.changedLine_stands (l := l) he ho
      rw [State.applyLine_changed he ho]
      split at hrec
      · next hm => exact .inl ⟨hiff.mp hm, hrec⟩
      · next hm => exact .inr ⟨fun hst => hm (hiff.mpr hst), hrec⟩

/-! ## The settling -/

/-- The line about to move: its settled level has taken the raw level. -/
def State.settling (s : State) (i : Line) : State :=
  (s.undue (.lineSettle i)).setLine i { s.lines[i] with settled := s.lines[i].raw }

theorem State.settleLine_eq (h : s.tables.lines[i].enabled = true) :
    (s.undue (.lineSettle i)).settleLine i = (s.settling i).moveLine i := if_pos h

theorem State.settling_line (s : State) (i : Line) :
    (s.settling i).lines[i] = { s.lines[i] with settled := s.lines[i].raw } := putAt_same _ _ _

theorem State.settling_same (s : State) (i : Line) (k : Loader) : State.SameFor k s (s.settling i) :=
  ⟨⟨rfl, rfl, fun _ => Iff.rfl⟩, rfl, rfl⟩

theorem State.settling_told (s : State) (i : Line) (name : EventName) : (s.settling i).lineTold i name = s.lineTold i name :=
  Report.raise_same (s.settling_same i 0).1 _ _

theorem State.settling_report (s : State) (i : Line) : (s.settling i).moveReport i =
    if s.tables.lines[i].asserts s.lines[i].raw then
      if s.lines[i].status = .active then s.rep
      else s.standsReport (s.lineLoaders i) .interlock (s.lineTold i .interlockActive)
    else if s.lines[i].status = .active then
      s.lineTold i (if s.tables.lines[i].latches s.lines[i] then .interlockLatched else .interlockCleared)
    else s.rep := by
  have hreport (r : Report) : (s.settling i).standsReport ((s.settling i).lineLoaders i) .interlock r =
      s.standsReport (s.lineLoaders i) .interlock r := State.standsReport_congr (fun k _ => s.settling_same i k) _ _
  unfold State.moveReport
  rw [State.settling_line, State.settling_told, State.settling_told, hreport]
  rfl

theorem State.mem_settlingStands : l ∈ (s.settling i).moveStands i ↔
    s.tables.lines[i].asserts s.lines[i].raw = true ∧ s.lines[i].status ≠ .active ∧ s.lineReaches i l = true := by
  rw [State.mem_moveStands, State.settling_line]
  simp only [LineEntry.activates, Bool.and_eq_true, decide_eq_true_eq, and_assoc]
  exact Iff.rfl

end

end Sys2Proof.Machine
namespace Sys2Proof

open Machine

/-- Settles O21: the line moves by its settled level, and the loaders it comes to cover are stood, one after the other. -/
theorem lineSettles : Obligations.LineSettles := by
  intro s i e x old assertedBy reached moved
  have hreach : ∀ l, (s.withLine i e).lineReaches i l = reached e l := by
    intro l
    simp only [State.lineReaches, State.withLine_entry] <;> rfl
  refine ⟨fun hs he hd => ?disabled, fun hs hr he hd => ?settles, ?applied⟩
  case disabled =>
    refine (congrArg Host.Outcome.next (State.runDue_follows hd rfl hs.2.1 fun s => s.settleLine i)).trans ?_
    rw [State.settleLine_disabled (s := s.undue (.lineSettle i)) he]
    exact congrArg Host.Outcome.next (hs.1.finish_shown rfl rfl rfl rfl rfl)
  case settles =>
    have hexec : exec (.lineSettle i) s = .next ((s.undue (.lineSettle i)).settleLine i).finish :=
      congrArg Host.Outcome.next (State.runDue_follows hd rfl hs.2.1 fun s => s.settleLine i)
    have hagree : ((s.undue (.lineSettle i)).settleLine i).RecordsAgree := (hr.undue _).settleLine i
    have hrest := (s.settling i).moveLine_rest i
    have hrep : ((s.settling i).moveLine i).rep = (s.settling i).moveReport i := by rw [State.moveLine_eq]; rfl
    have hrec := (s.settling i).moveLine_record i
    rw [State.settling_line] at hrest
    rw [hexec]
    rw [State.settleLine_eq he] at hagree ⊢
    generalize (s.settling i).moveLine i = u at *
    have hlines : u.lines = putAt s.lines i (moved old x.raw) := (congrArg Rest.lines hrest).trans (putAt_putAt _ _ _ _)
    have hcs : u.cycleStarting = false :=
      (State.cycleStarting_congr (congrArg Rest.due hrest)).trans (State.undue_cycleStarting hs.2.2 (.lineSettle i))
    have hw := hagree.walked hcs
    have hfinal : u.finish.lines = u.lines := congrArg Rest.lines u.finish_rest
    refine ⟨_, rfl, ⟨u, hrep.trans (s.settling_report i), rfl⟩, hfinal.trans hlines, fun l => ?_, ?_⟩
    · have hl := hrec l
      split
      · next hc =>
        rw [if_pos (State.mem_settlingStands.mpr hc)] at hl
        exact hw.stood (hl.trans (s.settling_same i l).stoodRecord)
      · next hc =>
        rw [if_neg fun hm => hc (State.mem_settlingStands.mp hm)] at hl
        exact hw.kept hl (congrArg Rest.tables hrest)
    · refine State.onlyAuthority_of_rest (u.finish_rest.trans (hrest.trans ?_))
        ((State.finish_walkCalled_off hcs).trans hs.1.1.symm)
      rw [hfinal, hlines]
      exact congrArg (fun v => { s.rest with due := s.due.erase (.lineSettle i), lines := v }) (putAt_putAt _ _ _ _)
  case applied =>
    intro t brought
    refine ⟨?lines, ?record, ?rest⟩
    case rest =>
      refine State.onlyAuthority_of_rest ?_ rfl
      exact (s.applyLine_rest i e).trans
        (congrArg (fun v => { (s.withLine i e).rest with lines := v }) (s.applyLine_lines i e).symm)
    case lines => exact s.applyLine_lines i e
    case record =>
      intro l
      have hbrought : (s.withLine i e).broughtUnder old i l = brought l := by
        simp only [State.broughtUnder, State.withLine_entry] <;> rfl
      have hstands : s.entryStands i e l ↔ e.enabled = true ∧ ((old.enabled = false
          ∨ (assertedBy e x.settled = true ∧ x.status ≠ .active)) ∧ reached e l = true
          ∨ old.enabled = true ∧ (s.applyLine i e).lines[i].status ≠ .clear ∧ brought l = true) := by
        rw [State.entryStands, hreach, hbrought]
        exact Iff.rfl
      obtain ⟨hst, hl⟩ | ⟨hn, hl⟩ := s.applyLine_record i e l
      · rw [if_pos (hstands.mp hst), State.stood_eq, hl]
        exact decide_eq_true rfl
      · rw [if_neg fun hc => hn (hstands.mpr hc), hl]

end Sys2Proof
end

section
/-! Applied LOADERS and DEVICE entries (R12, R48, R62, R95, R97, R113). -/

namespace Sys2Proof.Machine

open Sys2Proof

section
variable {s v : State} {l k : Loader} {cause : Cause} {retained : Option Chair} {e : LoaderEntry}

/-! ## What a LOADERS entry leaves to the reports -/

theorem State.reportStand_rep (s : State) (l : Loader) (h cause) :
    (s.reportStand l h cause).rep = s.standTold l cause h s.auth[l].epoch s.rep :=
  congrArg State.rep (s.withRep_reportStand s.rep l h cause)

theorem State.standEntry_rep (h : s.auth[l].state.isStanding = false) (cause : Cause) :
    (s.standEntry l cause).rep = s.standReport l cause s.rep := by
  rw [State.standReport_entry h]
  exact congrArg State.rep (s.withRep_standEntry s.rep l cause)

/-! ## A disable (R12) -/

/-- The epoch of a loader that a disable reaches. -/
def State.disabledEpoch (s : State) (l : Loader) : Byte :=
  s.auth[l].epoch + (if s.auth[l].state.holder.isSome then 1 else 0)

/-- The record and the report of a loader that stands for DISABLED, its retained holder dropped. -/
theorem State.disabled_told {w : State} {epoch : Byte} (hs : s.SameReporting w) (hrep : w.rep = s.rep)
    (he : w.auth[l].epoch = epoch) (h : Option Chair) :
    ((w.setAuth l (.standing none .disabled)).reportStand l h .disabled).auth[l] = ⟨.standing none .disabled, epoch⟩
      ∧ ((w.setAuth l (.standing none .disabled)).reportStand l h .disabled).rep = s.standTold l .disabled h epoch s.rep := by
  have hset : s.SameReporting (w.setAuth l (.standing none .disabled)) :=
    hs.trans (State.sameReporting_of_records (s := w) (t := w.setAuth l (.standing none .disabled)) rfl rfl rfl)
  have hrec : (w.setAuth l (.standing none .disabled)).auth[l] = ⟨.standing none .disabled, epoch⟩ := by
    rw [State.setAuth_auth, putAt_same, ← he]
  refine ⟨by rw [State.reportStand_auth, hrec], ?_⟩
  rw [State.reportStand_rep, hset.standTold, hrec]
  exact congrArg _ hrep

theorem State.dropRetained_same (s : State) (l : Loader) : s.SameReporting (s.dropRetained l) := by
  unfold State.dropRetained
  split
  · next x cause _ =>
    exact (State.sameReporting_of_records (s := s) (t := (s.advanceEpoch l).setAuth l (.standing none cause)) rfl rfl rfl).trans
      (State.release_same _ x)
  · exact ⟨rfl, rfl, fun _ => Iff.rfl⟩

theorem State.disableStanding_told (ha : s.auth[l].state = .standing retained cause) :
    (s.disableStanding l retained).auth[l] = ⟨.standing none .disabled, s.disabledEpoch l⟩
      ∧ (s.disableStanding l retained).rep = s.standTold l .disabled retained (s.disabledEpoch l) s.rep := by
  cases retained with
  | none =>
    have hepoch : s.auth[l].epoch = s.disabledEpoch l := by
      simp [-Fin.getElem_fin, State.disabledEpoch, ha, AuthState.holder]
    exact State.disabled_told (w := s) ⟨rfl, rfl, fun _ => Iff.rfl⟩ rfl hepoch none
  | some x =>
    have hepoch : (s.dropRetained l).auth[l].epoch = s.disabledEpoch l := by
      rw [State.dropRetained_letGo ha, State.letGo_record, State.disabledEpoch, ha]
      rfl
    have hdrop : s.dropRetained l = (s.dropRetained l).withRep s.rep := s.withRep_dropRetained s.rep l
    exact State.disabled_told (s.dropRetained_same l) ((congrArg State.rep hdrop).trans rfl) hepoch (some x)

/-- What a disable reports (R12): a loader that stood is told to stand for DISABLED, any other stands for it. -/
def State.disableReport (s : State) (l : Loader) : Report :=
  match s.auth[l].state with
  | .standing retained _ => s.standTold l .disabled retained (s.disabledEpoch l) s.rep
  | _ => s.standReport l .disabled s.rep

theorem State.standEpoch_disabled (s : State) (l : Loader) : s.standEpoch l .disabled = s.disabledEpoch l := by
  unfold State.standEpoch State.disabledEpoch
  cases s.auth[l].state.holder.isSome <;> simp [-Fin.getElem_fin, Cause.keeps]

theorem State.disableLoader_told (s : State) (l : Loader) :
    (s.disableLoader l).auth[l] = ⟨.standing none .disabled, s.disabledEpoch l⟩ ∧ (s.disableLoader l).rep = s.disableReport l
      ∧ (s.disableLoader l).status[l] = .initial ∧ (s.disableLoader l).deadlines[l] = none := by
  cases ha : s.auth[l].state with
  | standing retained cause =>
    have hd : s.disableLoader l = { (s.disableStanding l retained).setStatus l .initial with
        deadlines := putAt (s.disableStanding l retained).deadlines l none } := by simp only [State.disableLoader, ha]
    have hr : s.disableReport l = s.standTold l .disabled retained (s.disabledEpoch l) s.rep := by
      simp only [State.disableReport, ha]
    rw [hd, hr]
    exact ⟨(State.disableStanding_told ha).1, (State.disableStanding_told ha).2, putAt_same _ _ _, putAt_same _ _ _⟩
  | _ =>
    have hns : s.auth[l].state.isStanding = false := by rw [ha]; rfl
    have hd : s.disableLoader l = { (s.standEntry l .disabled).setStatus l .initial with
        deadlines := putAt (s.standEntry l .disabled).deadlines l none } := by simp only [State.disableLoader, ha]
    have hr : s.disableReport l = s.standReport l .disabled s.rep := by simp only [State.disableReport, ha]
    rw [hd, hr]
    refine ⟨?_, State.standEntry_rep hns .disabled, putAt_same _ _ _, putAt_same _ _ _⟩
    have hrec : (s.standEntry l .disabled).auth[l] = ⟨.standing none .disabled, s.disabledEpoch l⟩ := by
      rw [State.standEntry_record, putAt_same, State.standEpoch_disabled]
      rfl
    exact hrec

/-! ## The entry -/

theorem State.resort_other (h : ∀ stamp, s.auth[l].state ≠ .calling stamp) : s.resort l = s := by
  unfold State.resort
  split
  · next stamp hc => exact absurd hc (h stamp)
  · rfl

theorem State.withLoader_disableReport (s : State) (l : Loader) (e) : (s.withLoader l e).disableReport l = s.disableReport l := rfl

/-- An entry that disables the loader. -/
theorem State.applyLoader_disables (he : s.enabled l = true) (hd : e.enabled = false) :
    s.applyLoader l e = ((s.withLoader l e).disableLoader l).callWalk := by
  have hrec := ((s.withLoader l e).disableLoader_told l).1
  have hresort : ((s.withLoader l e).disableLoader l).resort l = (s.withLoader l e).disableLoader l :=
    State.resort_other fun stamp hc => by rw [hrec] at hc; exact nomatch hc
  have hen : s.tables.loaders[l].enabled = true := he
  rw [State.applyLoader_eq, hen, State.switchLoader_disable hd, hresort, ite_self]

/-- An entry that enables the loader (R12). -/
theorem State.applyLoader_enables (hd : s.enabled l = false) (he : e.enabled = true)
    (ha : s.auth[l].state = .standing none .disabled) : s.applyLoader l e = { s with
      tables := { s.tables with loaders := putAt s.tables.loaders l e }, walkCalled := true
      auth := putAt s.auth l ⟨.standing none .start, s.auth[l].epoch⟩ } := by
  have henable : (s.withLoader l e).enableLoader l = (s.withLoader l e).setAuth l (.standing none .start) := by
    have ha' : (s.withLoader l e).auth[l].state = .standing none .disabled := ha
    simp only [State.enableLoader, ha']
  have hresort : ((s.withLoader l e).setAuth l (.standing none .start)).resort l =
      (s.withLoader l e).setAuth l (.standing none .start) :=
    State.resort_other fun stamp hc => by
      rw [State.setAuth_auth, putAt_same] at hc
      exact nomatch hc
  have hen : s.tables.loaders[l].enabled = false := hd
  rw [State.applyLoader_eq, hen, State.switchLoader_enable he, henable, hresort, ite_self]
  rfl

/-- An entry that leaves the enabled flag re-sorts a queued loader for a new class (R48). -/
theorem State.applyLoader_kept (he : e.enabled = s.enabled l) : s.applyLoader l e =
    (if e.priority = s.tables.loaders[l].priority then s.withLoader l e else (s.withLoader l e).resort l).callWalk := by
  have hen : s.tables.loaders[l].enabled = e.enabled := he.symm
  rw [State.applyLoader_eq, hen, State.switchLoader_same]

theorem State.applyLoader_queue (he : e.enabled = s.enabled l) : s.applyLoader l e = { s with
    tables := { s.tables with loaders := putAt s.tables.loaders l e }, walkCalled := true
    callQueue := match s.auth[l].state with
      | .calling stamp =>
        if e.priority = s.tables.loaders[l].priority then s.callQueue
        else insertCall s.timer.number ⟨l, if s.status[l].accepted = .callUrgent then 0 else e.priority, stamp⟩
          (s.callQueue.filter (·.loader ≠ l))
      | _ => s.callQueue } := by
  rw [State.applyLoader_kept he]
  cases ha : s.auth[l].state with
  | calling stamp =>
    have hresort : (s.withLoader l e).resort l = (s.withLoader l e).enqueue l stamp := by
      have ha' : (s.withLoader l e).auth[l].state = .calling stamp := ha
      simp only [State.resort, ha']
    have hcls : (s.withLoader l e).callClass l = if s.status[l].accepted = .callUrgent then 0 else e.priority := by
      rw [State.callClass, State.withLoader_entry]
      rfl
    by_cases hp : e.priority = s.tables.loaders[l].priority
    · simp only [hp, if_true]
      rfl
    · rw [if_neg hp, hresort, State.enqueue, hcls]
      simp only [hp, if_false]
      rfl
  | _ =>
    have hresort : (s.withLoader l e).resort l = s.withLoader l e := State.resort_other fun stamp hc => by
      have hc' : s.auth[l].state = .calling stamp := hc
      rw [ha] at hc'
      exact nomatch hc'
    rw [hresort, ite_self]
    rfl

end

end Sys2Proof.Machine

namespace Sys2Proof

open Machine

/-- Settles O9: a disable stands the loader for DISABLED, an enable for START, and a new class moves a queued loader. -/
theorem disableStandsTheLoader : Obligations.DisableStandsTheLoader := by
  intro s l e d t tables
  refine ⟨fun he hd => ?disable, fun hd he ha => State.applyLoader_enables hd he ha, fun he => ?kept, fun k => ⟨?_, ?_, ?_⟩, rfl⟩
  case disable =>
    have ht : t = ((s.withLoader l e).disableLoader l).callWalk := State.applyLoader_disables he hd
    obtain ⟨hrec, hrep, hst, hdl⟩ := (s.withLoader l e).disableLoader_told l
    have hsw := (s.withLoader l e).disableLoader_switched l
    have hauth : t.auth[l] = ⟨.standing none .disabled, s.disabledEpoch l⟩ := by rw [ht]; exact hrec
    rw [ht] at hauth ⊢
    refine ⟨hauth, hst, hdl, hsw.tables, rfl, ?_, fun k hk => ⟨hsw.auth k hk, hsw.status k hk, hsw.deadlines k hk⟩⟩
    rw [hauth]
    exact hrep.trans (s.withLoader_disableReport l e)
  case kept =>
    exact State.applyLoader_queue he
  · exact mapAll_get _ _ k
  · exact mapAll_get _ _ k
  · exact mapAll_get _ _ k

end Sys2Proof
end

section
/-! STATUS_DEADLINE (R30, R97, R98, R115 to R117). -/

namespace Sys2Proof.Machine

open Sys2Proof

/-- The loader's record of the Status Unit after its deadline (R115). -/
def LoaderStatus.fallen (st : LoaderStatus) : LoaderStatus :=
  { st with
    heard := false
    linkWindow := pushWindow statusWindow st.heard st.linkWindow
    upRun := if st.heard then min 32 (st.upRun + 1) else 0 }

/-- What the Status Unit and the Authority Table have due after a deadline (R10, R18, R26, R66, R116, R117). -/
def State.fallsDue (s : State) (l : Loader) : List Due :=
  (if s.status[l].linkUp && s.tables.device.linkDown ≤ missedCount s.status[l].fallen.linkWindow then [Due.linkDown l] else [])
    ++ (if !s.status[l].linkUp && s.tables.device.linkUp ≤ s.status[l].fallen.upRun then [Due.linkUp l] else [])
    ++ s.auth[l].state.stepTimer.dueAt l

/-- A miss counted, where the mark was not set. -/
def State.missReport (s : State) (l : Loader) : Report :=
  if s.status[l].heard then s.rep else s.rep.count s (.loader l statusMissed) 1

section
variable {s v : State} {l k : Loader} {a : AuthState}

theorem State.enterOutcome_eq (s : State) (l : Loader) :
    s.enterOutcome l = { s with status := putAt s.status l s.status[l].fallen, rep := s.missReport l } := by
  have henter : s.enterOutcome l = if s.status[l].heard then s.setStatus l s.status[l].fallen
      else (s.setStatus l s.status[l].fallen).count (.loader l statusMissed) := rfl
  rw [henter, State.missReport]
  cases s.status[l].heard with
  | true => rfl
  | false =>
    exact State.SameReporting.count_eq (s := s) (t := s.setStatus l s.status[l].fallen) ⟨rfl, rfl, fun _ => Iff.rfl⟩ _ _

/-- A status deadline enters its outcome, steps the loader's timer and makes due what follows. -/
theorem State.deadlineFalls_eq (s : State) (l : Loader) : s.deadlineFalls l = { s with
    status := putAt s.status l s.status[l].fallen
    auth := putAt s.auth l { s.auth[l] with state := s.auth[l].state.stepTimer }
    rep := s.missReport l
    due := s.due ++ s.fallsDue l } := by
  unfold State.deadlineFalls
  rw [State.enterOutcome_eq]
  simp only [State.linkFails, State.linkReturns, State.setAuth, putAt_same, State.fallsDue, List.append_assoc]
  rfl

/-! ## What is due -/

theorem AuthState.stepTimer_timer (a : AuthState) : a.stepTimer.timer = a.timer.map (· - 1) := by
  cases a <;> rfl

theorem AuthState.stepTimer_driven (a : AuthState) : a.stepTimer.driven = a.driven := by
  cases a <;> rfl

theorem AuthState.stepTimer_cause (a : AuthState) : a.stepTimer.cause = a.cause := by
  cases a <;> rfl

theorem AuthState.stepTimer_offeredChair (a : AuthState) : a.stepTimer.offeredChair = a.offeredChair := by
  cases a <;> rfl

theorem AuthState.stepTimer_candidate (a : AuthState) : a.stepTimer.candidate = a.candidate := by
  cases a <;> rfl

/-- A timer that has run out, or the test of R10. -/
theorem AuthState.mem_dueAt {x : Due} : x ∈ a.dueAt l ↔
    (x = .offerExpiry l ∧ a.offeredChair.isSome = true ∧ a.timer = some 0)
      ∨ (x = .matchTimeout l ∧ a.candidate.isSome = true ∧ a.timer = some 0)
      ∨ (x = .releaseTimeout l ∧ a = .releasing 0)
      ∨ (x = .loaderReady l ∧ (a.cause = some .start ∨ a.cause = some .reset)) := by
  cases a with
  | standing retained cause => cases cause <;> simp [AuthState.dueAt, AuthState.offeredChair, AuthState.candidate, AuthState.cause]
  | offered h c o n f timer => cases timer <;> simp [AuthState.dueAt, AuthState.offeredChair, AuthState.candidate, AuthState.cause, AuthState.timer]
  | matching h c o f timer => cases timer <;> simp [AuthState.dueAt, AuthState.offeredChair, AuthState.candidate, AuthState.cause, AuthState.timer]
  | releasing timer => cases timer <;> simp [AuthState.dueAt, AuthState.offeredChair, AuthState.candidate, AuthState.cause, AuthState.timer]
  | _ => simp [AuthState.dueAt, AuthState.offeredChair, AuthState.candidate, AuthState.cause]

theorem State.mem_fallsDue {x : Due} : x ∈ s.fallsDue l ↔
    (x = .linkDown l ∧ s.status[l].linkUp = true ∧ s.tables.device.linkDown ≤ s.status[l].fallen.linkWindow.count false)
      ∨ (x = .linkUp l ∧ s.status[l].linkUp = false ∧ s.tables.device.linkUp ≤ s.status[l].fallen.upRun)
      ∨ x ∈ s.auth[l].state.stepTimer.dueAt l := by
  have hone (b : Bool) (y : Due) : x ∈ (if b then [y] else []) ↔ x = y ∧ b = true := by
    cases b <;> simp
  rw [State.fallsDue, List.mem_append, List.mem_append, hone, hone, or_assoc]
  simp only [Bool.and_eq_true, Bool.not_eq_true', decide_eq_true_eq]
  exact Iff.rfl

/-! ## The event -/

/-- The deadline moves no beacon: no zone changes, and who drives stays. -/
theorem State.BeaconsShow.finish_falls (h : s.BeaconsShow) (l : Loader) : (s.deadlineFalls l).finish = s.deadlineFalls l := by
  rw [State.deadlineFalls_eq]
  refine h.finish_zones rfl rfl (fun k => ?_) (zone_putAt rfl) rfl
  exact driven_putAt (AuthState.stepTimer_driven _) k

theorem Timer.positionAt_val (t : Timer) {instant : Nat} (h : ¬ instant < t.origin) :
    (t.positionAt instant).val = min 15 ((instant - t.origin) / t.period) := by
  unfold Timer.positionAt
  dsimp only
  rw [if_neg h]
  split
  · next hk => exact (Nat.min_eq_right (Nat.le_of_lt_succ hk)).symm
  · next hk => exact (Nat.min_eq_left (by omega)).symm

/-- The instant of a pending deadline (R97): its own, or that of the slot which brings it forward, where that is sooner. -/
def State.deadlineInstant (s : State) (l : Loader) (d : Deadline) : Option SlotTime → Nat
  | some k =>
    let next := s.timer.origin + k.val * s.timer.period
    if k.val % 16 = s.tables.loaders[l].slot.val ∧ s.timer.now ≤ next
        ∧ (d.slot < next ∨ d.slot = next ∧ d.port ≠ s.tables.loaders[l].port) then min d.due next
    else d.due
  | none => d.due

theorem State.fallInstant_eq {ahead : Option SlotTime} {d : Deadline} (hd : s.deadlines[l] = some d) :
    s.fallInstant ⟨l, ahead⟩ = some (s.deadlineInstant l d ahead) := by
  simp only [State.fallInstant, hd, Option.map_some]
  cases ahead with
  | none => rfl
  | some k =>
    refine congrArg some (if_congr ?_ rfl rfl)
    have hslot : SlotTime.slot k = s.tables.loaders[l].slot ↔ k.val % 16 = s.tables.loaders[l].slot.val := Fin.ext_iff
    simp only [State.bringsForward, State.atSlot, Bool.and_eq_true, Bool.or_eq_true, decide_eq_true_eq, hslot, and_assoc]
    exact Iff.rfl

/-- The state that a pending deadline finds: the deadline gone, the clock at its instant. -/
def State.deadlineAt (s : State) (l : Loader) (instant : Nat) : State :=
  { s with deadlines := putAt s.deadlines l none }.seek instant

theorem State.ReadyAt.exec_deadline {ahead : Option SlotTime} {instant : Nat} (h : s.ReadyAt instant) (he : s.enabled l = true)
    (hf : s.fallInstant ⟨l, ahead⟩ = some instant) (hd : .statusDeadline l ∉ s.due) :
    exec (.statusDeadline ⟨l, ahead⟩) s = .next ((s.deadlineAt l instant).deadlineFalls l) := by
  have hexec : exec (.statusDeadline ⟨l, ahead⟩) s =
      .next (s.runAt (·.fallInstant ⟨l, ahead⟩) (·.pendingDeadline ⟨l, ahead⟩)) := congrArg Host.Outcome.next (if_neg hd)
  have hfalls : s.pendingDeadline ⟨l, ahead⟩ = (s.deadlineAt l instant).deadlineFalls l := by
    simp only [State.pendingDeadline, hf]
    exact if_pos he
  have hshow : (s.deadlineAt l instant).BeaconsShow := h.2.1
  rw [hexec, h.runAt hf, hfalls, hshow.finish_falls]

end

end Sys2Proof.Machine

namespace Sys2Proof

open Machine

/-- Settles O13: the outcome is entered, the timer stepped, and what follows from the deadline is due. -/
theorem statusDeadlineEntersTheOutcome : Obligations.StatusDeadlineEntersTheOutcome := by
  intro s l ahead d he
  refine ⟨fun hb hw hd => ?waiting, ?pending⟩
  case waiting =>
    have hexec : exec (.statusDeadline ⟨l, ahead⟩) s = .next (s.runDue (.statusDeadline l) fun s => s.deadline l) :=
      congrArg Host.Outcome.next (if_pos hd)
    have hfalls : (s.undue (.statusDeadline l)).deadline l = (s.undue (.statusDeadline l)).deadlineFalls l := if_pos he
    have hshow : (s.undue (.statusDeadline l)).BeaconsShow := hb
    rw [hexec, State.runDue_whole hd hw, hfalls, hshow.finish_falls]
    rfl
  case pending =>
    intro e instant hdl hr hd st w run
    have hf : s.fallInstant ⟨l, ahead⟩ = some instant := by
      rw [State.fallInstant_eq hdl]
      cases ahead <;> rfl
    have hexec := hr.exec_deadline he hf hd
    have hst : s.status[l].fallen = { st with heard := false, linkWindow := w, upRun := run } := by
      rw [LoaderStatus.fallen, pushWindow_eq]
      rfl
    have hfollow : s.following = [] := hr.2.2.1.2
    have hat : s.deadlineAt l instant = { s with timer := s.timer.seek instant, deadlines := putAt s.deadlines l none } := rfl
    have hfall := (s.deadlineAt l instant).deadlineFalls_eq l
    rw [hexec]
    generalize hT : (s.deadlineAt l instant).deadlineFalls l = t at *
    have htimer : t.timer = s.timer.seek instant := by rw [hfall]; rfl
    have hdls : t.deadlines = putAt s.deadlines l none := by rw [hfall]; rfl
    have hauth : t.auth = putAt s.auth l { s.auth[l] with state := s.auth[l].state.stepTimer } := by rw [hfall]; rfl
    have hstate : t.auth[l].state = s.auth[l].state.stepTimer := by rw [hauth, putAt_same]
    have hdue : t.due = s.due ++ s.fallsDue l := by rw [hfall]; rfl
    have hmem (x : Due) (hx : x.follows = true) : x ∈ t.due ↔ x ∈ s.fallsDue l := by
      have hno : x ∉ s.due := fun hxs => by
        have hin : x ∈ s.following := List.mem_filter.mpr ⟨hxs, hx⟩
        rw [hfollow] at hin
        exact nomatch hin
      rw [hdue, List.mem_append, or_iff_right hno]
    refine ⟨t, rfl, ?_, ?_, ?_, hauth, ?_, ?_, hdls, ?_, ⟨_, hdue, ?_⟩, ?_, ?_, ?_, ?_, ?_, ?_, ?_⟩
    · rw [htimer]
      rfl
    · rw [htimer]
      split
      · next hlt => exact if_pos hlt
      · next hlt => exact s.timer.positionAt_val hlt
    · rw [hfall, ← hst]
      rfl
    · rw [hstate, AuthState.stepTimer_timer]
    · have hrep : t.rep = (s.deadlineAt l instant).missReport l := by rw [hfall]
      rw [hrep, htimer]
      rfl
    · rw [htimer, hdls, ← hat, hT]
    · intro x hx
      rw [State.mem_fallsDue, AuthState.mem_dueAt] at hx
      simp only [List.mem_cons, List.not_mem_nil, or_false]
      tauto
    · rw [hmem _ rfl, State.mem_fallsDue, AuthState.mem_dueAt, hst]
      simp only [reduceCtorEq, false_and, or_false, true_and]
      rfl
    · rw [hmem _ rfl, State.mem_fallsDue, AuthState.mem_dueAt, hst]
      simp only [reduceCtorEq, false_and, or_false, false_or, true_and]
      rfl
    · rw [hmem _ rfl, State.mem_fallsDue, AuthState.mem_dueAt, AuthState.stepTimer_cause]
      simp only [reduceCtorEq, false_and, false_or, true_and]
    · rw [hmem _ rfl, State.mem_fallsDue, AuthState.mem_dueAt, AuthState.stepTimer_offeredChair, hstate]
      simp only [reduceCtorEq, false_and, false_or, or_false, true_and]
    · rw [hmem _ rfl, State.mem_fallsDue, AuthState.mem_dueAt, AuthState.stepTimer_candidate, hstate]
      simp only [reduceCtorEq, false_and, false_or, or_false, true_and]
    · rw [hmem _ rfl, State.mem_fallsDue, AuthState.mem_dueAt, hstate]
      simp only [reduceCtorEq, false_and, false_or, or_false, true_and]
    · rw [hfall]
      rfl

end Sys2Proof
end

section
/-! TABLE_APPLIED (R95, R164 to R166): the tables with their pending writes, and the entries applied one by one. -/

namespace Sys2Proof.Machine

open Sys2Proof

/-! ## The tables and their pending writes -/

section tables
variable {t : Tables} {w : Writes} {q r : EntryRef}

/-- The tables as they will be once every pending write has been applied. -/
def Writes.over (w : Writes) (t : Tables) : Tables where
  device := w.device.getD t.device
  mgmt := tabulate fun i => w.mgmt[i].getD t.mgmt[i]
  chairs := tabulate fun i => w.chairs[i].getD t.chairs[i]
  loaders := tabulate fun i => w.loaders[i].getD t.loaders[i]
  zones := tabulate fun i => w.zones[i].getD t.zones[i]
  lines := tabulate fun i => w.lines[i].getD t.lines[i]
  rules := tabulate fun i => w.rules[i].getD t.rules[i]
  events := tabulate fun i => w.events[i].getD t.events[i]

/-- One entry takes its pending write. -/
def Tables.take (t : Tables) (w : Writes) : EntryRef → Tables
  | .device => { t with device := w.device.getD t.device }
  | .mgmtStation i => { t with mgmt := putAt t.mgmt i (w.mgmt[i].getD t.mgmt[i]) }
  | .chair i => { t with chairs := putAt t.chairs i (w.chairs[i].getD t.chairs[i]) }
  | .loader i => { t with loaders := putAt t.loaders i (w.loaders[i].getD t.loaders[i]) }
  | .zone i => { t with zones := putAt t.zones i (w.zones[i].getD t.zones[i]) }
  | .line i => { t with lines := putAt t.lines i (w.lines[i].getD t.lines[i]) }
  | .rule i => { t with rules := putAt t.rules i (w.rules[i].getD t.rules[i]) }
  | .event i => { t with events := putAt t.events i (w.events[i].getD t.events[i]) }

/-- The slot period that an entry's pending write brings into force (R95). -/
def Timer.take (t : Timer) (w : Writes) : EntryRef → Timer
  | .device => { t with period := (w.device.map (·.period)).getD t.period }
  | _ => t

theorem over_take {α : Type} {n : Nat} (v : Vector α n) (p : Vector (Option α) n) (i : Fin n) :
    (tabulate fun j => (putAt p i none)[j].getD (putAt v i (p[i].getD v[i]))[j]) = tabulate fun j => p[j].getD v[j] := by
  refine family_ext fun j => ?_
  rw [tabulate_get, tabulate_get, putAt_get, putAt_get]
  split
  · next h => rw [h]; rfl
  · rfl

/-- An entry that takes its pending write leaves the tables that are to be. -/
theorem Writes.over_take (w : Writes) (t : Tables) (r : EntryRef) : (w.clear r).over (t.take w r) = w.over t := by
  cases r with
  | device => rfl
  | mgmtStation i => exact congrArg (fun v => { w.over t with mgmt := v }) (Machine.over_take t.mgmt w.mgmt i)
  | chair i => exact congrArg (fun v => { w.over t with chairs := v }) (Machine.over_take t.chairs w.chairs i)
  | loader i => exact congrArg (fun v => { w.over t with loaders := v }) (Machine.over_take t.loaders w.loaders i)
  | zone i => exact congrArg (fun v => { w.over t with zones := v }) (Machine.over_take t.zones w.zones i)
  | line i => exact congrArg (fun v => { w.over t with lines := v }) (Machine.over_take t.lines w.lines i)
  | rule i => exact congrArg (fun v => { w.over t with rules := v }) (Machine.over_take t.rules w.rules i)
  | event i => exact congrArg (fun v => { w.over t with events := v }) (Machine.over_take t.events w.events i)

theorem Timer.over_take (k : Timer) (w : Writes) (r : EntryRef) :
    ((w.clear r).device.map (·.period)).getD (k.take w r).period = (w.device.map (·.period)).getD k.period := by
  cases r <;> rfl

/-! ## No pending write left -/

theorem replicate_get {α : Type} {n : Nat} (x : α) (i : Fin n) : (Vector.replicate n x)[i] = x := Vector.getElem_replicate i.isLt

theorem Writes.over_none (t : Tables) : Writes.none.over t = t := by
  have hone {α : Type} {n : Nat} (v : Vector α n) :
      (tabulate fun i => (Vector.replicate n (Option.none : Option α))[i].getD v[i]) = v := by
    refine family_ext fun i => ?_
    rw [tabulate_get, replicate_get]
    rfl
  simp only [Writes.over, Writes.none, hone]
  rfl

theorem isSome_clear {α : Type} {n : Nat} {p : Vector (Option α) n} {i j : Fin n} (h : p[j].isSome = false ∨ j = i) :
    (putAt p i none)[j].isSome = false := by
  rw [putAt_get]
  split
  · rfl
  · next hij => exact h.resolve_right fun hji => hij hji.symm

/-- An entry that has been cleared is not marked, and none comes to be. -/
theorem Writes.marked_clear (h : w.marked q = false ∨ q = r) : (w.clear r).marked q = false := by
  cases r with
  | device => cases q with
    | device => rfl
    | _ => exact h.resolve_right nofun
  | mgmtStation i => cases q with
    | mgmtStation j => exact isSome_clear (h.imp_right fun h => by injection h)
    | _ => exact h.resolve_right nofun
  | chair i => cases q with
    | chair j => exact isSome_clear (h.imp_right fun h => by injection h)
    | _ => exact h.resolve_right nofun
  | loader i => cases q with
    | loader j => exact isSome_clear (h.imp_right fun h => by injection h)
    | _ => exact h.resolve_right nofun
  | zone i => cases q with
    | zone j => exact isSome_clear (h.imp_right fun h => by injection h)
    | _ => exact h.resolve_right nofun
  | line i => cases q with
    | line j => exact isSome_clear (h.imp_right fun h => by injection h)
    | _ => exact h.resolve_right nofun
  | rule i => cases q with
    | rule j => exact isSome_clear (h.imp_right fun h => by injection h)
    | _ => exact h.resolve_right nofun
  | event i => cases q with
    | event j => exact isSome_clear (h.imp_right fun h => by injection h)
    | _ => exact h.resolve_right nofun

theorem Writes.foldl_clear (xs : List EntryRef) (h : w.marked q = false ∨ q ∈ xs) : (xs.foldl Writes.clear w).marked q = false := by
  induction xs generalizing w with
  | nil => exact h.resolve_right List.not_mem_nil
  | cons x xs ih =>
    refine ih ?_
    obtain h | h := h
    · exact .inl (Writes.marked_clear (.inl h))
    · exact (List.mem_cons.mp h).imp_left fun hx => Writes.marked_clear (.inr hx)

theorem mem_allRefs (r : EntryRef) : r ∈ allRefs := by
  have hchair (c : Chair) : c ∈ allChairs := by revert c; decide
  have hline (i : Line) : i ∈ allLines := by revert i; decide
  cases r <;> simp [allRefs, hchair, mem_allLoaders, hline]

theorem Writes.eq_none (h : ∀ r, w.marked r = false) : w = .none := by
  have hone {α : Type} {n : Nat} {v : Vector (Option α) n} (h : ∀ i : Fin n, v[i].isSome = false) :
      v = Vector.replicate n Option.none := by
    refine family_ext fun i => ?_
    rw [replicate_get]
    exact Option.not_isSome_iff_eq_none.mp (Bool.eq_false_iff.mp (h i))
  cases w with
  | mk device mgmt chairs loaders zones lines rules events =>
    have hdevice : device = Option.none := Option.not_isSome_iff_eq_none.mp (Bool.eq_false_iff.mp (h .device))
    rw [Writes.none, hdevice, hone (v := mgmt) fun i => h (.mgmtStation i), hone (v := chairs) fun i => h (.chair i),
      hone (v := loaders) fun i => h (.loader i), hone (v := zones) fun i => h (.zone i), hone (v := lines) fun i => h (.line i),
      hone (v := rules) fun i => h (.rule i), hone (v := events) fun i => h (.event i)]

end tables

/-! ## What an applied entry leaves -/

/-- The Table Store's part of the state, with the clock, the Agent and what waits. -/
structure Store where
  tables : Tables
  writes : Writes
  timer : Timer
  agent : Agent
  due : List Due

def Rest.store (r : Rest) : Store := ⟨r.tables, r.writes, r.timer, r.agent, r.due⟩

abbrev State.store (s : State) : Store := s.rest.store

section entries
variable {s t : State} {c : Chair} {l : Loader}

theorem State.absentPlace_rest (s : State) (c : Chair) (l : Loader) : (s.absentPlace c l).rest = s.rest := by
  unfold State.absentPlace
  repeat' split
  · exact s.dropRetained_rest l
  · rfl
  · exact s.standEntry_rest l _
  · rfl
  · exact s.standEntry_rest l _
  · exact s.endOffer_rest _ _ _ _ _ fun s => s.returnLoader_rest l
  · rfl
  · exact s.standEntry_rest l _
  · exact (State.returnLoader_rest _ l).trans (s.endMatching_rest l c)
  · rfl
  · rfl

theorem State.permitEnds_rest (s : State) (c : Chair) (l : Loader) : (s.permitEnds c l).rest = s.rest := by
  unfold State.permitEnds
  repeat' split
  · exact (State.noticeIfPresent_rest _ _ _).trans (s.dropRetained_rest l)
  · rfl
  · exact s.standEntry_rest l _
  · rfl
  · exact s.standEntry_rest l _
  · exact State.endOffer_rest _ _ _ _ _ _ fun s => s.returnLoader_rest l
  · rfl
  · exact s.standEntry_rest l _
  · exact (State.returnLoader_rest _ l).trans (State.endMatching_rest _ l c)
  · rfl
  · rfl

theorem State.becomeAbsent_store (s : State) (c : Chair) (d : Word16) : (s.becomeAbsent c d).store = s.store := by
  simp only [State.becomeAbsent]
  split
  · rfl
  · exact (congrArg Rest.store (State.absentPlace_rest _ c _)).trans rfl

theorem State.narrowPermits_rest (s : State) (c : Chair) : (s.narrowPermits c).rest = s.rest := by
  unfold State.narrowPermits
  repeat' split
  · rfl
  · rfl
  · exact s.permitEnds_rest c _

theorem State.applyChair_store (s : State) (c : Chair) (e : ChairEntry) : (s.applyChair c e).store =
    { s.store with tables := { s.tables with chairs := putAt s.tables.chairs c e } } := by
  simp only [State.applyChair]
  repeat' split
  · exact State.becomeAbsent_store _ c _
  · exact State.becomeAbsent_store _ c _
  · exact congrArg Rest.store (State.narrowPermits_rest _ c)

theorem State.disableLoader_store (s : State) (l : Loader) : (s.disableLoader l).store = s.store := by
  obtain ⟨v, hv, -, he⟩ := s.disableLoader_eq l
  rw [he]
  have hstore : v.store = s.store := congrArg Rest.store hv.rest
  exact hstore

theorem State.switchLoader_store (s : State) (old : Bool) (e : LoaderEntry) (l : Loader) :
    (s.switchLoader old e l).store = s.store := by
  unfold State.switchLoader
  repeat' split
  · exact s.disableLoader_store l
  · obtain h | h := s.enableLoader_cases l
    · rw [h]
    · rw [h]
      rfl
  · rfl

theorem State.applyLoader_store (s : State) (l : Loader) (e : LoaderEntry) : (s.applyLoader l e).store =
    { s.store with tables := { s.tables with loaders := putAt s.tables.loaders l e } } :=
  (congrArg Rest.store (s.switchLoader_applies l e).1).trans (State.switchLoader_store _ _ _ _)

theorem State.applyLine_store (s : State) (i : Line) (e : LineEntry) : (s.applyLine i e).store =
    { s.store with tables := { s.tables with lines := putAt s.tables.lines i e } } :=
  congrArg Rest.store (s.applyLine_rest i e)

theorem none_of_unmarked {α : Type} {x : Option α} (h : x.isSome = false) : x = none :=
  Option.not_isSome_iff_eq_none.mp (Bool.eq_false_iff.mp h)

/-- An entry with no pending write keeps its value. -/
theorem Tables.take_unmarked {t : Tables} {w : Writes} {r : EntryRef} (h : w.marked r = false) : t.take w r = t ∧ w.clear r = w := by
  have hput {α : Type} {n : Nat} (v : Vector α n) {p : Vector (Option α) n} {i : Fin n} (h : p[i].isSome = false) :
      putAt v i (p[i].getD v[i]) = v ∧ putAt p i none = p := by
    have hn := none_of_unmarked h
    exact ⟨by rw [hn]; exact putAt_self _ _, by rw [← hn]; exact putAt_self _ _⟩
  cases r with
  | device =>
    have hd : w.device = none := none_of_unmarked h
    exact ⟨by rw [Tables.take, hd]; rfl, by rw [Writes.clear, ← hd]⟩
  | mgmtStation i =>
    obtain ⟨ht, hw⟩ := hput t.mgmt (p := w.mgmt) h
    exact ⟨by rw [Tables.take, ht], by rw [Writes.clear, hw]⟩
  | chair i =>
    obtain ⟨ht, hw⟩ := hput t.chairs (p := w.chairs) h
    exact ⟨by rw [Tables.take, ht], by rw [Writes.clear, hw]⟩
  | loader i =>
    obtain ⟨ht, hw⟩ := hput t.loaders (p := w.loaders) h
    exact ⟨by rw [Tables.take, ht], by rw [Writes.clear, hw]⟩
  | zone i =>
    obtain ⟨ht, hw⟩ := hput t.zones (p := w.zones) h
    exact ⟨by rw [Tables.take, ht], by rw [Writes.clear, hw]⟩
  | line i =>
    obtain ⟨ht, hw⟩ := hput t.lines (p := w.lines) h
    exact ⟨by rw [Tables.take, ht], by rw [Writes.clear, hw]⟩
  | rule i =>
    obtain ⟨ht, hw⟩ := hput t.rules (p := w.rules) h
    exact ⟨by rw [Tables.take, ht], by rw [Writes.clear, hw]⟩
  | event i =>
    obtain ⟨ht, hw⟩ := hput t.events (p := w.events) h
    exact ⟨by rw [Tables.take, ht], by rw [Writes.clear, hw]⟩

theorem Timer.take_unmarked {k : Timer} {w : Writes} {r : EntryRef} (h : w.marked r = false) : k.take w r = k := by
  cases r with
  | device =>
    have hd : w.device = none := none_of_unmarked h
    rw [Timer.take, hd]
    rfl
  | _ => rfl

theorem State.applyEntry_unmarked {r : EntryRef} (h : s.writes.marked r = false) : s.applyEntry r = s := by
  cases r with
  | device =>
    have hn : s.writes.device = none := none_of_unmarked h
    simp only [State.applyEntry, hn]
  | mgmtStation i =>
    have hn : s.writes.mgmt[i] = none := none_of_unmarked h
    simp only [State.applyEntry, hn]
  | chair i =>
    have hn : s.writes.chairs[i] = none := none_of_unmarked h
    simp only [State.applyEntry, hn]
  | loader i =>
    have hn : s.writes.loaders[i] = none := none_of_unmarked h
    simp only [State.applyEntry, hn]
  | zone i =>
    have hn : s.writes.zones[i] = none := none_of_unmarked h
    simp only [State.applyEntry, hn]
  | line i =>
    have hn : s.writes.lines[i] = none := none_of_unmarked h
    simp only [State.applyEntry, hn]
  | rule i =>
    have hn : s.writes.rules[i] = none := none_of_unmarked h
    simp only [State.applyEntry, hn]
  | event i =>
    have hn : s.writes.events[i] = none := none_of_unmarked h
    simp only [State.applyEntry, hn]

/-- An entry is applied: it takes its pending write, and nothing else of the tables changes. -/
theorem State.applyEntry_marked {r : EntryRef} (h : s.writes.marked r = true) : (s.applyEntry r).store =
    { s.store with tables := s.tables.take s.writes r, writes := s.writes.clear r, timer := s.timer.take s.writes r } := by
  cases r with
  | device =>
    obtain ⟨e, he⟩ := Option.isSome_iff_exists.mp h
    simp only [State.applyEntry, Tables.take, Timer.take, he]
    rfl
  | mgmtStation i =>
    obtain ⟨e, he⟩ : ∃ e, s.writes.mgmt[i] = some e := Option.isSome_iff_exists.mp h
    simp only [State.applyEntry, Tables.take, he]
    rfl
  | chair i =>
    obtain ⟨e, he⟩ : ∃ e, s.writes.chairs[i] = some e := Option.isSome_iff_exists.mp h
    simp only [State.applyEntry, Tables.take, he]
    exact State.applyChair_store _ i e
  | loader i =>
    obtain ⟨e, he⟩ : ∃ e, s.writes.loaders[i] = some e := Option.isSome_iff_exists.mp h
    simp only [State.applyEntry, Tables.take, he]
    exact State.applyLoader_store _ i e
  | zone i =>
    obtain ⟨e, he⟩ : ∃ e, s.writes.zones[i] = some e := Option.isSome_iff_exists.mp h
    simp only [State.applyEntry, Tables.take, he]
    rfl
  | line i =>
    obtain ⟨e, he⟩ : ∃ e, s.writes.lines[i] = some e := Option.isSome_iff_exists.mp h
    simp only [State.applyEntry, Tables.take, he]
    exact State.applyLine_store _ i e
  | rule i =>
    obtain ⟨e, he⟩ : ∃ e, s.writes.rules[i] = some e := Option.isSome_iff_exists.mp h
    simp only [State.applyEntry, Tables.take, he]
    rfl
  | event i =>
    obtain ⟨e, he⟩ : ∃ e, s.writes.events[i] = some e := Option.isSome_iff_exists.mp h
    simp only [State.applyEntry, Tables.take, he]
    rfl

theorem State.applyEntry_store (s : State) (r : EntryRef) : (s.applyEntry r).store =
    { s.store with tables := s.tables.take s.writes r, writes := s.writes.clear r, timer := s.timer.take s.writes r } := by
  cases h : s.writes.marked r with
  | true => exact State.applyEntry_marked h
  | false =>
    obtain ⟨htables, hwrites⟩ := Tables.take_unmarked (t := s.tables) h
    rw [State.applyEntry_unmarked h, htables, hwrites, Timer.take_unmarked h]
    rfl

end entries

end Sys2Proof.Machine
end

section
/-! The boundary (R164, R166): every pending write applied in one event, its report, and the draw and the walk that end it. -/

namespace Sys2Proof.Machine

open Sys2Proof

section
variable {s t v : State} {order : List EntryRef} {raiseFirst : Bool}

/-- The entries applied one by one. -/
def State.applyEntries (s : State) (xs : List EntryRef) : State := xs.foldl State.applyEntry s

theorem State.applyEntries_store (s : State) (xs : List EntryRef) :
    (s.applyEntries xs).writes = xs.foldl Writes.clear s.writes
      ∧ (s.applyEntries xs).writes.over (s.applyEntries xs).tables = s.writes.over s.tables
      ∧ ((s.applyEntries xs).writes.device.map (·.period)).getD (s.applyEntries xs).timer.period =
        (s.writes.device.map (·.period)).getD s.timer.period
      ∧ (s.applyEntries xs).agent = s.agent ∧ (s.applyEntries xs).due = s.due := by
  induction xs generalizing s with
  | nil => exact ⟨rfl, rfl, rfl, rfl, rfl⟩
  | cons x xs ih =>
    have hx := s.applyEntry_store x
    have htables : (s.applyEntry x).tables = s.tables.take s.writes x := congrArg Store.tables hx
    have hwrites : (s.applyEntry x).writes = s.writes.clear x := congrArg Store.writes hx
    have htimer : (s.applyEntry x).timer = s.timer.take s.writes x := congrArg Store.timer hx
    obtain ⟨hw, ho, hp, ha, hd⟩ := ih (s.applyEntry x)
    rw [htables, hwrites, Writes.over_take] at ho
    rw [htimer, hwrites, Timer.over_take] at hp
    rw [hwrites] at hw
    exact ⟨hw, ho, hp, ha.trans (congrArg Store.agent hx), hd.trans (congrArg Store.due hx)⟩

/-- Every entry applied leaves no pending write, and the tables that were to be. -/
theorem State.applyAll_store (s : State) (order : List EntryRef) :
    let x := s.applyEntries (order ++ allRefs)
    x.writes = .none ∧ x.tables = s.writes.over s.tables
      ∧ x.timer.period = (s.writes.device.map (·.period)).getD s.timer.period ∧ x.agent = s.agent ∧ x.due = s.due := by
  obtain ⟨hw, ho, hp, ha, hd⟩ := s.applyEntries_store (order ++ allRefs)
  have hnone : (s.applyEntries (order ++ allRefs)).writes = .none := by
    rw [hw]
    exact Writes.eq_none fun r => Writes.foldl_clear _ (.inr (List.mem_append_right _ (mem_allRefs r)))
  rw [hnone, Writes.over_none] at ho
  rw [hnone] at hp
  exact ⟨hnone, ho, hp, ha, hd⟩

/-- The report of a boundary, which raises its event where it applies anything. -/
def State.boundaryTold (s : State) (n : Nat) : State := if n = 0 then s else s.raise .tableApplied none none (wordOf n)

theorem State.boundaryTold_store (s : State) (n : Nat) : (s.boundaryTold n).store = s.store := by
  unfold State.boundaryTold
  split <;> rfl

theorem State.tableApplied_eq (s : State) (order : List EntryRef) (raiseFirst : Bool) : s.tableApplied order raiseFirst =
    if raiseFirst then (s.boundaryTold s.writes.count).applyWrites order else (s.applyWrites order).boundaryTold s.writes.count := rfl

/-- What the Table Store, the clock and the Agent come to at a boundary. -/
structure State.Applied (s v : State) : Prop where
  writes : v.writes = .none
  tables : v.tables = s.writes.over s.tables
  period : v.timer.period = (s.writes.device.map (·.period)).getD s.timer.period
  agent : v.agent = { s.agent with commissioning := s.agent.commissioning && !v.tables.someListed }
  due : v.due = s.due

theorem State.applyWrites_applied (s : State) (order : List EntryRef) : s.Applied (s.applyWrites order) := by
  obtain ⟨hw, ht, hp, ha, hd⟩ := s.applyAll_store order
  have heq : s.applyWrites order = (s.applyEntries (order ++ allRefs)).endCommissioning := rfl
  rw [heq]
  generalize s.applyEntries (order ++ allRefs) = x at *
  cases hl : x.tables.someListed with
  | true =>
    have hx : x.endCommissioning = { x with agent := { x.agent with commissioning := false } } := if_pos hl
    rw [hx]
    refine ⟨hw, ht, hp, ?_, hd⟩
    simp only [hl, ha, Bool.not_true, Bool.and_false]
  | false =>
    have hx : x.endCommissioning = x := if_neg (Bool.eq_false_iff.mp hl)
    rw [hx]
    refine ⟨hw, ht, hp, ?_, hd⟩
    simp only [hl, ha, Bool.not_false, Bool.and_true]

theorem State.Applied.congr {u w : State} (h : s.Applied v) (hs : u.store = s.store) (hv : w.store = v.store) : u.Applied w := by
  have hstables : u.tables = s.tables := congrArg Store.tables hs
  have hswrites : u.writes = s.writes := congrArg Store.writes hs
  have hstimer : u.timer = s.timer := congrArg Store.timer hs
  have hsagent : u.agent = s.agent := congrArg Store.agent hs
  have hsdue : u.due = s.due := congrArg Store.due hs
  have hvtables : w.tables = v.tables := congrArg Store.tables hv
  have hvwrites : w.writes = v.writes := congrArg Store.writes hv
  have hvtimer : w.timer = v.timer := congrArg Store.timer hv
  have hvagent : w.agent = v.agent := congrArg Store.agent hv
  have hvdue : w.due = v.due := congrArg Store.due hv
  refine ⟨hvwrites.trans h.writes, ?_, ?_, ?_, ?_⟩
  · rw [hvtables, h.tables, hstables, hswrites]
  · rw [hvtimer, h.period, hswrites, hstimer]
  · rw [hvagent, h.agent, hvtables, hsagent]
  · rw [hvdue, h.due, hsdue]

theorem State.tableApplied_applied (s : State) (order : List EntryRef) (raiseFirst : Bool) :
    s.Applied (s.tableApplied order raiseFirst) := by
  rw [State.tableApplied_eq]
  cases raiseFirst with
  | true => exact ((s.boundaryTold s.writes.count).applyWrites_applied order).congr (s.boundaryTold_store _).symm rfl
  | false => exact (s.applyWrites_applied order).congr rfl (State.boundaryTold_store _ _)

/-- A boundary's draw, where it is still due (R124). -/
def State.drawIfDue (s : State) : State := if .phaseDraw ∈ s.due then (s.undue .phaseDraw).drawPhases else s

theorem State.drawPhases_store (s : State) : s.drawPhases.store = s.store := by
  refine foldl_keeps _ State.store (fun u c => ?_) _ _
  refine foldl_keeps _ State.store (fun v l => ?_) _ _
  simp only [State.drawOne]
  split <;> rfl

/-- The draw, the walk and the beacons leave the tables, the clock and the Agent. -/
theorem State.drawIfDue_finish (s : State) : s.drawIfDue.finish.tables = s.tables ∧ s.drawIfDue.finish.writes = s.writes
    ∧ s.drawIfDue.finish.timer = s.timer ∧ s.drawIfDue.finish.agent = s.agent := by
  have hfinish := s.drawIfDue.finish_rest
  have hdraw : s.drawIfDue.tables = s.tables ∧ s.drawIfDue.writes = s.writes ∧ s.drawIfDue.timer = s.timer
      ∧ s.drawIfDue.agent = s.agent := by
    unfold State.drawIfDue
    split
    · have h := (s.undue .phaseDraw).drawPhases_store
      generalize (s.undue .phaseDraw).drawPhases = w at *
      exact ⟨congrArg Store.tables h, congrArg Store.writes h, congrArg Store.timer h, congrArg Store.agent h⟩
    · exact ⟨rfl, rfl, rfl, rfl⟩
  obtain ⟨htables, hwrites, htimer, hagent⟩ := hdraw
  generalize s.drawIfDue = w at *
  exact ⟨(congrArg Rest.tables hfinish).trans htables, (congrArg Rest.writes hfinish).trans hwrites,
    (congrArg Rest.timer hfinish).trans htimer, (congrArg Rest.agent hfinish).trans hagent⟩

theorem State.drawIfDue_eq {d : List Due} (h : s.due = d) :
    s.drawIfDue = if .phaseDraw ∈ d then State.drawPhases { s with due := d.erase .phaseDraw } else s := by
  subst h
  rfl

theorem State.exec_tableApplied (h : .tableApplied ∈ s.due) (order : List EntryRef) (raiseFirst : Bool) :
    exec (.tableApplied order raiseFirst) s =
      .next ((s.undue .tableApplied).tableApplied order raiseFirst).drawIfDue.finish :=
  congrArg Host.Outcome.next (State.runDue_ofCycleStart h rfl fun s => (s.tableApplied order raiseFirst).drawIfDue)

end

end Sys2Proof.Machine

namespace Sys2Proof

open Machine

/-- Settles O8: each entry takes its pending write, and the boundary's event ends with its walk. -/
theorem boundaryAppliesEveryWrite : Obligations.BoundaryAppliesEveryWrite := by
  intro s order raiseFirst hd
  have happ := (s.undue .tableApplied).tableApplied_applied order raiseFirst
  rw [s.exec_tableApplied hd]
  obtain ⟨htables, hwrites, htimer, hagent⟩ := ((s.undue .tableApplied).tableApplied order raiseFirst).drawIfDue_finish
  have hto := htables.trans happ.tables
  refine ⟨_, rfl, hwrites.trans happ.writes, congrArg Tables.device hto, fun i => ?_, fun i => ?_, fun i => ?_, fun i => ?_,
    fun i => ?_, fun i => ?_, fun i => ?_, ?_, ?_, ?_⟩
  · rw [hto]
    exact tabulate_get _ i
  · rw [hto]
    exact tabulate_get _ i
  · rw [hto]
    exact tabulate_get _ i
  · rw [hto]
    exact tabulate_get _ i
  · rw [hto]
    exact tabulate_get _ i
  · rw [hto]
    exact tabulate_get _ i
  · rw [hto]
    exact tabulate_get _ i
  · rw [htimer]
    exact happ.period
  · rw [hagent, htables]
    exact happ.agent
  · intro n told applied u v w
    have hw : ((s.undue .tableApplied).tableApplied order raiseFirst).drawIfDue = w := State.drawIfDue_eq happ.due
    rw [hw]
    refine ⟨rfl, fun hc => State.finish_within (w.finish_cycleStarting.symm.trans hc), fun hc => ?_⟩
    exact Bool.eq_false_iff.mpr fun ht => Bool.false_ne_true
      (hc.symm.trans (w.finish_cycleStarting.trans (State.finish_walkCalled ht)))

end Sys2Proof
end

section
/-! S_PORT_TAKE (R157, R158, R168): one take of the transmitter, and the Agent that goes on. -/

namespace Sys2Proof.Machine

open Sys2Proof

section
variable {s t u : State} {f g : Frame} {rest : List Frame} {room : Nat}

/-! ## What a take leaves -/

/-- What the beacons read and show, with the walk and the pending deadlines. -/
structure Shown where
  walkCalled : Bool
  beacons : Vector Bool 4
  auth : Vector AuthRecord 16
  status : Vector LoaderStatus 16
  tables : Tables
  deadlines : Vector (Option Deadline) 16
  due : List Due

def State.shown (s : State) : Shown := ⟨s.walkCalled, s.beacons, s.auth, s.status, s.tables, s.deadlines, s.due⟩

theorem State.Tends.shown (h : State.Tends room s t) : t.shown = s.shown ∧ t.sending = s.sending := by
  cases h with
  | served h => cases h <;> exact ⟨rfl, rfl⟩
  | _ => exact ⟨rfl, rfl⟩

theorem State.Tended.shown (h : State.Tended room s t) : t.shown = s.shown ∧ t.sending = s.sending := by
  induction h with
  | refl => exact ⟨rfl, rfl⟩
  | tail _ h ih =>
    obtain ⟨hs, ho⟩ := State.Tends.shown h
    exact ⟨hs.trans ih.1, ho.trans ih.2⟩

theorem State.takeFrame_shown (s : State) : s.takeFrame.shown = s.shown := by
  obtain ⟨t, ht, htend⟩ := s.takeFrame_tended
  refine (State.Tended.shown htend).1.trans ?_
  cases ht <;> rfl

/-- A take is no event that calls for a walk or moves a beacon. -/
theorem State.BeaconsShow.finish_take (h : s.BeaconsShow) : s.takeFrame.finish = s.takeFrame := by
  have hs := s.takeFrame_shown
  exact h.finish_shown (congrArg Shown.walkCalled hs) (congrArg Shown.beacons hs) (congrArg Shown.auth hs)
    (congrArg Shown.status hs) (congrArg Shown.tables hs)

theorem State.exec_sPortTake (s : State) : exec .sPortTake s = .next (if s.canTake then s.takeFrame.finish else s) := rfl

/-! ## One take -/

/-- A frame on the line, or none while the link is DOWN. -/
def State.outgoing (s : State) (f : Frame) : Option Outgoing :=
  if s.linkIsUp .surface then some ⟨s.tables.device.marker, f⟩ else none

theorem State.surfaceSend_idle (h : s.sending = none) (f : Frame) : s.surfaceSend f = { s with sending := s.outgoing f } := by
  unfold State.surfaceSend State.outgoing
  split
  · rfl
  · rw [← h]

theorem State.takeFrame_notice (h : s.sending = none) (hn : s.rep.notices = f :: rest) :
    s.takeFrame = { s with rep := { s.rep with notices := rest }, sending := s.outgoing f } := by
  have hsend : State.surfaceSend { s with rep := { s.rep with notices := rest } } f =
      { s with rep := { s.rep with notices := rest }, sending := s.outgoing f } := State.surfaceSend_idle (s := { s with rep := { s.rep with notices := rest } }) h f
  simp only [State.takeFrame, hn]
  exact hsend

theorem State.takeFrame_response (h : s.sending = none) (hn : s.rep.notices = []) (hr : s.responses = f :: rest) :
    s.takeFrame = State.responseTaken { s with responses := rest, sending := s.outgoing f } := by
  have hsend : State.surfaceSend { s with responses := rest } f = { s with responses := rest, sending := s.outgoing f } :=
    State.surfaceSend_idle (s := { s with responses := rest }) h f
  simp only [State.takeFrame, hn, hr]
  exact congrArg State.responseTaken hsend

theorem State.takeFrame_forward (h : s.sending = none) (hn : s.rep.notices = []) (hr : s.responses = [])
    (hf : s.forwards = f :: rest) : s.takeFrame = { s with forwards := rest, sending := s.outgoing f } := by
  have hsend : State.surfaceSend { s with forwards := rest } f = { s with forwards := rest, sending := s.outgoing f } :=
    State.surfaceSend_idle (s := { s with forwards := rest }) h f
  unfold State.takeFrame
  split
  · next h' => exact nomatch hn.symm.trans h'
  · split
    · next h' => exact nomatch hr.symm.trans h'
    · split
      · next f' rest' h' =>
        cases hf.symm.trans h'
        exact hsend
      · next h' => exact nomatch hf.symm.trans h'

theorem State.canTake_iff (h : s.sending = none) (hc : s.cycleStarting = false) :
    s.canTake = true ↔ ¬ (s.rep.notices = [] ∧ s.responses = [] ∧ s.forwards = []) := by
  simp only [State.canTake, h, hc, Option.isNone_none, Bool.true_and, Bool.not_false, Bool.and_true, Bool.not_eq_true',
    ← Bool.not_eq_true, Bool.and_eq_true, List.isEmpty_iff, and_assoc]

theorem State.canTake_busy {o : Outgoing} (h : s.sending = some o) : s.canTake = false := by
  simp only [State.canTake, h, Option.isNone_some, Bool.false_and]

theorem State.canTake_within (h : s.cycleStarting = true) : s.canTake = false := by
  simp only [State.canTake, h, Bool.not_true, Bool.and_false]

/-! ## The Agent that goes on (R168) -/

/-- The requests served before a response waits, and those that go on waiting. -/
theorem State.serveWaiting_until (xs : List MgmtRequest) (u : State) : ∃ n, n ≤ xs.length
    ∧ (∀ m, m < n → ((xs.take m).foldl State.serve u).agent.response = none)
    ∧ (n < xs.length → ((xs.take n).foldl State.serve u).agent.response.isSome = true)
    ∧ State.serveWaiting xs u = { (xs.take n).foldl State.serve u with
        agent := { ((xs.take n).foldl State.serve u).agent with waiting := xs.drop n } } := by
  induction xs generalizing u with
  | nil => exact ⟨0, le_refl 0, fun m hm => absurd hm (Nat.not_lt_zero m), fun h => absurd h (Nat.not_lt_zero 0), rfl⟩
  | cons r xs ih =>
    by_cases hr : u.agent.response.isSome = true
    · exact ⟨0, Nat.zero_le _, fun m hm => absurd hm (Nat.not_lt_zero m), fun _ => hr, if_pos hr⟩
    · obtain ⟨n, hn, hbefore, hafter, heq⟩ := ih (u.serve r)
      refine ⟨n + 1, Nat.succ_le_succ hn, fun m hm => ?_, fun h => hafter (Nat.lt_of_succ_lt_succ h), (if_neg hr).trans heq⟩
      cases m with
      | zero => exact Option.not_isSome_iff_eq_none.mp hr
      | succ m => exact hbefore m (Nat.lt_of_succ_lt_succ hm)

theorem State.responseTaken_none (h : s.agent.response = none) : s.responseTaken = s := by
  simp only [State.responseTaken, h]

theorem State.responseTaken_waiting (h : s.agent.response = some g) : s.responseTaken =
    State.serveWaiting s.agent.waiting { s with responses := s.responses ++ [g], agent := { s.agent with response := none } } := by
  simp only [State.responseTaken, h]

end

end Sys2Proof.Machine
end

section
/-! The take follows the event that placed the frames (R158): any other command finds it done. -/

namespace Sys2Proof.Machine

open Sys2Proof

section
variable {s t u : State} {f g : Frame} {rest : List Frame} {room : Nat} {i : Instr}

/-! ## What a command finds -/

theorem State.Tends.running (h : State.Tends room s t) : t.running = s.running := by
  cases h with
  | served h =>
    cases h with
    | save h =>
      have hidle : s.running = true := by
        rw [State.running, h]
        rfl
      exact hidle.symm
    | _ => rfl
  | _ => rfl

theorem State.Tended.running (h : State.Tended room s t) : t.running = s.running := by
  induction h with
  | refl => rfl
  | tail _ h ih => exact (State.Tends.running h).trans ih

theorem State.takeFrame_running (s : State) : s.takeFrame.running = s.running := by
  obtain ⟨t, ht, htend⟩ := s.takeFrame_tended
  refine (State.Tended.running htend).trans ?_
  cases ht <;> rfl

/-- The takes come to a state that takes no more, and that a command finds as it would have found the first. -/
structure State.Drains (s u : State) : Prop where
  takes : s.takes = u
  idle : u.canTake = false
  due : u.due = s.due
  timer : u.timer = s.timer
  running : u.running = s.running
  tables : u.tables = s.tables
  deadlines : u.deadlines = s.deadlines

namespace State.Drains

theorem settleN (h : s.Drains u) (events : State → List Due) (n : Nat) :
    State.settleN events n s = State.settleN events n u := by
  cases n with
  | zero => exact h.takes.trans (State.takes_idle h.idle).symm
  | succ n =>
    have hstep (v : State) : State.settleN events (n + 1) v =
        if (events v.takes).isEmpty then v.takes else State.settleN events n (v.takes.takeOne (events v.takes)) := rfl
    rw [hstep, hstep, h.takes, State.takes_idle h.idle]

theorem fuel (h : s.Drains u) : s.settleFuel = u.settleFuel := by
  rw [State.settleFuel, State.settleFuel, h.due]

theorem settle (h : s.Drains u) : s.settle = u.settle := by
  rw [State.settle, State.settle, h.fuel, h.settleN]

theorem conclude (h : s.Drains u) : s.conclude = u.conclude := by
  rw [State.conclude, State.conclude, h.fuel, h.settleN]

theorem run (h : s.Drains u) (body : State → State) : s.run body = u.run body := by
  rw [State.run, State.run, h.settle]

theorem arriveAt (h : s.Drains u) (n : Option Nat) : s.arriveAt n = u.arriveAt n := by
  rw [State.arriveAt, State.arriveAt, h.settle, h.conclude, h.running, h.timer]

theorem runAt (h : s.Drains u) {instant : State → Option Nat} (hi : instant s = instant u) (body : State → State) :
    s.runAt instant body = u.runAt instant body := by
  rw [State.runAt, State.runAt, hi, h.arriveAt]

theorem upTo (h : s.Drains u) (d : Due) : s.upTo d = u.upTo d := by
  rw [State.upTo, State.upTo, h.takes, h.conclude, State.takes_idle h.idle]

theorem runDue (h : s.Drains u) {d : Due} (hd : d ∈ s.due) (body : State → State) : s.runDue d body = u.runDue d body := by
  rw [State.runDue, State.runDue, if_pos hd, if_pos (h.due.symm ▸ hd), h.upTo]

theorem fallInstant (h : s.Drains u) (x : DeadlineFall) : s.fallInstant x = u.fallInstant x := by
  have hbrings (l d k) : s.bringsForward l d k = u.bringsForward l d k := by
    rw [State.bringsForward, State.bringsForward, State.atSlot, State.atSlot, h.timer, h.tables]
  simp only [State.fallInstant, hbrings, h.deadlines, h.timer]

end State.Drains

/-- A command that is no frame's structured row finds the takes done. -/
theorem State.Drains.exec_alone (h : s.Drains u) (ha : i.asked = none) (hm : managed i = none)
    (hp : ∀ b, i ≠ .powerOn b) (hl : ∀ read, i ≠ .loadEnd read) (ht : i ≠ .sPortTake)
    (hd : ∀ d, i.consequence = some d → d ∈ s.due) : exec i s = exec i u := by
  cases i <;> simp only [Instr.asked, reduceCtorEq] at ha <;> simp only [managed, reduceCtorEq] at hm <;>
    refine congrArg Host.Outcome.next ?_
  case powerOn b => exact absurd rfl (hp b)
  case loadEnd read => exact absurd rfl (hl read)
  case sPortTake => exact absurd rfl ht
  case tableApplied order b => exact h.runDue (hd _ rfl) _
  case linkDown l => exact h.runDue (hd _ rfl) _
  case linkUp l => exact h.runDue (hd _ rfl) _
  case loaderReady l => exact h.runDue (hd _ rfl) _
  case offerExpiry l => exact h.runDue (hd _ rfl) _
  case matchTimeout l => exact h.runDue (hd _ rfl) _
  case releaseTimeout l => exact h.runDue (hd _ rfl) _
  case presenceExpiry c => exact h.runDue (hd _ rfl) _
  case authorityReset => exact h.runDue (hd _ rfl) _
  case lineSettle l => exact h.runDue (hd _ rfl) _
  case cycleStart b => exact h.runAt (by rw [h.timer]) _
  case slotEvent p k => exact h.runAt (by rw [h.timer]) _
  case standStale x => exact h.runAt (by rw [h.timer]) _
  case millisecondStep => exact h.runAt (by rw [h.timer]) _
  case statusDeadline x =>
    by_cases hx : .statusDeadline x.loader ∈ s.due
    · rw [if_pos hx, if_pos (h.due.symm ▸ hx), h.runDue hx]
    · rw [if_neg hx, if_neg (h.due.symm ▸ hx), h.runAt (h.fallInstant x)]
  case lineLevelChange l level => rw [h.timer, h.arriveAt]
  case portLinkUp p => rw [h.settle]
  case portLinkDown p cut => rw [h.settle]
  case burstReceived p burst => exact h.run _
  case command hd p => exact h.run _
  case status p hd x => exact h.run _
  case saveEnd read => exact h.run _
  case sPortTransmissionEnd => exact h.run _

/-- Every command but those of the start and the take itself finds the takes done. -/
theorem State.Drains.exec (h : s.Drains u) (hp : ∀ b, i ≠ .powerOn b) (hl : ∀ read, i ≠ .loadEnd read) (ht : i ≠ .sPortTake)
    (hd : ∀ d, i.consequence = some d → d ∈ s.due) : Machine.exec i s = Machine.exec i u := by
  cases ha : i.asked with
  | some x =>
    obtain ⟨hdr, code, tag, args⟩ := x
    rw [exec_asked ha, exec_asked ha]
    simp only [State.chairCommand, h.run]
  | none =>
    cases hm : managed i with
    | some x =>
      obtain ⟨hdr, op, tag, sel, idx, data⟩ := x
      rw [exec_managed hm, exec_managed hm]
      simp only [State.mgmtCommand, h.run]
    | none => exact h.exec_alone ha hm hp hl ht hd

/-! ## One take while the link is UP, all of them while it is DOWN -/

theorem State.takes_succ (s : State) : ∃ n, s.takes = if s.canTake then State.takesN n s.takeFrame.finish else s := by
  refine ⟨63 + s.rep.notices.length + s.responses.length + s.forwards.length + 32 * s.agent.waiting.length, ?_⟩
  have hfuel : s.takesFuel = (63 + s.rep.notices.length + s.responses.length + s.forwards.length + 32 * s.agent.waiting.length) + 1 := by
    rw [State.takesFuel]
    omega
  rw [State.takes, hfuel]
  rfl

/-- A frame taken while the link is UP is on the line. -/
theorem State.takeFrame_sending (ht : s.canTake = true) (hl : s.linkIsUp .surface = true) : ∃ o, s.takeFrame.sending = some o := by
  have hout (f : Frame) : s.outgoing f = some ⟨s.tables.device.marker, f⟩ := if_pos hl
  have hidle : s.sending = none := by
    cases hs : s.sending with
    | none => rfl
    | some o => exact nomatch ht.symm.trans (State.canTake_busy hs)
  have hcs : s.cycleStarting = false := by
    by_contra hc
    exact nomatch ht.symm.trans (State.canTake_within (Bool.not_eq_false _ ▸ hc))
  cases hn : s.rep.notices with
  | cons f rest => exact ⟨_, by rw [State.takeFrame_notice hidle hn]; exact hout f⟩
  | nil =>
    cases hr : s.responses with
    | cons f rest =>
      have hkept : s.takeFrame.sending = s.outgoing f := by
        rw [State.takeFrame_response hidle hn hr]
        have hroom : State.Tended (max 4 (rest.length + 1)) { s with responses := rest, sending := s.outgoing f }
            (State.responseTaken { s with responses := rest, sending := s.outgoing f }) :=
          State.responseTaken_tended (le_max_left _ _) (lt_of_lt_of_le (Nat.lt_succ_self _) (le_max_right _ _))
        exact (State.Tended.shown hroom).2
      exact ⟨_, hkept.trans (hout f)⟩
    | nil =>
      cases hf : s.forwards with
      | cons f rest => exact ⟨_, by rw [State.takeFrame_forward hidle hn hr hf]; exact hout f⟩
      | nil => exact absurd ⟨hn, hr, hf⟩ ((State.canTake_iff hidle hcs).mp ht)

theorem State.drains_up (hl : s.linkIsUp .surface = true) : s.Drains (if s.canTake then s.takeFrame.finish else s) := by
  obtain ⟨n, hn⟩ := s.takes_succ
  cases ht : s.canTake with
  | false => 
    rw [ht] at hn
    exact ⟨hn, ht, rfl, rfl, rfl, rfl, rfl⟩
  | true =>
    rw [ht] at hn
    obtain ⟨o, ho⟩ := State.takeFrame_sending ht hl
    have hshown := s.takeFrame_shown
    have hrest := s.takeFrame.finish_rest
    have hidle : s.takeFrame.finish.canTake = false := State.canTake_busy ((congrArg Rest.sending hrest).trans ho)
    have htakes : State.takesN n s.takeFrame.finish = s.takeFrame.finish := State.takesN_idle hidle n
    have htimer : s.takeFrame.timer = s.timer := (State.Unmoved.takeFrame s).timer
    have hrun := s.takeFrame_running
    simp only [if_true] at hn ⊢
    refine ⟨hn.trans htakes, hidle, ?_, ?_, ?_, ?_, ?_⟩
    · exact (congrArg Rest.due hrest).trans (congrArg Shown.due hshown)
    · exact (congrArg Rest.timer hrest).trans htimer
    · rw [State.running, (show s.takeFrame.finish.config = s.takeFrame.config from congrArg Rest.config hrest)]
      exact hrun
    · exact (congrArg Rest.tables hrest).trans (congrArg Shown.tables hshown)
    · exact (congrArg Rest.deadlines hrest).trans (congrArg Shown.deadlines hshown)

/-- The queues of notices and copies empty. -/
def State.emptied (s : State) : State := { s with rep := { s.rep with notices := [] }, forwards := [] }

theorem State.emptied_self (hn : s.rep.notices = []) (hf : s.forwards = []) : s.emptied = s := by
  have hrep : { s.rep with notices := [] } = s.rep := by rw [← hn]
  rw [State.emptied, hrep, ← hf]

/-- While the link is DOWN the queues of notices and copies empty (R158). -/
theorem State.takesN_down {n : Nat} (hb : s.BeaconsShow) (hs : s.sending = none) (hc : s.cycleStarting = false)
    (hl : s.linkIsUp .surface = false) (hr : s.responses = []) (hn : s.rep.notices.length + s.forwards.length ≤ n) :
    State.takesN n s = s.emptied := by
  have hout (f : Frame) : s.outgoing f = none := if_neg (Bool.eq_false_iff.mp hl)
  induction n generalizing s with
  | zero =>
    have hnotices : s.rep.notices = [] := List.eq_nil_of_length_eq_zero (by omega)
    have hforwards : s.forwards = [] := List.eq_nil_of_length_eq_zero (by omega)
    exact (State.emptied_self hnotices hforwards).symm
  | succ n ih =>
    have hstep : State.takesN (n + 1) s = if s.canTake then State.takesN n s.takeFrame.finish else s := rfl
    rw [hstep]
    cases hnotices : s.rep.notices with
    | cons f rest =>
      have ht : s.canTake = true := (State.canTake_iff hs hc).mpr fun h => nomatch hnotices.symm.trans h.1
      rw [ht, if_pos rfl, hb.finish_take, State.takeFrame_notice hs hnotices, hout]
      refine (ih (s := { s with rep := { s.rep with notices := rest }, sending := none }) hb rfl hc hl hr ?_ hout).trans ?_
      · rw [hnotices] at hn
        simp only [List.length_cons] at hn
        show rest.length + s.forwards.length ≤ n
        omega
      · rw [State.emptied, ← hs]
        rfl
    | nil =>
      cases hforwards : s.forwards with
      | cons f rest =>
        have ht : s.canTake = true := (State.canTake_iff hs hc).mpr fun h => nomatch hforwards.symm.trans h.2.2
        rw [ht, if_pos rfl, hb.finish_take, State.takeFrame_forward hs hnotices hr hforwards, hout]
        refine (ih (s := { s with forwards := rest, sending := none }) hb rfl hc hl hr ?_ hout).trans ?_
        · rw [hforwards] at hn
          simp only [List.length_cons] at hn
          show s.rep.notices.length + rest.length ≤ n
          omega
        · rw [State.emptied, ← hs]
          rfl
      | nil =>
        have ht : s.canTake = false := Bool.eq_false_iff.mpr fun h => (State.canTake_iff hs hc).mp h ⟨hnotices, hr, hforwards⟩
        rw [ht]
        exact (State.emptied_self hnotices hforwards).symm

theorem State.drains_down (hb : s.BeaconsShow) (hs : s.sending = none) (hc : s.cycleStarting = false)
    (hl : s.linkIsUp .surface = false) (hr : s.responses = []) : s.Drains s.emptied := by
  have hfuel : s.rep.notices.length + s.forwards.length ≤ s.takesFuel := by
    rw [State.takesFuel]
    omega
  have hidle : s.emptied.canTake = false :=
    Bool.eq_false_iff.mpr fun h => (State.canTake_iff (s := s.emptied) hs hc).mp h ⟨rfl, hr, rfl⟩
  exact ⟨State.takesN_down hb hs hc hl hr hfuel, hidle, rfl, rfl, rfl, rfl, rfl⟩

end

end Sys2Proof.Machine
end

section
/-! S_PORT_TAKE and the end of a transmission, settled. -/

namespace Sys2Proof

open Machine

/-- Settles O52: the take's own cases, the Agent that goes on, and any other command that finds the takes done. -/
theorem transmitterTakesInOrder : Obligations.TransmitterTakesInOrder := by
  intro s f rest
  refine ⟨fun hc => ?within, fun hb hs hc => ?takes⟩
  case within =>
    rw [State.exec_sPortTake, State.canTake_within hc]
    rfl
  case takes =>
    intro out
    have htake (h : ¬ (s.rep.notices = [] ∧ s.responses = [] ∧ s.forwards = [])) : exec .sPortTake s = .next s.takeFrame := by
      rw [State.exec_sPortTake, if_pos ((State.canTake_iff hs hc).mpr h), hb.finish_take]
    refine ⟨fun hn => ?notice, fun hn hr ha => ?response, fun hn hr g ha => ?goes, fun hn hr hf => ?forward,
      fun hn hr hf => ?none, fun i hp hl ht hd => ⟨fun t hup he => ?up, fun hdown hr => ?down⟩, fun o ho => ?ends⟩
    case notice =>
      have hne : ¬ (s.rep.notices = [] ∧ s.responses = [] ∧ s.forwards = []) := fun h => nomatch hn.symm.trans h.1
      exact (htake hne).trans (congrArg Host.Outcome.next (State.takeFrame_notice hs hn))
    case response =>
      have hne : ¬ (s.rep.notices = [] ∧ s.responses = [] ∧ s.forwards = []) := fun h => nomatch hr.symm.trans h.2.1
      have htaken := State.responseTaken_none (s := { s with responses := rest, sending := s.outgoing f }) ha
      exact (htake hne).trans (congrArg Host.Outcome.next ((State.takeFrame_response hs hn hr).trans htaken))
    case goes =>
      intro u after
      have hne : ¬ (s.rep.notices = [] ∧ s.responses = [] ∧ s.forwards = []) := fun h => nomatch hr.symm.trans h.2.1
      have hgoes : s.takeFrame = State.serveWaiting s.agent.waiting u := by
        rw [State.takeFrame_response hs hn hr,
          State.responseTaken_waiting (s := { s with responses := rest, sending := s.outgoing f }) (g := g) ha]
        rfl
      obtain ⟨n, hle, hbefore, hafter, heq⟩ := State.serveWaiting_until s.agent.waiting u
      exact ⟨n, hle, hbefore, hafter, (htake hne).trans (congrArg Host.Outcome.next (hgoes.trans heq))⟩
    case forward =>
      have hne : ¬ (s.rep.notices = [] ∧ s.responses = [] ∧ s.forwards = []) := fun h => nomatch hf.symm.trans h.2.2
      exact (htake hne).trans (congrArg Host.Outcome.next (State.takeFrame_forward hs hn hr hf))
    case none =>
      rw [State.exec_sPortTake, if_neg fun h => (State.canTake_iff hs hc).mp h ⟨hn, hr, hf⟩]
    case up =>
      rw [State.exec_sPortTake] at he
      injection he with he
      have hdrains := s.drains_up hup
      rw [he] at hdrains
      exact hdrains.exec hp hl ht hd
    case down => exact (State.drains_down hb hs hc hdown hr).exec hp hl ht hd
    case ends =>
      have hrun : exec .sPortTransmissionEnd { s with sending := o } = .next (State.transmissionEnd { s with sending := o }).finish :=
        congrArg Host.Outcome.next (ho.run State.transmissionEnd)
      have hend : State.transmissionEnd { s with sending := o } = s := by
        rw [State.transmissionEnd, ← hs]
      rw [hrun, hend, hb.finish_shown rfl rfl rfl rfl rfl]

end Sys2Proof
end

section
/-! A request about one loader (R13): what it leaves alone. -/

namespace Sys2Proof.Machine

open Sys2Proof

section
variable {s t u : State} {l k : Loader} {c d : Chair} {b code : Byte} {tag : Word16} {args : List Byte}

/-- The codes of the Authority Table's requests about one loader. -/
abbrev aboutOne : List Byte := [0x10, 0x11, 0x12, 0x13, 0x14, 0x15, 0x16, 0x17]

/-- Such a request touches the loader it names, or none. -/
theorem State.Touches.chairRequest (hn : ∀ m, indexOfByte 16 b = some m → m = l) (hcode : code ∈ aboutOne)
    (hzone : ¬ (code = 0x17 ∧ args.head? = some 0x02)) :
    State.Touches l c s (s.chairRequest c b code tag args) := by
  simp only [aboutOne, List.mem_cons, List.not_mem_nil, or_false] at hcode
  obtain rfl | rfl | rfl | rfl | rfl | rfl | rfl | rfl := hcode
  · exact State.Touches.takeRequest hn tag args
  · exact State.Touches.offerRequest hn tag args
  · exact State.Touches.acceptRequest hn tag args
  · exact State.Touches.declineRequest hn tag args
  · exact State.Touches.cancelRequest hn tag args
  · exact State.Touches.releaseRequest hn tag args
  · exact State.Touches.recoverRequest hn tag args
  · have hstop : s.chairRequest c b 0x17 tag args = s.stopLoaderRequest c b tag (!requestIllFormed 0x17 args) :=
      State.stopRequest_loader fun h => hzone ⟨rfl, h⟩
    rw [hstop]
    exact State.Touches.stopLoaderRequest hn tag _

/-- The walk gives no chair another presence, availability or count of missed offers. -/
theorem State.Walked.counts (h : u.Walked t) (d : Chair) : t.chairs[d].presence = u.chairs[d].presence
    ∧ t.chairs[d].available = u.chairs[d].available ∧ t.chairs[d].missed = u.chairs[d].missed := by
  obtain ⟨hd, -⟩ | ⟨-, -, k, w, n, timer, hd, -⟩ := h.chairs d
  · rw [hd]
    exact ⟨rfl, rfl, rfl⟩
  · rw [hd]
    exact ⟨rfl, rfl, rfl⟩

/-- There is a loader besides each that a byte which does not name it may name. -/
theorem named_besides (h : indexOfByte 16 b ≠ some k) : ∃ l : Loader, k ≠ l ∧ ∀ m, indexOfByte 16 b = some m → m = l := by
  cases hb : indexOfByte 16 b with
  | some l =>
    refine ⟨l, fun hk => h (by rw [hb, hk]), fun m hm => ?_⟩
    injection hm with hm
    exact hm.symm
  | none =>
    obtain ⟨l, hl⟩ := exists_ne k
    exact ⟨l, hl.symm, fun m hm => nomatch hm⟩

/-- A request that reaches its owner is carried out, and the arbiter walks. -/
theorem State.Admits.exec_asked {i : Instr} {h : Header} (ha : s.Admits (requestFrame h code tag args) c) (hi : i.asked = some (h, code, tag, args)) :
    exec i s = .next ((s.refreshPresence c).chairRequest c h.loader code tag args).finish :=
  (Machine.exec_asked hi s).trans (congrArg Host.Outcome.next (ha.chairCommand _))

theorem State.refreshPresence_others (s : State) {c d : Chair} (h : d ≠ c) : (s.refreshPresence c).chairs[d] = s.chairs[d] := by
  unfold State.refreshPresence
  split
  · rfl
  · exact putAt_other _ _ h.symm

end

end Sys2Proof.Machine

namespace Sys2Proof

open Machine

/-- Settles O46: the request touches the loader it names, and the walk that follows offers queued loaders alone. -/
theorem requestsTouchOneLoader : Obligations.RequestsTouchOneLoader := by
  intro s i h code tag args c hi ha hr hcode hzone
  have hagree : ((s.refreshPresence c).chairRequest c h.loader code tag args).RecordsAgree :=
    (hr.refreshPresence c).chairRequest _ _ _ _ _
  have htouch {l : Loader} (hn : ∀ m, indexOfByte 16 h.loader = some m → m = l) :
      State.Touches l c (s.refreshPresence c) ((s.refreshPresence c).chairRequest c h.loader code tag args) :=
    State.Touches.chairRequest hn hcode hzone
  rw [ha.exec_asked hi]
  generalize (s.refreshPresence c).chairRequest c h.loader code tag args = u at *
  obtain ⟨l, hl⟩ : ∃ l : Loader, ∀ m, indexOfByte 16 h.loader = some m → m = l := by
    cases hb : indexOfByte 16 h.loader with
    | some l => exact ⟨l, fun m hm => by injection hm with hm; exact hm.symm⟩
    | none => exact ⟨0, fun m hm => nomatch hm⟩
  have hend := ha.touched hagree (htouch hl)
  refine ⟨_, rfl, hend.authority, fun k hk => ?_, fun d hd => ?_⟩
  · obtain ⟨m, hkm, hm⟩ := named_besides hk
    have hother := htouch hm
    refine ⟨(ha.touched hagree hother).kept k hkm, ?_, ?_⟩
    · rw [hend.walked.windows, hother.windows k hkm, State.refreshPresence_windows]
    · rw [State.finish_builders, hother.builders k hkm, State.refreshPresence_builders]
  · obtain ⟨hp, hav, hm⟩ := hend.walked.counts d
    obtain ⟨hp', hav', hm'⟩ := (htouch hl).chairs d hd
    rw [hp, hav, hm, hp', hav', hm', State.refreshPresence_others s hd]
    exact ⟨rfl, rfl, rfl⟩

end Sys2Proof
end

section
/-! No request reads what has been reported (R13, R157): its records and tables are the same whatever the Notice Queue holds. -/

namespace Sys2Proof.Machine

open Sys2Proof

/-- The same state but for its reports. -/
def State.ButRep (s t : State) : Prop := ∃ r, t = s.withRep r

namespace State.ButRep
variable {s t a b a' b' : State} {c d : Chair} {l : Loader}

theorem withRep (s : State) (r : Report) : s.ButRep (s.withRep r) := ⟨r, rfl⟩

theorem eq_back (h : s.ButRep t) : s = { t with rep := s.rep } := by
  obtain ⟨r, rfl⟩ := h
  rfl

theorem ite {p q : Prop} [Decidable p] [Decidable q] (hpq : p ↔ q) (ha : a.ButRep a') (hb : b.ButRep b') :
    State.ButRep (if p then a else b) (if q then a' else b') := by
  by_cases hp : p
  · rw [if_pos hp, if_pos (hpq.mp hp)]
    exact ha
  · rw [if_neg hp, if_neg fun hq => hp (hpq.mpr hq)]
    exact hb

/-- An operation that reports at most carries over. -/
theorem told {f : State → State} (hf : ∀ s r, f (s.withRep r) = (f s).withRep (f (s.withRep r)).rep) (h : s.ButRep t) :
    (f s).ButRep (f t) := by
  obtain ⟨r, rfl⟩ := h
  exact ⟨_, hf s r⟩

/-! ## Single writes -/

theorem notice (h : s.ButRep t) (d n) : (s.notice d n).ButRep (t.notice d n) := h.told (f := fun s => s.notice d n) fun _ _ => rfl

theorem raise (h : s.ButRep t) (e k d w) : (s.raise e k d w).ButRep (t.raise e k d w) :=
  h.told (f := fun s => s.raise e k d w) fun _ _ => rfl

theorem count (h : s.ButRep t) (id n) : (s.count id n).ButRep (t.count id n) := h.told (f := fun s => s.count id n) fun _ _ => rfl

theorem setChair (h : s.ButRep t) (d x) : (s.setChair d x).ButRep (t.setChair d x) :=
  h.told (f := fun s => s.setChair d x) fun _ _ => rfl

theorem setAuth (h : s.ButRep t) (k x) : (s.setAuth k x).ButRep (t.setAuth k x) :=
  h.told (f := fun s => s.setAuth k x) fun _ _ => rfl

theorem dequeue (h : s.ButRep t) (k) : (s.dequeue k).ButRep (t.dequeue k) := h.told (f := fun s => s.dequeue k) fun _ _ => rfl

theorem callWalk (h : s.ButRep t) : s.callWalk.ButRep t.callWalk := h.told (f := State.callWalk) fun _ _ => rfl

theorem advanceEpoch (h : s.ButRep t) (k) : (s.advanceEpoch k).ButRep (t.advanceEpoch k) :=
  h.told (f := fun s => s.advanceEpoch k) fun _ _ => rfl

theorem joinList (h : s.ButRep t) (d) : (s.joinList d).ButRep (t.joinList d) := h.told (f := fun s => s.joinList d) fun _ _ => rfl

theorem leaveList (h : s.ButRep t) (d) : (s.leaveList d).ButRep (t.leaveList d) :=
  h.told (f := fun s => s.leaveList d) fun _ _ => rfl

theorem clearViews (h : s.ButRep t) (d) : (s.clearViews d).ButRep (t.clearViews d) :=
  h.told (f := fun s => s.clearViews d) fun _ _ => rfl

theorem setView (h : s.ButRep t) (d k e) : (s.setView d k e).ButRep (t.setView d k e) :=
  h.told (f := fun s => s.setView d k e) fun _ _ => rfl

theorem setBeacons (h : s.ButRep t) : s.setBeacons.ButRep t.setBeacons := h.told (f := State.setBeacons) fun _ _ => rfl

theorem walkMade (h : s.ButRep t) : State.ButRep { s with walkCalled := false } { t with walkCalled := false } :=
  h.told (f := fun s => { s with walkCalled := false }) fun _ _ => rfl

/-! ## Operations in a straight line -/

theorem refuse (h : s.ButRep t) (d tag k why) : (s.refuse d tag k why).ButRep (t.refuse d tag k why) :=
  h.told (f := fun s => s.refuse d tag k why) fun _ _ => rfl

theorem done (h : s.ButRep t) (d tag k e n m) : (s.done d tag k e n m).ButRep (t.done d tag k e n m) := h.notice _ _

theorem doneNone (h : s.ButRep t) (d tag) : (s.doneNone d tag).ButRep (t.doneNone d tag) := h.notice _ _

theorem withdrawn (h : s.ButRep t) (k d n why) : (s.withdrawn k d n why).ButRep (t.withdrawn k d n why) :=
  h.told (f := fun s => s.withdrawn k d n why) fun _ _ => rfl

theorem aborted (h : s.ButRep t) (k d why) : (s.aborted k d why).ButRep (t.aborted k d why) :=
  h.told (f := fun s => s.aborted k d why) fun _ _ => rfl

theorem beginMatching (h : s.ButRep t) (k x d o p) : (s.beginMatching k x d o p).ButRep (t.beginMatching k x d o p) :=
  h.told (f := fun s => s.beginMatching k x d o p) fun _ _ => rfl

theorem makeOffer (h : s.ButRep t) (k d o) : (s.makeOffer k d o).ButRep (t.makeOffer k d o) :=
  h.told (f := fun s => s.makeOffer k d o) fun _ _ => rfl

theorem acknowledge (h : s.ButRep t) (i d) : (s.acknowledge i d).ButRep (t.acknowledge i d) :=
  h.told (f := fun s => s.acknowledge i d) fun _ _ => rfl

/-! ## Operations with cases -/

theorem release (h : s.ButRep t) (d) : (s.release d).ButRep (t.release d) := by
  obtain ⟨r, rfl⟩ := h
  exact ⟨_, s.withRep_release r d⟩

theorem endMatching (h : s.ButRep t) (k d) : (s.endMatching k d).ButRep (t.endMatching k d) := by
  obtain ⟨r, rfl⟩ := h
  exact ⟨_, s.withRep_endMatching r k d⟩

theorem refreshPresence (h : s.ButRep t) (d) : (s.refreshPresence d).ButRep (t.refreshPresence d) := by
  obtain ⟨r, rfl⟩ := h
  exact ⟨_, s.withRep_refreshPresence r d⟩

theorem dropRetained (h : s.ButRep t) (k) : (s.dropRetained k).ButRep (t.dropRetained k) := by
  obtain ⟨r, rfl⟩ := h
  exact ⟨_, s.withRep_dropRetained r k⟩

theorem enterFree (h : s.ButRep t) (k) : (s.enterFree k).ButRep (t.enterFree k) := by
  obtain ⟨r, rfl⟩ := h
  exact ⟨_, s.withRep_enterFree r k⟩

theorem returnLoader (h : s.ButRep t) (k) : (s.returnLoader k).ButRep (t.returnLoader k) := by
  obtain ⟨r, rfl⟩ := h
  exact ⟨_, s.withRep_returnLoader r k⟩

theorem offerGone (h : s.ButRep t) (d n) : (s.offerGone d n).ButRep (t.offerGone d n) := by
  obtain ⟨r, rfl⟩ := h
  exact ⟨_, s.withRep_offerGone r d n⟩

theorem endOffer (h : s.ButRep t) (k d n w) {go : State → State} (hg : ∀ {s t : State}, s.ButRep t → (go s).ButRep (go t)) :
    (s.endOffer k d n w go).ButRep (t.endOffer k d n w go) := ((hg (h.offerGone d n)).raise _ _ _ _).callWalk

theorem standEntry (h : s.ButRep t) (k cause) : (s.standEntry k cause).ButRep (t.standEntry k cause) := by
  obtain ⟨r, rfl⟩ := h
  exact ⟨_, s.withRep_standEntry r k cause⟩

theorem stand (h : s.ButRep t) (k cause) : (s.stand k cause).ButRep (t.stand k cause) := by
  obtain ⟨r, rfl⟩ := h
  exact ⟨_, s.withRep_stand r k cause⟩

theorem stands (h : s.ButRep t) (xs : List Loader) (cause) :
    State.ButRep (xs.foldl (fun s l => s.stand l cause) s) (xs.foldl (fun s l => s.stand l cause) t) := by
  induction xs generalizing s t with
  | nil => exact h
  | cons x xs ih => exact ih (h.stand x cause)

theorem dropTaken (h : s.ButRep t) (d k x) : (s.dropTaken d k x).ButRep (t.dropTaken d k x) := by
  obtain ⟨r, rfl⟩ := h
  exact State.ButRep.dropRetained (State.ButRep.notice ⟨r, rfl⟩ _ _) k

theorem absentPlace (h : s.ButRep t) (d k) : (s.absentPlace d k).ButRep (t.absentPlace d k) := by
  obtain ⟨r, rfl⟩ := h
  have hs : s.ButRep (s.withRep r) := ⟨r, rfl⟩
  simp only [State.absentPlace, State.withRep_auth]
  cases s.auth[k].state with
  | standing retained cause => exact ite Iff.rfl (hs.dropRetained k) hs
  | held x => exact ite Iff.rfl (hs.standEntry k _) hs
  | offered x y o n f m =>
    exact ite Iff.rfl (hs.standEntry k _) (ite Iff.rfl (hs.endOffer k d n _ fun h => h.returnLoader k) hs)
  | matching x y o f m => exact ite Iff.rfl (hs.standEntry k _) (ite Iff.rfl ((hs.endMatching k d).returnLoader k) hs)
  | _ => exact hs

theorem becomeAbsent (h : s.ButRep t) (d w) : (s.becomeAbsent d w).ButRep (t.becomeAbsent d w) := by
  obtain ⟨r, rfl⟩ := h
  have hgone := ((((withRep s r).setChair d s.chairs[d].gone).leaveList d).clearViews d).raise .chairAbsent none (some d) w
  simp only [State.becomeAbsent, State.withRep_chairs]
  cases s.chairs[d].engaged with
  | none => exact hgone
  | some k => exact hgone.absentPlace d k

theorem setAvailable (h : s.ButRep t) (d a) : (s.setAvailable d a).ButRep (t.setAvailable d a) := by
  obtain ⟨r, rfl⟩ := h
  have hs : s.ButRep (s.withRep r) := ⟨r, rfl⟩
  have hon := (hs.setChair d { s.chairs[d] with available := true, missed := 0 }).raise .chairAvailable none (some d) 0
  refine ite Iff.rfl hs (ite Iff.rfl (ite Iff.rfl (hon.joinList d) hon) ?_)
  exact ((hs.setChair d _).raise _ _ _ _).leaveList d

theorem becomePresent (h : s.ButRep t) (d a) : (s.becomePresent d a).ButRep (t.becomePresent d a) := by
  obtain ⟨r, rfl⟩ := h
  have hs : s.ButRep (s.withRep r) := ⟨r, rfl⟩
  have hin := (hs.setChair d { s.chairs[d] with
    status := .idle, available := a, presence := s.tables.device.presenceTimeout, missed := 0, engaged := none }).raise
      .chairPresent none (some d) 0
  exact ite Iff.rfl (hin.joinList d) hin

/-! ## The end of the event -/

theorem walkOne (h : s.ButRep t) (e) : (s.walkOne e).ButRep (t.walkOne e) := by
  obtain ⟨r, rfl⟩ := h
  have hs : s.ButRep (s.withRep r) := ⟨r, rfl⟩
  have hfind : (s.withRep r).freeList.find? ((s.withRep r).eligible e.loader) = s.freeList.find? (s.eligible e.loader) := rfl
  simp only [State.walkOne, hfind]
  cases s.freeList.find? (s.eligible e.loader) with
  | none => exact hs
  | some x => exact hs.makeOffer _ _ _

theorem walks (h : s.ButRep t) (xs : List CallEntry) : State.ButRep (xs.foldl State.walkOne s) (xs.foldl State.walkOne t) := by
  induction xs generalizing s t with
  | nil => exact h
  | cons x xs ih => exact ih (h.walkOne x)

theorem walkIfCalled (h : s.ButRep t) : s.walkIfCalled.ButRep t.walkIfCalled := by
  obtain ⟨r, rfl⟩ := h
  have hs : s.ButRep (s.withRep r) := ⟨r, rfl⟩
  exact ite Iff.rfl (hs.walks s.callQueue).walkMade hs

theorem finish (h : s.ButRep t) : s.finish.ButRep t.finish := by
  obtain ⟨r, rfl⟩ := h
  have hs : s.ButRep (s.withRep r) := ⟨r, rfl⟩
  exact (ite Iff.rfl hs hs.walkIfCalled).setBeacons

end State.ButRep

end Sys2Proof.Machine
end

section
/-! The requests read no reports. -/

namespace Sys2Proof.Machine

open Sys2Proof

namespace State.ButRep
variable (s : State) (r : Report) (c : Chair) (b : Byte) (tag : Word16) (args : List Byte) (l : Loader)

theorem authorityRequest {fits : Bool} {k : State → Loader → State} (hk : ∀ l, (k s l).ButRep (k (s.withRep r) l)) :
    (s.authorityRequest c b tag fits k).ButRep ((s.withRep r).authorityRequest c b tag fits k) := by
  have hs := withRep s r
  unfold State.authorityRequest
  refine ite Iff.rfl (hs.refuse _ _ _ _) ?_
  cases indexOfByte 16 b with
  | none => exact hs.refuse _ _ _ _
  | some l =>
    exact ite Iff.rfl (hs.refuse _ _ _ _) (ite Iff.rfl (hs.refuse _ _ _ _) (ite Iff.rfl (hs.refuse _ _ _ _) (hk l)))

theorem presentRequest : (s.presentRequest c tag args).ButRep ((s.withRep r).presentRequest c tag args) := by
  have hs := withRep s r
  unfold State.presentRequest
  cases availabilityOfArgs args with
  | none => exact hs.refuse _ _ _ _
  | some a =>
    exact ite Iff.rfl ((hs.doneNone c tag).becomePresent c a) (((hs.doneNone c tag).refreshPresence c).setAvailable c a)

theorem leaveRequest : (s.leaveRequest c tag args).ButRep ((s.withRep r).leaveRequest c tag args) := by
  have hs := withRep s r
  exact ite Iff.rfl (hs.refuse _ _ _ _) (ite Iff.rfl (hs.refuse _ _ _ _) ((hs.doneNone c tag).becomeAbsent c _))

theorem takeOperator : (s.takeOperator c tag l).ButRep ((s.withRep r).takeOperator c tag l) :=
  (((withRep s r).done _ _ _ _ _ _).dequeue l).beginMatching _ _ _ _ _

theorem takeSupervisor : (s.takeSupervisor c tag l).ButRep ((s.withRep r).takeSupervisor c tag l) := by
  have hs := withRep s r
  have hdone (n : Byte) := hs.done c tag l n 0 s.tables.device.matchTimeout
  simp only [State.takeSupervisor, State.withRep_auth, State.withRep_tables]
  refine raise ?_ _ _ _ _
  cases s.auth[l].state with
  | calling w => exact ((hdone _).dequeue l).beginMatching _ _ _ _ _
  | offered x y o n f m =>
    exact ((hdone _).withdrawn _ _ _ _).endOffer _ _ _ _ fun h => h.beginMatching _ _ _ _ _
  | matching x y o f m => exact (((hdone _).aborted _ _ _).endMatching _ _).beginMatching _ _ _ _ _
  | held x => exact (hdone _).beginMatching _ _ _ _ _
  | standing retained cause =>
    cases retained with
    | none => exact (hdone _).beginMatching _ _ _ _ _
    | some x => exact ((hdone _).dropTaken _ _ _).beginMatching _ _ _ _ _
  | free => exact (hdone _).beginMatching _ _ _ _ _
  | releasing m => exact (hdone _).beginMatching _ _ _ _ _

theorem takeRequest : (s.takeRequest c b tag args).ButRep ((s.withRep r).takeRequest c b tag args) := by
  have hs := withRep s r
  refine authorityRequest s r c b tag fun l => ite Iff.rfl ?_ ?_
  · have hchecks : (s.withRep r).takeSupervisorChecks c l = s.takeSupervisorChecks c l := rfl
    rw [hchecks]
    cases s.takeSupervisorChecks c l with
    | some why => exact hs.refuse _ _ _ _
    | none => exact takeSupervisor s r c tag l
  · have hchecks : (s.withRep r).takeOperatorChecks c l = s.takeOperatorChecks c l := rfl
    rw [hchecks]
    cases s.takeOperatorChecks c l with
    | some why => exact hs.refuse _ _ _ _
    | none => exact takeOperator s r c tag l

theorem offerRequest : (s.offerRequest c b tag args).ButRep ((s.withRep r).offerRequest c b tag args) := by
  have hs := withRep s r
  simp only [State.offerRequest]
  refine authorityRequest s r c b tag fun l => ?_
  split
  · exact hs
  · next x _ =>
    have hchecks : (s.withRep r).offerChecks c l x = s.offerChecks c l x := rfl
    rw [hchecks]
    cases s.offerChecks c l x with
    | some why => exact hs.refuse _ _ _ _
    | none => exact (hs.done _ _ _ _ _ _).makeOffer _ _ _

theorem answerMissed (n) : (s.answerMissed c tag l n).ButRep ((s.withRep r).answerMissed c tag l n) := (withRep s r).refuse _ _ _ _

theorem acceptRequest : (s.acceptRequest c b tag args).ButRep ((s.withRep r).acceptRequest c b tag args) := by
  have hs := withRep s r
  refine authorityRequest s r c b tag fun l => ?_
  simp only [State.withRep_auth, State.withRep_tables]
  cases s.auth[l].state with
  | offered x y o n f m =>
    exact ite Iff.rfl (((hs.done _ _ _ _ _ _).beginMatching _ _ _ _ _).setChair _ _) (answerMissed s r c tag l _)
  | _ => exact answerMissed s r c tag l _

theorem declineRequest : (s.declineRequest c b tag args).ButRep ((s.withRep r).declineRequest c b tag args) := by
  have hs := withRep s r
  refine authorityRequest s r c b tag fun l => ?_
  simp only [State.withRep_auth]
  cases s.auth[l].state with
  | offered x y o n f m =>
    exact ite Iff.rfl ((hs.done _ _ _ _ _ _).endOffer _ _ _ _ fun h => h.returnLoader l) (answerMissed s r c tag l _)
  | _ => exact answerMissed s r c tag l _

theorem cancelRequest : (s.cancelRequest c b tag args).ButRep ((s.withRep r).cancelRequest c b tag args) := by
  have hs := withRep s r
  refine authorityRequest s r c b tag fun l => ?_
  simp only [State.withRep_auth, State.withRep_tables]
  have hdone := hs.done c tag l s.auth[l].epoch 0 0
  cases s.auth[l].state with
  | offered x y o n f m =>
    exact ite Iff.rfl ((hdone.withdrawn _ _ _ _).endOffer _ _ _ _ fun h => h.returnLoader l) (hs.refuse _ _ _ _)
  | matching x y o f m =>
    exact ite Iff.rfl (((ite Iff.rfl hdone (hdone.aborted _ _ _)).endMatching _ _).returnLoader _) (hs.refuse _ _ _ _)
  | _ => exact hs.refuse _ _ _ _

theorem releaseRequest : (s.releaseRequest c b tag args).ButRep ((s.withRep r).releaseRequest c b tag args) := by
  have hs := withRep s r
  refine authorityRequest s r c b tag fun l => ite Iff.rfl (hs.refuse _ _ _ _) ?_
  simp only [State.withRep_auth]
  have hdone (m) := hs.done c tag l (s.auth[l].epoch + 1) 0 m
  cases s.auth[l].state with
  | held x =>
    cases ReleaseMode.ofArgs args with
    | none => exact (hdone 0).standEntry _ _
    | some mode =>
      cases mode with
      | auto => exact ((((hdone _).advanceEpoch _).setAuth _ _).release _).raise _ _ _ _
      | stand => exact (hdone 0).standEntry _ _
  | _ => exact hs.refuse _ _ _ _

theorem recoverRequest : (s.recoverRequest c b tag args).ButRep ((s.withRep r).recoverRequest c b tag args) := by
  have hs := withRep s r
  refine authorityRequest s r c b tag fun l => ?_
  simp only [State.withRep_auth, State.withRep_tables]
  cases s.auth[l].state with
  | standing retained cause =>
    refine ite Iff.rfl (hs.refuse _ _ _ _) (ite Iff.rfl (hs.refuse _ _ _ _) ?_)
    cases retained with
    | none => exact ((hs.done _ _ _ _ _ _).enterFree _).raise _ _ _ _
    | some x =>
      exact ite Iff.rfl (((hs.done _ _ _ _ _ _).beginMatching _ _ _ _ _).raise _ _ _ _)
        (ite Iff.rfl ((((hs.done _ _ _ _ _ _).dropTaken _ _ _).enterFree _).raise _ _ _ _) (hs.refuse _ _ _ _))
  | _ => exact hs.refuse _ _ _ _

theorem stopLoaderRequest (fits) : (s.stopLoaderRequest c b tag fits).ButRep ((s.withRep r).stopLoaderRequest c b tag fits) :=
  authorityRequest s r c b tag fun _ => ((withRep s r).done _ _ _ _ _ _).stand _ _

theorem stopZoneRequest (z fits) : (s.stopZoneRequest c tag z fits).ButRep ((s.withRep r).stopZoneRequest c tag z fits) := by
  have hs := withRep s r
  unfold State.stopZoneRequest
  refine ite Iff.rfl (hs.refuse _ _ _ _) ?_
  cases indexOfByte 8 z with
  | none => exact hs.refuse _ _ _ _
  | some z => exact ite Iff.rfl (hs.refuse _ _ _ _) ((hs.doneNone c tag).stands _ _)

theorem stopRequest : (s.stopRequest c b tag args).ButRep ((s.withRep r).stopRequest c b tag args) := by
  have hzone (z fits) := stopZoneRequest s r c tag z fits
  have hloader (fits) := stopLoaderRequest s r c b tag fits
  unfold State.stopRequest
  split
  · exact ite Iff.rfl (hloader _) (ite Iff.rfl (hzone _ _) (hloader _))
  · exact ite Iff.rfl (hzone _ _) (hloader _)
  · exact ite Iff.rfl (hzone _ _) (hloader _)
  · exact hloader _

theorem viewOnRequest : (s.viewOnRequest c b tag args).ButRep ((s.withRep r).viewOnRequest c b tag args) := by
  have hs := withRep s r
  unfold State.viewOnRequest
  refine ite Iff.rfl (hs.refuse _ _ _ _) ?_
  cases indexOfByte 16 b with
  | none => exact hs.refuse _ _ _ _
  | some l =>
    cases viewArgs args with
    | none => exact hs.refuse _ _ _ _
    | some e => exact ite Iff.rfl ((hs.setView c l e).done _ _ _ _ _ _) (hs.refuse _ _ _ _)

theorem viewOffRequest : (s.viewOffRequest c b tag args).ButRep ((s.withRep r).viewOffRequest c b tag args) := by
  have hs := withRep s r
  unfold State.viewOffRequest
  refine ite Iff.rfl (hs.refuse _ _ _ _) ?_
  cases indexOfByte 16 b with
  | none => exact hs.refuse _ _ _ _
  | some l => exact ite Iff.rfl ((hs.setView c l _).done _ _ _ _ _ _) (hs.refuse _ _ _ _)

theorem lineAckRequest : (s.lineAckRequest c tag args).ButRep ((s.withRep r).lineAckRequest c tag args) := by
  have hs := withRep s r
  unfold State.lineAckRequest
  refine ite Iff.rfl (hs.refuse _ _ _ _) ?_
  dsimp only
  split
  · exact hs.refuse _ _ _ _
  · exact ite Iff.rfl (hs.refuse _ _ _ _) (ite Iff.rfl (hs.refuse _ _ _ _) ((hs.doneNone c tag).acknowledge _ _))

theorem unknownRequest : (s.unknownRequest c b tag).ButRep ((s.withRep r).unknownRequest c b tag) := (withRep s r).refuse _ _ _ _

/-- A request acts on records and tables alike, whatever has been reported (R13, R157). -/
theorem chairRequest (code) : (s.chairRequest c b code tag args).ButRep ((s.withRep r).chairRequest c b code tag args) := by
  unfold State.chairRequest
  refine ite Iff.rfl (presentRequest s r c tag args) (ite Iff.rfl (leaveRequest s r c tag args)
    (ite Iff.rfl (takeRequest s r c b tag args) (ite Iff.rfl (offerRequest s r c b tag args)
    (ite Iff.rfl (acceptRequest s r c b tag args) (ite Iff.rfl (declineRequest s r c b tag args)
    (ite Iff.rfl (cancelRequest s r c b tag args) (ite Iff.rfl (releaseRequest s r c b tag args)
    (ite Iff.rfl (recoverRequest s r c b tag args) (ite Iff.rfl (stopRequest s r c b tag args)
    (ite Iff.rfl (viewOnRequest s r c b tag args) (ite Iff.rfl (viewOffRequest s r c b tag args)
    (ite Iff.rfl (lineAckRequest s r c tag args) (unknownRequest s r c b tag)))))))))))))

end State.ButRep

end Sys2Proof.Machine
end

section
/-! The one answer to a request, and what becomes of it where the Notice Queue is full (R13, R157). -/

namespace Sys2Proof.Machine

open Sys2Proof

section
variable {s t : State} {f : Frame} {h : Header} {code : Byte} {tag : Word16} {args : List Byte} {c : Chair}

/-- What a counter is worth after a count of n, or more: a count reaches it. -/
theorem Report.count_reaches {r : Report} (hle : ∀ x, r.counter x ≤ 65535) (hf : r.frozen = false) (s : State) (id : CounterId) (n : Nat) :
    (∀ x, (r.count s id n).counter x ≤ 65535) ∧ (r.count s id n).frozen = false
      ∧ min 65535 (r.counter id + n) ≤ (r.count s id n).counter id := by
  have hbump : (∀ x, (r.bump id n).counter x ≤ 65535) ∧ (r.bump id n).frozen = false
      ∧ min 65535 (r.counter id + n) ≤ (r.bump id n).counter id := by
    refine ⟨fun x => (Report.bump_le hle id n x).2, (r.bump_eq id n).2.2.trans hf, ?_⟩
    rw [Report.bump_counter, if_pos ⟨rfl, hf⟩]
  have hclosed := Report.closed_counted (answers := true) id (min 65535 (r.counter id + n))
  obtain ⟨-, -, -, he⟩ | ⟨-, he⟩ := r.count_cases s id n <;> rw [he]
  · exact hclosed.raiseWith (fun x r h => hclosed.bump r x 1 h) s _
      (hclosed.flags _ (r.bump id n).attn true (r.bump id n).overflow (fun h => h) hbump)
  · exact hbump

/-- A notice that finds room is the answer, and no other notice of the event is. -/
theorem State.Answers.room (h : State.Answers c tag s t) (hroom : s.rep.notices.length < noticeCapacity) :
    ∃ n : Notice, ∃ more : List Frame, t.rep.notices = s.rep.notices ++ noticeFrame s c n (s.rep.noticeSeq[c] + 1) :: more
      ∧ (n.name = .done ∨ n.name = .refused) ∧ n.tag = tag ∧ ∀ f ∈ more, f.payload.head? ≠ some 0x01 ∧ f.payload.head? ≠ some 0x02 := by
  obtain ⟨n, hn, htag, htells⟩ := h
  have hplaced : (s.notice c n).rep.notices = s.rep.notices ++ [noticeFrame s c n (s.rep.noticeSeq[c] + 1)] :=
    congrArg Report.notices (Report.notice_room hroom c n)
  obtain ⟨more, hmore, hall⟩ := (Report.closed_unanswered _).tells htells.rep ⟨[], (List.append_nil _).symm, nofun⟩
  exact ⟨n, more, by rw [hmore, hplaced, List.append_assoc]; rfl, hn, htag, hall⟩

/-- An answer that finds the queue full is dropped, with all that follows it. -/
theorem State.Answers.full (h : State.Answers c tag s t) (hfull : noticeCapacity ≤ s.rep.notices.length) :
    t.rep.notices = s.rep.notices := by
  obtain ⟨n, -, -, htells⟩ := h
  exact (Report.closed_full (answers := true) _ hfull).tells htells.rep.answered
    ((Report.closed_full (answers := true) _ hfull).notice s c (.inl rfl) rfl)

/-- The answer dropped is counted. -/
theorem State.Answers.counted (h : State.Answers c tag s t) (hfull : noticeCapacity ≤ s.rep.notices.length)
    (hr : s.rep.CountersRight) (hf : s.rep.frozen = false) :
    min 65535 (s.rep.counter (.device noticeLost) + 1) ≤ t.rep.counter (.device noticeLost) := by
  obtain ⟨n, -, -, htells⟩ := h
  have hclosed := Report.closed_counted (answers := false) (.device noticeLost)
    (min 65535 (s.rep.counter (.device noticeLost) + 1))
  have hnotice : (s.notice c n).rep = ((s.rep.takeNumber c).count s (.device noticeLost) 1).raise s
      ⟨.noticeLost, n.loader, some c, n.name.code.setWidth 16⟩ := if_neg (Nat.not_lt.mpr hfull)
  have hreach := Report.count_reaches (r := s.rep.takeNumber c) ((Report.countersRight_iff _).mp hr).1 hf s (.device noticeLost) 1
  refine (hclosed.tells htells.rep ?_).2.2
  rw [hnotice]
  exact hclosed.raise s _ hreach

/-- The presence that a frame reloads is nothing an answer tells of. -/
theorem State.Answers.of_refreshed (h : State.Answers c tag (s.refreshPresence c) t) : State.Answers c tag s t := by
  obtain ⟨n, hn, htag, htells⟩ := h
  have hs : (s.refreshPresence c).stores = s.stores := by
    unfold State.refreshPresence
    split <;> rfl
  have hrep : ((s.refreshPresence c).notice c n).rep = (s.notice c n).rep :=
    (Report.notice_same (s.refreshPresence_same c) c n _).trans (congrArg (Report.notice s c n) (s.refreshPresence_rep c))
  exact ⟨n, hn, htag, ⟨hrep ▸ htells.rep, htells.stores.trans hs⟩⟩

theorem State.Answers.finish (h : State.Answers c tag s t) : State.Answers c tag s t.finish := by
  obtain ⟨n, hn, htag, htells⟩ := h
  exact ⟨n, hn, htag, htells.finish⟩

/-- What the Notice Queue holds keeps no frame from its owner. -/
theorem State.Admits.emptied (ha : s.Admits f c) : (s.withRep { s.rep with notices := [] }).Admits f c := by
  obtain ⟨⟨⟨hdue, htake, hwalk, hbeacons⟩, hrun⟩, hrest⟩ := ha
  have hidle : ∀ idle n r f starting : Bool, (idle && !(n && r && f) && !starting) = false →
      (idle && !(true && r && f) && !starting) = false := by decide
  exact ⟨⟨⟨hdue, hidle _ _ _ _ _ htake, hwalk, hbeacons⟩, hrun⟩, hrest⟩

end

end Sys2Proof.Machine

namespace Sys2Proof

open Machine

/-- Settles O45: a request tells its answer first, and reads nothing of what was told before. -/
theorem everyRequestIsAnsweredOnce : Obligations.EveryRequestIsAnsweredOnce := by
  intro s i h code tag args c hi ha
  have hans : State.Answers c tag s ((s.refreshPresence c).chairRequest c h.loader code tag args).finish :=
    (State.Answers.chairRequest (s.refreshPresence c) c h.loader code tag args).of_refreshed.finish
  refine ⟨fun hroom => ?_, fun hfull => ?_⟩
  · obtain ⟨n, more, hmore, hrest⟩ := hans.room hroom
    exact ⟨_, n, more, ha.exec_asked hi, hmore, hrest⟩
  · have hempty : (s.withRep { s.rep with notices := [] }).Admits (requestFrame h code tag args) c := ha.emptied
    refine ⟨_, _, ha.exec_asked hi, hempty.exec_asked hi, ?_, hans.full hfull, hans.counted hfull⟩
    rw [State.withRep_refreshPresence]
    exact ((State.ButRep.chairRequest (s.refreshPresence c) _ c h.loader tag args code).finish).eq_back

end Sys2Proof
end
